-- ==== Sys2Proof/Word.lean ====
section
/-! DEFINITION. The word types of the SW-18: bytes of a frame, 16-bit frame words and counts, and the 32-bit
values of the timebase (R2) and of the microsecond counter (R30). -/

namespace Sys2Proof

/-- One byte of a request or an answer frame (R174). -/
abbrev Byte := BitVec 8

/-- A two-byte frame field, or a 16-bit counter that wraps (R45, R178, R183). -/
abbrev Half := BitVec 16

/-- A value of the millisecond timebase (R2). -/
abbrev Time := BitVec 32

/-- A value of the microsecond counter (R30). -/
abbrev Micros := BitVec 32

end Sys2Proof
end

