-- ==== Sys2Proof/Config.lean ====
section
/-! DEFINITION. The free values: what the manual leaves open while the machine goes on. They have no body, so no
proof can see what they are; each is applied to the counter `State.freeCount`, which the model advances. -/

namespace Sys2Proof

/-- What a current sense circuit gives after a reset (R159: the measured current "reads whatever the sense circuit
gives"). Entry 5 of the assumption log. -/
opaque Config.freeSense : Nat → Half

/-- The effective ceiling that a drive period expiry reads while the held direction is neutral and so names no
direction of the table (R60, R85). Entry 7. -/
opaque Config.freeCeiling : Nat → Nat

/-- The urgent flag that such an expiry reads. Entry 7. -/
opaque Config.freeUrgent : Nat → Bool

/-- A value of an answer field that its rule does not state for the state that stands: P with no program in force
(R29, R138), D_eff with the tank EMPTY (R121, R138). Entry 8. -/
opaque Config.freeField : Nat → Nat

end Sys2Proof
end

