-- ==== Sys2Proof/Syntax.lean ====
section
/-! DEFINITION. The commands of the block: one constructor of `Instr` per row of spec/opcode_table.json, with the
operands its rules give it, and the operand types.

Every command but POWER_ON_RESET carries the time in microseconds that has passed since the command before it was
taken (entry 1 of the assumption log). -/

namespace Sys2Proof

/-- The two SPI slave ports (R174). -/
inductive Link | drive | body
  deriving DecidableEq, Repr

/-- The two wheel inputs WL and WR (R30). -/
inductive Wheel | left | right
  deriving DecidableEq, Repr

/-- The three arms, the main broom among them (R86). -/
inductive Arm | left | right | main
  deriving DecidableEq, Repr

/-- The two side arms, which alone yield (R87). -/
inductive SideArm | left | right
  deriving DecidableEq, Repr

/-- The three spray bars (R114). -/
inductive Bar | left | right | main
  deriving DecidableEq, Repr

/-- A direction of travel: the direction line of a wheel input, the report direction, a ceiling's direction. -/
inductive Dir | forward | reverse
  deriving DecidableEq, Repr

/-- An output channel, 0 to 17 (00_scope.md). -/
abbrev Channel := Fin 18

/-- What every request frame carries beside its kind and parameters (R174): the link it came on, the tag, the
liveness count, and the microseconds since the command before it. -/
structure Head where
  link  : Link
  tag   : Byte
  live  : Byte
  after : Nat
  deriving DecidableEq, Repr

/-- The deadline straps as the reset finds them: true for a strap tied high (R183). -/
structure Straps where
  drive : Bool
  body  : Bool
  deriving DecidableEq, Repr

/-- What UNKNOWN_REQUEST_KIND stands for: a request kind above 36 (the kind is 37 + `excess`), or READ_STATUS with a
selector above 7 (the selector is 8 + `excess`), which the port answers alike (R180). Entry 11. -/
inductive UnknownRequest
  | kind (excess : Fin 219)
  | selector (excess : Fin 248)
  deriving DecidableEq, Repr

/-- The value of a WRITE_FIELD in the three widths of R178: the label's eight bytes, a curve point's speed and
rotation, or the two bytes of every other field. -/
inductive FieldValue
  | label (chars : Vector Byte 8)
  | point (speed rot : Half)
  | word (v : Half)
  deriving DecidableEq, Repr

/-- One 0.5 ms sample of the Output Stage (R162): the sensed current of each channel in mA (read for PROP channels
only) and one driver report bit per channel, which is overcurrent for SWITCH and DUTY and open load for PULSE. -/
structure Samples where
  current : Vector Half 18
  report  : BitVec 18
  deriving DecidableEq, Repr

/-- The commands, in the order of spec/opcode_table.json. -/
inductive Instr
  | powerOnReset (straps : Straps)
  | chipSelectAssert (after : Nat) (link : Link)
  | shortFrame (after : Nat) (link : Link)
  | crcFailure (after : Nat) (link : Link) (kind tag : Byte)
  | unknownRequestKind (h : Head) (what : UnknownRequest)
  | null (h : Head)
  | readStatusTravel (h : Head) (part : Byte)
  | readStatusCeilingSummary (h : Head) (part : Byte)
  | readStatusGovernor (h : Head) (part : Byte)
  | readStatusArms (h : Head) (part : Byte)
  | readStatusSpray (h : Head) (part : Byte)
  | readStatusTankAndPump (h : Head) (part : Byte)
  | readStatusLinks (h : Head) (part : Byte)
  | readStatusModeAndProgram (h : Head) (part : Byte)
  | readCeilingEntry (h : Head) (slot part : Byte)
  | readChannel (h : Head) (ch part : Byte)
  | readScan (h : Head) (item part : Byte)
  | readProgram (h : Head) (slot page part : Byte)
  | readSetting (h : Head) (group index item part : Byte)
  | writeSetting (h : Head) (group index item : Byte) (value : Half)
  | sweepStart (h : Head)
  | sweepEnd (h : Head)
  | serviceEnter (h : Head)
  | serviceLeave (h : Head)
  | openEdit (h : Head) (slot : Byte)
  | writeField (h : Head) (field place : Byte) (value : FieldValue)
  | commitEdit (h : Head)
  | abandonEdit (h : Head)
  | eraseProgram (h : Head) (slot : Byte)
  | selectProgram (h : Head) (slot : Byte)
  | driveDemand (h : Head) (dir : Byte) (magnitude : Half)
  | armLower (h : Head) (arm : Byte)
  | armRaise (h : Head) (arm : Byte)
  | armClear (h : Head) (arm : Byte)
  | broomClearJam (h : Head)
  | sprayEnable (h : Head) (bar on : Byte)
  | clearSprayFault (h : Head)
  | clearChannelFault (h : Head) (ch : Byte)
  | directDrive (h : Head) (ch : Byte) (level : Half)
  | directRelease (h : Head) (ch : Byte)
  | readAlarm (h : Head) (position part : Byte)
  | clearAlarm (h : Head) (code detail : Byte)
  | readEvents (h : Head) (part : Byte)
  | ackEvents (h : Head) (kinds : Half)
  | setEventMask (h : Head) (kinds : Half)
  | takeSnapshot (h : Head) (clear : Byte)
  | readSnapshot (h : Head) (page part : Byte)
  | resume (h : Head)
  | restart (h : Head)
  | deadlineExpiry (after : Nat) (link : Link)
  | restartWindowExpiry (after : Nat)
  | wheelEdge (after : Nat) (wheel : Wheel) (dir : Dir)
  | travelUpdateExpiry (after : Nat)
  | pulseTimeoutExpiry (after : Nat) (wheel : Wheel)
  | slipHoldExpiry (after : Nat)
  | cycleBoundary (after : Nat)
  | halfCycleMark (after : Nat)
  | claimIdleTimerExpiry (after : Nat)
  | drivePeriodExpiry (after : Nat)
  | settleExpiry (after : Nat)
  | stallTimerExpiry (after : Nat)
  | armPeriodExpiry (after : Nat)
  | lowerExpiry (after : Nat) (arm : Arm)
  | raiseExpiry (after : Nat) (arm : Arm)
  | yieldLiftExpiry (after : Nat) (arm : SideArm)
  | yieldSettleExpiry (after : Nat) (arm : SideArm)
  | jamHoldExpiry (after : Nat)
  | sprayPumpPeriodExpiry (after : Nat)
  | pulseEnd (after : Nat) (bar : Bar)
  | fastScanTrigger (after : Nat)
  | slowScanTrigger (after : Nat)
  | slowSettleEnd (after : Nat)
  | conversionEnd (after : Nat) (code : BitVec 12)
  | conversionTimeout (after : Nat)
  | currentSample (after : Nat) (samples : Samples)
  | openTimerExpiry (after : Nat) (ch : Channel)
  | ditherPartEnd (after : Nat) (ch : Channel)
  | sweepSecond (after : Nat)
  deriving DecidableEq, Repr

end Sys2Proof
end

