-- ==== Sys2Proof/Decode.lean ====
section
/-! DEFINITION. The decoder over the words of spec/opcode_table.json. No row of the table gives bits (every row's
"fields" is empty and none has a mask or a match), so no word spells a command. How the bytes of a request frame
spell a command (R174 to R179) is in Machine/Operands.lean. -/

namespace Sys2Proof

/-- The command that a word spells by the table's bits: none, for no row of the table gives bits. -/
def decodeTableWord (_nbits _w : Nat) : Option Instr := none

end Sys2Proof
end

