-- ==== Sys2Proof/Machine/State.lean ====
section
/-! DEFINITION. The state of the SW-18: every register, record, list, timer, mode and flag the manual gives its ten
blocks, as plain data, with the queue of waiting commands; the machine after power-on reset; the stop reasons.

Timers are held as the timebase value (or microsecond value) of their expiry, `none` when stopped. Quantities are
Nat or Int in the units of 00_scope.md; counters that wrap are bit vectors. -/

namespace Sys2Proof.Machine

/-! ### Clocks (R2, R30) and the next expiries of the periodic events -/

structure Clock where
  /-- R2. -/
  timebase : Time := 0
  /-- R30. -/
  us       : Micros := 0
  /-- The model's own: microseconds since the timebase last counted, 0 to 999 (entry 1). -/
  frac     : Nat := 0
  deriving DecidableEq, Repr

/-- The next expiry of each periodic event (R34, R64, R89, R131, R144, R145, R162). -/
structure Periods where
  travel : Time := 10
  drive  : Time := 10
  arm    : Time := 20
  pump   : Time := 100
  fast   : Time := 5
  slow   : Time := 100
  /-- In microseconds; the first sample is entry 12. -/
  sample : Micros := 500
  deriving DecidableEq, Repr

/-! ### Work modes and sweep programs (chapter 1) -/

/-- R4. -/
inductive Mode | transport | entering | sweep | leaving | service
  deriving DecidableEq, Repr

/-- The two ranges of the wheel motors (R63). -/
inductive Range | work | transport
  deriving DecidableEq, Repr

/-- One point place of a brush curve (R16). -/
structure Point where
  speed : Nat := 0
  rot   : Nat := 0
  deriving DecidableEq, Repr

/-- A brush curve: the point count and six point places (R16). -/
structure Curve where
  count  : Nat
  points : Vector Point 6
  deriving DecidableEq, Repr

/-- A program record, with the defaults of R15. -/
structure Program where
  label      : Vector Byte 8 := Vector.replicate 8 32
  workMax    : Nat := 2200
  accel      : Nat := 600
  decel      : Nat := 1200
  reverseCap : Nat := 500
  dryCap     : Nat := 1400
  period     : Nat := 250
  doseLeft   : Option Nat := none
  doseRight  : Option Nat := none
  doseMain   : Option Nat := none
  holdsSpeed : Bool := false
  economy    : Nat := 500
  side       : Curve := ⟨2, #v[⟨0, 300⟩, ⟨2000, 800⟩, ⟨0, 0⟩, ⟨0, 0⟩, ⟨0, 0⟩, ⟨0, 0⟩]⟩
  main       : Curve := ⟨2, #v[⟨0, 400⟩, ⟨2000, 900⟩, ⟨0, 0⟩, ⟨0, 0⟩, ⟨0, 0⟩, ⟨0, 0⟩]⟩
  forceLeft  : Nat := 500
  forceRight : Nat := 500
  lowerTime  : Nat := 1500
  raiseTime  : Nat := 1500
  dryFrac    : Nat := 600
  deriving DecidableEq, Repr

/-- The defaults of R15. -/
def Program.default : Program := {}

/-- A held staging record (R17). -/
structure Staging where
  holder : Link
  slot   : Fin 8
  record : Program
  idle   : Time
  deriving DecidableEq, Repr

/-- A pending swap (R27). -/
structure Swap where
  target : Fin 8
  record : Program
  deriving DecidableEq, Repr

/-- The Mode and Program Unit. -/
structure ModeUnit where
  mode      : Mode := .transport
  awaited   : Option Range := none
  requested : Bool := false
  reached   : Bool := false
  slots     : Vector (Option Program) 8 := Vector.replicate 8 none
  active    : Option (Fin 8) := none
  staging   : Option Staging := none
  swap      : Option Swap := none
  boundary  : Option Time := none
  halfMark  : Option Time := none
  deriving DecidableEq, Repr

/-! ### Travel measurement (chapter 2) -/

/-- One wheel's record (section 2.2, R36). -/
structure WheelRec where
  history      : List Nat := []
  lastEdge     : Option Micros := none
  lastEdgeTime : Option Time := none
  dir          : Dir := .forward
  edgeSpeed    : Option Nat := none
  speed        : Nat := 0
  movingSince  : Option Time := none
  accel        : Int := 0
  timeout      : Option Time := none
  deriving DecidableEq, Repr

/-- The sensor watch (R42). -/
structure Watch where
  wheel : Wheel
  since : Time
  deriving DecidableEq, Repr

/-- The Travel Measurement Unit. The slip flag is set while `slipHold` runs (R39). -/
structure Travel where
  left        : WheelRec := {}
  right       : WheelRec := {}
  slipHold    : Option Time := none
  watch       : Option Watch := none
  sensorFault : Option Wheel := none
  accumulator : Nat := 0
  tickCount   : Half := 0
  metreRem    : Nat := 0
  odometer    : BitVec 32 := 0
  ground      : Nat := 0
  dir         : Dir := .forward
  deriving DecidableEq, Repr

/-! ### The speed ceiling (chapter 3) -/

/-- The fourteen sources, in the order of their slots (R47). -/
inductive Source
  | mode | rangeShift | armTransition | armYield | reverseArms | sprayLimit | drySweep | slope | traction | oilHot
  | sensorFault | driveLoss | bodyLoss | driveFault
  deriving DecidableEq, Repr

/-- The slot of a source (R47). -/
def Source.slot : Source → Fin 14
  | .mode => 0 | .rangeShift => 1 | .armTransition => 2 | .armYield => 3 | .reverseArms => 4 | .sprayLimit => 5
  | .drySweep => 6 | .slope => 7 | .traction => 8 | .oilHot => 9 | .sensorFault => 10 | .driveLoss => 11
  | .bodyLoss => 12 | .driveFault => 13

/-- What an entry holds beside its fixed source, scope and class (R47). -/
structure CeilingEntry where
  active      : Bool := false
  cap         : Nat
  since       : Time := 0
  engagements : Nat := 0
  deriving DecidableEq, Repr

/-- The Ceiling Table. -/
structure CeilingTable where
  entries    : Vector CeilingEntry 14
  reportDir  : Dir := .forward
  lastChange : Time := 0
  deriving DecidableEq, Repr

/-- The table after power-on reset (R47). -/
def CeilingTable.initial : CeilingTable where
  entries := #v[{ active := true, cap := 6900 }, { cap := 1200 }, { cap := 1000 }, { cap := 800 }, { cap := 0 },
    { cap := 200 }, { cap := 0 }, { cap := 1800 }, { cap := 1000 }, { cap := 1500 }, { cap := 1400 },
    { active := true, cap := 0 }, { active := true, cap := 800 }, { cap := 0 }]

/-! ### The drive governor (chapter 4) -/

/-- A demand or held direction (R63). -/
inductive DriveDir | neutral | forward | reverse
  deriving DecidableEq, Repr

/-- The shift state (section 4.1). -/
inductive Shift | none | waiting | settling
  deriving DecidableEq, Repr

/-- The governor record (section 4.1, R63), with the values read at the last drive period expiry (R85). -/
structure Governor where
  demandDir   : DriveDir := .neutral
  demandMag   : Nat := 0
  held        : DriveDir := .neutral
  vRef        : Nat := 0
  trim        : Int := 0
  coil        : Nat := 0
  target      : Nat := 0
  setRange    : Range := .transport
  requested   : Option Range := none
  shift       : Shift := .none
  settle      : Option Time := none
  stallHold   : Bool := false
  stallTimer  : Option Time := none
  cutSeen     : Bool := false
  ceilingRead : Nat := 0
  urgentRead  : Bool := false
  /-- The direction loaded at the last detection, which gives DRIVE_STALL its detail (R78; entry 22). -/
  stallDir    : Dir := .forward
  /-- DRIVE_STALL was raised for the detection that stands (R80; entry 22). -/
  stallRaised : Bool := false
  deriving DecidableEq, Repr

/-! ### Brush arms and main broom (chapter 5) -/

/-- The states of an arm; YIELDING is a side arm's, JAMMED the main broom's (R87, R113). -/
inductive ArmState | stowed | lowering | working | yielding | jammed | raising | fault
  deriving DecidableEq, Repr

/-- The phases of a yield (R103). -/
inductive Phase | lift | settle
  deriving DecidableEq, Repr

/-- One arm's record (R87); `strikes` is the strike list, or the jam list of the main broom. -/
structure ArmRec where
  state   : ArmState := .stowed
  phase   : Option Phase := none
  pending : Bool := false
  timer   : Option Time := none
  strikes : List Time := []
  rot     : Nat := 0
  force   : Nat := 0
  deriving DecidableEq, Repr

/-- The Arm Controller. -/
structure Arms where
  left       : ArmRec := {}
  right      : ArmRec := {}
  main       : ArmRec := {}
  holdDone   : Bool := false
  lock       : Bool := false
  cutSeen    : Bool := false
  /-- Dry rotation applied at the last arm period expiry (R113). -/
  dryApplied : Bool := false
  deriving DecidableEq, Repr

/-! ### Water spraying (chapter 6) -/

/-- One bar's record (R115). -/
structure BarRec where
  enable       : Bool := false
  valveFault   : Bool := false
  active       : Bool := false
  owed         : Nat := 0
  pulseEnd     : Option Time := none
  lastPulse    : Nat := 0
  saturated    : Bool := false
  shortfallRem : Nat := 0
  deliveredRem : Nat := 0
  deriving DecidableEq, Repr

/-- The tank states (R135). -/
inductive Tank | normal | low | empty
  deriving DecidableEq, Repr

/-- The Spray Controller. -/
structure Spray where
  left     : BarRec := {}
  right    : BarRec := {}
  main     : BarRec := {}
  duty     : Nat := 0
  dryCount : Nat := 0
  latch    : Bool := false
  tank     : Tank := .normal
  level    : Option Nat := none
  /-- The last line pressure read at a pump expiry (R139). -/
  pressure : Option Nat := none
  deriving DecidableEq, Repr

/-! ### Sensor scanning and comparators (chapter 7) -/

/-- One channel's result record (R142). -/
structure Result where
  value : Int := 0
  raw   : Nat := 0
  stale : Bool := true
  time  : Time := 0
  deriving DecidableEq, Repr

/-- The three references, in the order of their rotation and of their details (R145, R152). -/
inductive Reference | low | mid | high
  deriving DecidableEq, Repr

/-- The self-check history of one reference (R153). -/
structure RefRec where
  fail : Bool := false
  raw  : Nat := 0
  time : Time := 0
  deriving DecidableEq, Repr

/-- The items of a slow pass, in their order (R145). -/
inductive SlowItem | a6 | a7 | a8 | reference
  deriving DecidableEq, Repr

/-- Where a slow item stands: settling until a microsecond value, waiting for the converter, or converting. -/
inductive SlowPhase
  | settling (till : Micros)
  | waiting
  | converting
  deriving DecidableEq, Repr

/-- A slow pass in progress (R145). -/
structure SlowPass where
  item  : SlowItem
  phase : SlowPhase
  deriving DecidableEq, Repr

/-- An addition sequence in progress, with the settings it began with (R143). -/
structure Sequence where
  count  : Nat
  offset : Int
  span   : Nat
  sum    : Nat := 0
  done   : Nat := 0
  deriving DecidableEq, Repr

/-- One comparator's state and filter counter (R148). -/
structure Comparator where
  detected : Bool := false
  counter  : Nat := 0
  deriving DecidableEq, Repr

/-- The level at which SLOPE stands (R53). -/
inductive SlopeLevel | zero | one | two
  deriving DecidableEq, Repr

/-- The Scan Unit. -/
structure Scan where
  results   : Vector Result 9 := Vector.replicate 9 {}
  /-- The channel that a running fast group converts, A0 to A5 (R144). -/
  fast      : Option (Fin 6) := none
  slow      : Option SlowPass := none
  seq       : Option Sequence := none
  /-- The start of the conversion in progress (R140). -/
  convStart : Option Micros := none
  nextRef   : Reference := .low
  low       : RefRec := {}
  mid       : RefRec := {}
  high      : RefRec := {}
  passRun   : Nat := 0
  fault     : Bool := false
  /-- The details 0 to 3 already raised in the fault that stands (R154). -/
  causes    : Vector Bool 4 := Vector.replicate 4 false
  comps     : Vector Comparator 4 := Vector.replicate 4 {}
  /-- The direction last reported for the input of comparator 3 (R151). -/
  input3    : DriveDir := .neutral
  slope     : SlopeLevel := .zero
  deriving DecidableEq, Repr

/-! ### Valve output channels (chapter 8) -/

/-- The four kinds of channel (section 8.1). -/
inductive ChannelKind | prop | switch | duty | pulse
  deriving DecidableEq, Repr

/-- The fault kinds of a channel (R159). -/
inductive FaultKind | none | openLoad | shortLoad
  deriving DecidableEq, Repr

/-- Where a dither carrier stands (R163). -/
inductive CarrierPart | rest | high | low
  deriving DecidableEq, Repr

/-- A channel's dither carrier: part and position, the settings loaded, and the pending ones (R163, R164). -/
structure Carrier where
  part     : CarrierPart := .rest
  pos      : Nat := 0
  high     : Nat := 10
  low      : Nat := 10
  amp      : Nat := 80
  nextHigh : Option Nat := none
  nextLow  : Option Nat := none
  nextAmp  : Option Nat := none
  deriving DecidableEq, Repr

/-- One channel's record (R159). On and off are held as 1 and 0. The cut latch flag is the latch that covers the
channel, held once in `Output`; the state and the commanded output follow from the record. -/
structure ChannelRec where
  setpoint  : Nat := 0
  target    : Nat := 0
  carrier   : Carrier := {}
  measured  : Half := 0
  fault     : FaultKind := .none
  holder    : Option Link := none
  level     : Nat := 0
  /-- The open timer: the microsecond value at which it started (R165). -/
  openSince : Option Micros := none
  deriving DecidableEq, Repr

/-- The Output Stage: the eighteen records and the two cut latches (R169). -/
structure Output where
  channels : Vector ChannelRec 18
  driveCut : Bool := false
  broomCut : Bool := false
  deriving DecidableEq, Repr

/-- A record of channel 0 or 1 with the dither defaults of R161. -/
def ChannelRec.pump : ChannelRec := { carrier := { high := 8, low := 8, amp := 120 } }

/-- The Output Stage after power-on reset (R159, R161). -/
def Output.initial : Output where
  channels := #v[.pump, .pump, {}, {}, {}, {}, {}, {}, {}, {}, {}, {}, {}, {}, {}, {}, {}, {}]

/-! ### Master links and supervision (chapter 9) -/

/-- The link states (section 9.4). -/
inductive LinkState | waiting | live | lost | returned
  deriving DecidableEq, Repr

/-- The answer codes of R3. -/
inductive Code
  | done | accepted | busy | held | denied | range | empty | state | invalid | active | notActive | unknown | badFrame
  deriving DecidableEq, Repr

/-- The number of an answer code (R3). -/
def Code.byte : Code → Byte
  | .done => 0 | .accepted => 1 | .busy => 2 | .held => 3 | .denied => 4 | .range => 5 | .empty => 6 | .state => 7
  | .invalid => 8 | .active => 9 | .notActive => 10 | .unknown => 11 | .badFrame => 12

/-- The answer buffer of a link: kind, tag, code and eleven bytes of data (R177). -/
structure Answer where
  kind : Byte := 0
  tag  : Byte := 0
  code : Code := .done
  data : Vector Byte 11 := Vector.replicate 11 0
  deriving DecidableEq, Repr

/-- One link: its supervision record (section 9.4), its answer buffer, and its port (R175). -/
structure LinkRec where
  state     : LinkState := .waiting
  lastCount : Option Byte := none
  /-- 100 or 400 ms, from the strap (R183). -/
  deadline  : Nat
  timer     : Option Time := none
  accepted  : Half := 0
  short     : Half := 0
  crcFail   : Half := 0
  answer    : Answer := {}
  /-- Chip select is asserted (R175). -/
  selected  : Bool := false
  /-- The frame of this exchange is to be discarded at its release (R188). -/
  discard   : Bool := false
  /-- The answer frame formed at the last assertion of chip select (R175). -/
  outFrame  : Vector Byte 16 := Vector.replicate 16 0
  deriving DecidableEq, Repr

/-- An open restart window (R187). -/
structure Window where
  holder : Link
  tag    : Byte
  expiry : Time
  deriving DecidableEq, Repr

/-- The Link Ports. -/
structure Links where
  drive  : LinkRec
  body   : LinkRec
  window : Option Window := none
  deriving DecidableEq, Repr

/-! ### Alarms, events and tallies (chapter 10) -/

/-- The alarm codes (section 10.2). -/
inductive AlarmCode
  | driveLinkLost | bodyLinkLost | channelOpen | channelShort | driveStall | strikeRepeat | armFault | jamRepeat
  | tankEmpty | pumpDry | converterFault | oilHot | wheelSensor
  deriving DecidableEq, Repr

/-- One entry of the alarm list (R190). -/
structure Alarm where
  code    : AlarmCode
  detail  : Nat
  first   : Time
  last    : Time
  count   : Nat
  present : Bool
  deriving DecidableEq, Repr

/-- One link's event set (R195): pending flags and mask, bit k for kind k, and the sixteen counts. -/
structure EventSet where
  pending : BitVec 16 := 0
  counts  : Vector Nat 16 := Vector.replicate 16 0
  /-- ALARM_RAISED, MODE_CHANGED and PEER_LOST after a reset. -/
  mask    : BitVec 16 := 0b0000100000000101
  deriving DecidableEq, Repr

/-- One link's snapshot record (R198). -/
structure Snapshot where
  tallies : Vector Nat 19 := Vector.replicate 19 0
  taken   : Time := 0
  clear   : Nat := 0
  deriving DecidableEq, Repr

/-- The Alarm and Event Unit. -/
structure Notices where
  alarms : List Alarm := []
  drive  : EventSet := {}
  body   : EventSet := {}
  deriving DecidableEq, Repr

/-- The Tally Bank: the nineteen tallies (R197), the swept tick counts (R112), the sweep time remainder in ms (R197)
and the snapshot records (R198). -/
structure TallyBank where
  tallies    : Vector Nat 19 := Vector.replicate 19 0
  sweptLeft  : Nat := 0
  sweptRight : Nat := 0
  sweptMain  : Nat := 0
  sweepRem   : Nat := 0
  snapDrive  : Snapshot := {}
  snapBody   : Snapshot := {}
  deriving DecidableEq, Repr

/-! ### Settings (R31, R49, R65, R92, R116, R143, R148, R161) -/

/-- R31. -/
structure TravelSettings where
  pitchLeft    : Nat := 125
  pitchRight   : Nat := 125
  pulseTimeout : Nat := 800
  spinLimit    : Nat := 4000
  slipHold     : Nat := 2000
  deriving DecidableEq, Repr

/-- R49. -/
structure CapSettings where
  transportMax : Nat := 6900
  shiftSpeed   : Nat := 1200
  armMove      : Nat := 1000
  yieldCap     : Nat := 800
  slope1       : Nat := 80
  slopeCap1    : Nat := 1800
  slope2       : Nat := 150
  slopeCap2    : Nat := 900
  traction     : Nat := 1000
  oilLimit     : Nat := 950
  oilCap       : Nat := 1500
  sensorCap    : Nat := 1400
  crawl        : Nat := 800
  deriving DecidableEq, Repr

/-- R65. -/
structure GovernorSettings where
  iStart         : Nat := 350
  iFull          : Nat := 1300
  vFullWork      : Nat := 2800
  vFullTransport : Nat := 7200
  kDiv           : Nat := 40
  trimLimit      : Nat := 200
  stopDecel      : Nat := 3000
  accel          : Nat := 800
  decel          : Nat := 1200
  settle         : Nat := 300
  deriving DecidableEq, Repr

/-- R92. -/
structure ArmSettings where
  yieldLift    : Nat := 300
  yieldSettle  : Nat := 500
  strikeWindow : Nat := 5000
  strikeLimit  : Nat := 3
  jamHold      : Nat := 2000
  jamWindow    : Nat := 30
  deriving DecidableEq, Repr

/-- R116. -/
structure SpraySettings where
  flowLeft   : Nat := 170
  flowRight  : Nat := 170
  flowMain   : Nat := 250
  mMin       : Nat := 20
  setpoint   : Nat := 30
  band       : Nat := 3
  dutyStep   : Nat := 20
  startDuty  : Nat := 400
  dry        : Nat := 10
  tankLow    : Nat := 150
  tankEmpty  : Nat := 30
  hysteresis : Nat := 30
  deriving DecidableEq, Repr

/-- One analog channel's settings (R143). -/
structure ScanSettings where
  count  : Nat
  offset : Int := 0
  span   : Nat
  deriving DecidableEq, Repr

/-- The modes of a comparator (R149). -/
inductive CompMode | above | below | outside
  deriving DecidableEq, Repr

/-- One comparator's settings (R148). -/
structure CompSettings where
  mode   : CompMode := .above
  low    : Nat := 0
  high   : Nat
  filter : Nat
  cut    : Bool := false
  deriving DecidableEq, Repr

/-- The current range of a PROP channel (R161). -/
structure RangeSettings where
  low  : Nat := 0
  high : Nat := 0
  deriving DecidableEq, Repr

/-- Every setting but the dither values, which a channel's carrier holds, loaded or pending (R164). -/
structure Settings where
  travel   : TravelSettings := {}
  caps     : CapSettings := {}
  governor : GovernorSettings := {}
  arms     : ArmSettings := {}
  spray    : SpraySettings := {}
  scan     : Vector ScanSettings 9 := #v[⟨4, 0, 4500⟩, ⟨4, 0, 4500⟩, ⟨4, 0, 2500⟩, ⟨4, 0, 2500⟩, ⟨4, 0, 2500⟩,
    ⟨8, 0, 100⟩, ⟨8, 0, 1000⟩, ⟨8, -400, 1900⟩, ⟨8, -450, 900⟩]
  comps    : Vector CompSettings 4 := #v[{ high := 1400, filter := 4 }, { high := 1400, filter := 4 },
    { high := 2200, filter := 6 }, { high := 3800, filter := 8 }]
  /-- I_low and I_high of channels 5, 6, 9, 10 and 13; the other channels have none and read 0 here. -/
  ranges   : Vector RangeSettings 18 := #v[{}, {}, {}, {}, {}, ⟨300, 1500⟩, ⟨400, 1600⟩, {}, {}, ⟨300, 1500⟩,
    ⟨400, 1600⟩, {}, {}, ⟨400, 1800⟩, {}, {}, {}, {}]
  deriving DecidableEq, Repr

/-! ### The machine -/

/-- The state of the block. -/
structure State where
  clock     : Clock
  periods   : Periods
  unit      : ModeUnit
  travel    : Travel
  ceiling   : CeilingTable
  gov       : Governor
  arms      : Arms
  spray     : Spray
  scan      : Scan
  output    : Output
  links     : Links
  notices   : Notices
  bank      : TallyBank
  settings  : Settings
  /-- The model's own: how many free values of Config have been drawn (entry 6). -/
  freeCount : Nat
  /-- The model's own: the commands that are waiting, the first at the front. -/
  pending   : List Instr
  deriving DecidableEq, Repr

/-- The machine after power-on reset, with the two deadlines its straps give (R183), nothing waiting. -/
def State.initial (driveDeadline bodyDeadline : Nat) : State where
  clock     := {}
  periods   := {}
  unit      := {}
  travel    := {}
  ceiling   := .initial
  gov       := {}
  arms      := {}
  spray     := {}
  scan      := {}
  output    := .initial
  links     := { drive := { deadline := driveDeadline }, body := { deadline := bodyDeadline } }
  notices   := {}
  bank      := {}
  settings  := {}
  freeCount := 0
  pending   := []

/-- The machine right after reset. DESIGN CHOICE: both deadline straps tied low, 100 ms (entry 4); every measured
current 0 (entry 5). -/
def State.reset : State := State.initial 100 100

/-! ### How a step can stop -/

/-- No command of the SW-18 stops the machine: every fault the manual names (a channel's, a converter's, a wheel
sensor's, a lost link) is a state in which it goes on. `unreachable` is raised by no meaning, and is safe. -/
inductive Fault
  | unreachable
  deriving DecidableEq, Repr

/-- `notModelled` is raised by an arm of `exec` for a command that has no meaning yet; safe. No arm does. -/
inductive Refusal
  | notModelled (mnemonic : String)
  deriving DecidableEq, Repr

end Sys2Proof.Machine
end

