-- ==== Sys2Proof/Machine/Ops.lean ====
section
/-! DEFINITION. The operations every block shares: one modifier per field of State, time and timers, event postings,
alarms, and tallies. -/

/-! ### Numbers of arms, bars, channels and links -/

namespace Sys2Proof

/-- The arm with a number (R86). -/
def Arm.ofNumber : Nat → Option Arm
  | 0 => some .left | 1 => some .right | 2 => some .main | _ => none

/-- The number of an arm (R86). -/
def Arm.number : Arm → Nat
  | .left => 0 | .right => 1 | .main => 2

/-- The bar with a number (R114). -/
def Bar.ofNumber : Nat → Option Bar
  | 0 => some .left | 1 => some .right | 2 => some .main | _ => none

/-- A side arm as an arm. -/
def SideArm.arm : SideArm → Arm
  | .left => .left | .right => .right

/-- The output channel with a number (R168, R171 to R173). -/
def channelOf (n : Nat) : Option Channel := if h : n < 18 then some ⟨n, h⟩ else none

/-- The program slot with a number (R14). -/
def slotOf (n : Nat) : Option (Fin 8) := if h : n < 8 then some ⟨n, h⟩ else none

/-- The other link. -/
def Link.other : Link → Link
  | .drive => .body | .body => .drive

/-- The three bars, in order (R114). -/
def Bar.all : List Bar := [.left, .right, .main]

/-- A bar's valve channel (R114). -/
def Bar.valve : Bar → Channel
  | .left => 15 | .right => 16 | .main => 17

/-- A bar's arm (R114). -/
def Bar.arm : Bar → Arm
  | .left => .left | .right => .right | .main => .main

/-- The three arms, in order (R86). -/
def Arm.all : List Arm := [.left, .right, .main]

/-- The lift, lower and motor channels of an arm, and the down-force channel of a side arm (R86). -/
def Arm.lift : Arm → Channel
  | .left => 3 | .right => 7 | .main => 11
def Arm.lower : Arm → Channel
  | .left => 4 | .right => 8 | .main => 12
def Arm.motor : Arm → Channel
  | .left => 6 | .right => 10 | .main => 13
def Arm.force : Arm → Option Channel
  | .left => some 5 | .right => some 9 | .main => none

/-- The arm of a channel from 3 to 13 (R86). -/
def armOfChannel (ch : Channel) : Option Arm :=
  if 3 ≤ ch.val ∧ ch.val ≤ 6 then some .left
  else if 7 ≤ ch.val ∧ ch.val ≤ 10 then some .right
  else if 11 ≤ ch.val ∧ ch.val ≤ 13 then some .main
  else none

/-- The bar of a valve channel from 15 to 17 (R114). -/
def barOfChannel (ch : Channel) : Option Bar :=
  if ch.val = 15 then some .left else if ch.val = 16 then some .right else if ch.val = 17 then some .main else none

/-- The comparator of an arm (R86). -/
def Arm.comparator : Arm → Fin 4
  | .left => 0 | .right => 1 | .main => 2

/-- The other wheel. -/
def Wheel.other : Wheel → Wheel
  | .left => .right | .right => .left

end Sys2Proof

namespace Sys2Proof.Machine

/-! ### Modifiers of State, one per field -/

def State.modClock (f : Clock → Clock) (s : State) : State := { s with clock := f s.clock }
def State.modPeriods (f : Periods → Periods) (s : State) : State := { s with periods := f s.periods }
def State.modUnit (f : ModeUnit → ModeUnit) (s : State) : State := { s with unit := f s.unit }
def State.modTravel (f : Travel → Travel) (s : State) : State := { s with travel := f s.travel }
def State.modCeiling (f : CeilingTable → CeilingTable) (s : State) : State := { s with ceiling := f s.ceiling }
def State.modGov (f : Governor → Governor) (s : State) : State := { s with gov := f s.gov }
def State.modArms (f : Arms → Arms) (s : State) : State := { s with arms := f s.arms }
def State.modSpray (f : Spray → Spray) (s : State) : State := { s with spray := f s.spray }
def State.modScan (f : Scan → Scan) (s : State) : State := { s with scan := f s.scan }
def State.modOutput (f : Output → Output) (s : State) : State := { s with output := f s.output }
def State.modLinks (f : Links → Links) (s : State) : State := { s with links := f s.links }
def State.modNotices (f : Notices → Notices) (s : State) : State := { s with notices := f s.notices }
def State.modBank (f : TallyBank → TallyBank) (s : State) : State := { s with bank := f s.bank }
def State.modSettings (f : Settings → Settings) (s : State) : State := { s with settings := f s.settings }
def State.modFreeCount (f : Nat → Nat) (s : State) : State := { s with freeCount := f s.freeCount }
def State.modPending (f : List Instr → List Instr) (s : State) : State := { s with pending := f s.pending }

/-! ### Time (R2, R30) -/

/-- The present timebase value. -/
def State.now (s : State) : Time := s.clock.timebase

/-- The present value of the microsecond counter. -/
def State.nowUs (s : State) : Micros := s.clock.us

/-- The clocks after some microseconds: the timebase counts whole milliseconds, both counters wrap (R2, R30). -/
def Clock.elapse (us : Nat) (c : Clock) : Clock where
  timebase := c.timebase + BitVec.ofNat 32 ((c.frac + us) / 1000)
  us       := c.us + BitVec.ofNat 32 us
  frac     := (c.frac + us) % 1000

/-- Time passes: the clocks count, and in SWEEP the sweep time remainder counts up with the timebase (R197). -/
def State.elapse (us : Nat) (s : State) : State :=
  let ms := (s.clock.frac + us) / 1000
  (s.modClock (Clock.elapse us)).modBank fun b =>
    if s.unit.mode = .sweep then { b with sweepRem := b.sweepRem + ms } else b

/-- The duration from one counter value to a later one, modulo the counter width (R2). -/
def since (now start : BitVec 32) : Nat := (now - start).toNat

/-- A counter has come to an expiry value: it stands at it or less than half its range past it (entry 23). -/
def reached (now expiry : BitVec 32) : Bool := since now expiry < 2147483648

/-- A timer is running and its expiry has come. A stopped timer is never due (entry 3). -/
def due (now : BitVec 32) : Option (BitVec 32) → Bool
  | some e => reached now e
  | none => false

/-- The time remaining to a timer's expiry, 0 when it is stopped. -/
def remaining (now : BitVec 32) : Option (BitVec 32) → Nat
  | some e => if reached now e then 0 else since e now
  | none => 0

/-- A counter value some time after another. -/
def later (start : BitVec 32) (time : Nat) : BitVec 32 := start + BitVec.ofNat 32 time

/-! ### Clamping (R1) -/

/-- The nearer end of the range lo to hi when the value lies outside it (R1). -/
def clamp (lo hi v : Int) : Int := max lo (min hi v)

/-! ### Events (R195) -/

/-- The event kinds (R195). -/
inductive EventKind
  | alarmRaised | alarmGone | modeChanged | ceilingBinding | armState | strike | spraySaturated | tankState
  | programSwapped | claimLapsed | restartLapsed | peerLost | slip | talliesCleared | serviceLeft | snapshotTaken
  deriving DecidableEq, Repr

/-- The number of an event kind (R195). -/
def EventKind.index : EventKind → Fin 16
  | .alarmRaised => 0 | .alarmGone => 1 | .modeChanged => 2 | .ceilingBinding => 3 | .armState => 4 | .strike => 5
  | .spraySaturated => 6 | .tankState => 7 | .programSwapped => 8 | .claimLapsed => 9 | .restartLapsed => 10
  | .peerLost => 11 | .slip => 12 | .talliesCleared => 13 | .serviceLeft => 14 | .snapshotTaken => 15

/-- A posting sets the pending flag and increments the count, which stops at 15 (R195). -/
def EventSet.post (k : EventKind) (e : EventSet) : EventSet :=
  { e with
    pending := e.pending ||| (1#16 <<< k.index.val)
    counts := e.counts.set k.index (min 15 (e.counts[k.index] + 1)) }

/-- The event set of a link. -/
def Notices.events (n : Notices) : Link → EventSet
  | .drive => n.drive
  | .body => n.body

/-- Changes the event set of a link. -/
def Notices.modEvents (l : Link) (f : EventSet → EventSet) (n : Notices) : Notices :=
  match l with
  | .drive => { n with drive := f n.drive }
  | .body => { n with body := f n.body }

/-- A posting to one link (R195). -/
def State.post (k : EventKind) (l : Link) (s : State) : State :=
  s.modNotices (Notices.modEvents l (EventSet.post k))

/-- A posting to both links (R195). -/
def State.postBoth (k : EventKind) (s : State) : State := (s.post k .drive).post k .body

/-! ### Tallies (R197) -/

/-- The tallies (R197). -/
inductive Tally
  | swept (a : Arm) | water (b : Bar) | shortfall | strikes (a : SideArm) | jams | urgentStops | slips
  | badFrames (l : Link) | linkLosses (l : Link) | sweepTime | overruns | overflows
  deriving DecidableEq, Repr

/-- The number of a tally (R197). -/
def Tally.index : Tally → Fin 19
  | .swept .left => 0 | .swept .right => 1 | .swept .main => 2
  | .water .left => 3 | .water .right => 4 | .water .main => 5
  | .shortfall => 6 | .strikes .left => 7 | .strikes .right => 8 | .jams => 9 | .urgentStops => 10 | .slips => 11
  | .badFrames .drive => 12 | .badFrames .body => 13 | .linkLosses .drive => 14 | .linkLosses .body => 15
  | .sweepTime => 16 | .overruns => 17 | .overflows => 18

/-- The largest value of a tally's width, at which it stops (R197). -/
def Tally.limit : Tally → Nat
  | .swept _ | .water _ | .shortfall | .sweepTime => 16777215
  | .linkLosses _ => 255
  | .strikes _ | .jams | .urgentStops | .slips | .badFrames _ | .overruns | .overflows => 65535

/-- A number of increments of one tally, which stops at its largest value (R197). -/
def State.bumpBy (t : Tally) (n : Nat) (s : State) : State :=
  s.modBank fun b => { b with tallies := b.tallies.set t.index (min t.limit (b.tallies[t.index] + n)) }

/-- One increment of a tally. -/
def State.bump (t : Tally) (s : State) : State := s.bumpBy t 1

/-! ### Alarms (R190 to R192) -/

/-- The number of an alarm code (section 10.2). -/
def AlarmCode.number : AlarmCode → Nat
  | .driveLinkLost => 1 | .bodyLinkLost => 2 | .channelOpen => 3 | .channelShort => 4 | .driveStall => 5
  | .strikeRepeat => 6 | .armFault => 7 | .jamRepeat => 8 | .tankEmpty => 9 | .pumpDry => 10 | .converterFault => 11
  | .oilHot => 12 | .wheelSensor => 13

/-- The alarm code with a number, none outside 1 to 13 (R193). -/
def AlarmCode.ofNumber : Nat → Option AlarmCode
  | 1 => some .driveLinkLost | 2 => some .bodyLinkLost | 3 => some .channelOpen | 4 => some .channelShort
  | 5 => some .driveStall | 6 => some .strikeRepeat | 7 => some .armFault | 8 => some .jamRepeat
  | 9 => some .tankEmpty | 10 => some .pumpDry | 11 => some .converterFault | 12 => some .oilHot
  | 13 => some .wheelSensor | _ => none

/-- An entry has the key of a code and a detail (R190). -/
def Alarm.hasKey (code : AlarmCode) (detail : Nat) (a : Alarm) : Bool := a.code == code && a.detail == detail

/-- The entry after a further raise of its key (R191). -/
def Alarm.again (now : Time) (a : Alarm) : Alarm :=
  { a with last := now, count := min 255 (a.count + 1), present := true }

/-- A new entry (R191). -/
def Alarm.new (now : Time) (code : AlarmCode) (detail : Nat) : Alarm :=
  { code := code, detail := detail, first := now, last := now, count := 1, present := true }

/-- The alarm list after a raise, by the three cases of R191; none when the alarm is not stored. -/
def raiseIn (now : Time) (code : AlarmCode) (detail : Nat) (list : List Alarm) : Option (List Alarm) :=
  if list.any (Alarm.hasKey code detail) then
    some (list.map fun a => if a.hasKey code detail then a.again now else a)
  else if list.length < 16 then
    some (list ++ [Alarm.new now code detail])
  else if list.any (fun a => !a.present) then
    some (list.eraseP (fun a => !a.present) ++ [Alarm.new now code detail])
  else
    none

/-- An owner raises an alarm (R191): ALARM_RAISED is posted to both links whether it was stored or not, and an alarm
that finds the list full of present conditions counts one overflow. -/
def State.raiseAlarm (code : AlarmCode) (detail : Nat) (s : State) : State :=
  match raiseIn s.now code detail s.notices.alarms with
  | some list => (s.modNotices fun n => { n with alarms := list }).postBoth .alarmRaised
  | none => (s.bump .overflows).postBoth .alarmRaised

/-- The alarm list after a key's condition goes absent (R192). -/
def goneIn (code : AlarmCode) (detail : Nat) (list : List Alarm) : List Alarm :=
  list.map fun a => if a.hasKey code detail then { a with present := false } else a

/-- An owner makes an alarm's condition absent (R192): ALARM_GONE is posted when an entry with that key stood with
its condition present, and nothing happens otherwise. -/
def State.alarmGone (code : AlarmCode) (detail : Nat) (s : State) : State :=
  if s.notices.alarms.any (fun a => a.hasKey code detail && a.present) then
    (s.modNotices fun n => { n with alarms := goneIn code detail n.alarms }).postBoth .alarmGone
  else s

end Sys2Proof.Machine
end

