-- ==== Sys2Proof/WellFormed.lean ====
section
/-! DEFINITION. Which commands are well formed: those whose operands have the shape their rule gives. Everything
else about an operand (a slot above 7, a value out of range) is judged by the command's own rule and answered. -/

namespace Sys2Proof

/-- The value of a WRITE_FIELD has the width of its field (R178): the label for field 1, a curve point for fields 14
and 16, two bytes for every other field number. -/
def FieldValue.fits (field : Byte) : FieldValue → Bool
  | .label _ => field.toNat == 1
  | .point _ _ => field.toNat == 14 || field.toNat == 16
  | .word _ => !(field.toNat == 1 || field.toNat == 14 || field.toNat == 16)

/-- The PROP channels (section 8.1), the only ones with a dither carrier. -/
def isPropChannel (ch : Channel) : Bool :=
  ch.val == 0 || ch.val == 1 || ch.val == 5 || ch.val == 6 || ch.val == 9 || ch.val == 10 || ch.val == 13

/-- The PULSE channels (section 8.1). -/
def isPulseChannel (ch : Channel) : Bool := 15 ≤ ch.val

/-- A part number of a read request is 0 to 7 (R178). -/
def partOk (part : Byte) : Bool := part.toNat < 8

/-- The shape conditions of each command's operands. -/
def Instr.wellFormed : Instr → Bool
  | .writeField _ field _ value => value.fits field
  | .openTimerExpiry _ ch => isPropChannel ch || isPulseChannel ch
  | .ditherPartEnd _ ch => isPropChannel ch
  | .readStatusTravel _ p => partOk p
  | .readStatusCeilingSummary _ p => partOk p
  | .readStatusGovernor _ p => partOk p
  | .readStatusArms _ p => partOk p
  | .readStatusSpray _ p => partOk p
  | .readStatusTankAndPump _ p => partOk p
  | .readStatusLinks _ p => partOk p
  | .readStatusModeAndProgram _ p => partOk p
  | .readCeilingEntry _ _ p => partOk p
  | .readChannel _ _ p => partOk p
  | .readScan _ _ p => partOk p
  | .readProgram _ _ _ p => partOk p
  | .readSetting _ _ _ _ p => partOk p
  | .readAlarm _ _ p => partOk p
  | .readEvents _ p => partOk p
  | .readSnapshot _ _ p => partOk p
  | .powerOnReset _ | .chipSelectAssert _ _ | .shortFrame _ _ | .crcFailure _ _ _ _ | .unknownRequestKind _ _
  | .null _ | .writeSetting _ _ _ _ _ | .sweepStart _ | .sweepEnd _ | .serviceEnter _ | .serviceLeave _
  | .openEdit _ _ | .commitEdit _ | .abandonEdit _ | .eraseProgram _ _ | .selectProgram _ _ | .driveDemand _ _ _
  | .armLower _ _ | .armRaise _ _ | .armClear _ _ | .broomClearJam _ | .sprayEnable _ _ _ | .clearSprayFault _
  | .clearChannelFault _ _ | .directDrive _ _ _ | .directRelease _ _ | .clearAlarm _ _ _ | .ackEvents _ _
  | .setEventMask _ _ | .takeSnapshot _ _ | .resume _ | .restart _ | .deadlineExpiry _ _ | .restartWindowExpiry _
  | .wheelEdge _ _ _ | .travelUpdateExpiry _ | .pulseTimeoutExpiry _ _ | .slipHoldExpiry _ | .cycleBoundary _
  | .halfCycleMark _ | .claimIdleTimerExpiry _ | .drivePeriodExpiry _ | .settleExpiry _ | .stallTimerExpiry _
  | .armPeriodExpiry _ | .lowerExpiry _ _ | .raiseExpiry _ _ | .yieldLiftExpiry _ _ | .yieldSettleExpiry _ _
  | .jamHoldExpiry _ | .sprayPumpPeriodExpiry _ | .pulseEnd _ _ | .fastScanTrigger _ | .slowScanTrigger _
  | .slowSettleEnd _ | .conversionEnd _ _ | .conversionTimeout _ | .currentSample _ _ | .sweepSecond _ => true

end Sys2Proof
end

