-- ==== Sys2Proof/Machine/Output.lean ====
section
/-! DEFINITION. The Output Stage (chapter 8): the state of a channel, its target and commanded output, dither, the
owners' posts, the cut latches and the end of DIRECT. -/

namespace Sys2Proof.Machine

/-- The kind of a channel, fixed by its number (section 8.1). -/
def channelKind (ch : Channel) : ChannelKind :=
  if isPropChannel ch then .prop
  else if isPulseChannel ch then .pulse
  else if ch.val == 14 then .duty
  else .switch

/-- The PROP channels with a current range: all but the two pump coils (R160, R161). -/
def isRanged (ch : Channel) : Bool := isPropChannel ch && 2 ≤ ch.val

/-- The cut latch flag of a channel: the drive cut covers 0 and 1, the broom cut covers 13 (section 8.5). -/
def Output.cutFlag (o : Output) (ch : Channel) : Bool :=
  (ch.val < 2 && o.driveCut) || (ch.val == 13 && o.broomCut)

/-- The states of a channel, in the order R173 lists them. -/
inductive ChannelState | off | driven | cut | direct | fault
  deriving DecidableEq, Repr

/-- The state that follows from a record, by the first row of R159 that applies. -/
def ChannelRec.stateWith (cut : Bool) (c : ChannelRec) : ChannelState :=
  if c.fault ≠ .none then .fault
  else if cut then .cut
  else if c.holder.isSome then .direct
  else if 0 < c.setpoint then .driven
  else .off

/-- The state of a channel (R159). -/
def Output.stateOf (o : Output) (ch : Channel) : ChannelState := o.channels[ch].stateWith (o.cutFlag ch)

/-- The state is one in which the load is judged: DRIVEN or DIRECT (R165, R166). -/
def ChannelState.judged : ChannelState → Bool
  | .driven | .direct => true
  | _ => false

/-- The output that an owner's setpoint asks for (R160): the setpoint itself, but for the per-mille PROP channels,
where 1 to 1000 maps onto I_low to I_high and 0 gives 0. -/
def setpointTarget (r : RangeSettings) (ch : Channel) (setpoint : Nat) : Nat :=
  if isRanged ch then
    if setpoint = 0 then 0 else r.low + setpoint * (r.high - r.low) / 1000
  else setpoint

/-- The target of a channel in a state (R159, R160, R171). -/
def targetIn (st : ChannelState) (r : RangeSettings) (ch : Channel) (c : ChannelRec) : Nat :=
  match st with
  | .driven => setpointTarget r ch c.setpoint
  | .direct => c.level
  | .off | .cut | .fault => 0

/-- All pending dither values are loaded together (R164). -/
def Carrier.load (k : Carrier) : Carrier :=
  { k with
    high := k.nextHigh.getD k.high, low := k.nextLow.getD k.low, amp := k.nextAmp.getD k.amp
    nextHigh := none, nextLow := none, nextAmp := none }

/-- The carrier follows its target (R163): target 0 puts it at rest, where pending values are loaded at once (R164); a
rise from 0 starts it at the beginning of its high part; another change keeps part and position. -/
def Carrier.follow (target : Nat) (k : Carrier) : Carrier :=
  if target = 0 then { k.load with part := .rest, pos := 0 }
  else if k.part = .rest then { k with part := .high, pos := 0 }
  else k

/-- The commanded output: with dither on a PROP channel, the target on the others (R160, R163). -/
def ChannelRec.commandedOn (ch : Channel) (c : ChannelRec) : Nat :=
  if isPropChannel ch then
    match c.carrier.part with
    | .rest => 0
    | .high => c.target + c.carrier.amp
    | .low => c.target - c.carrier.amp
  else c.target

/-- The commanded output of a channel (R159). -/
def Output.commanded (o : Output) (ch : Channel) : Nat := o.channels[ch].commandedOn ch

/-- Changes one channel's record. -/
def Output.modChannel (ch : Channel) (f : ChannelRec → ChannelRec) (o : Output) : Output :=
  { o with channels := o.channels.set ch (f o.channels[ch]) }

/-- The target is formed anew from the row of R159 that applies, the carrier follows it, and the open timer stops in
a state other than DRIVEN and DIRECT, and where a PULSE valve closes (R159, R163, R165). -/
def ChannelRec.reform (cut : Bool) (r : RangeSettings) (ch : Channel) (c : ChannelRec) : ChannelRec :=
  let st := c.stateWith cut
  let t := targetIn st r ch c
  { c with
    target := t
    carrier := if isPropChannel ch then c.carrier.follow t else c.carrier
    openSince := if st.judged && !(isPulseChannel ch && t == 0) then c.openSince else none }

/-- Changes one channel's record and forms its target anew. -/
def State.changeChannel (ch : Channel) (f : ChannelRec → ChannelRec) (s : State) : State :=
  s.modOutput fun o => o.modChannel ch fun c => (f c).reform (o.cutFlag ch) s.settings.ranges[ch] ch

/-- An owner's post replaces the setpoint (R160). -/
def State.postSetpoint (ch : Channel) (v : Nat) (s : State) : State :=
  s.changeChannel ch fun c => { c with setpoint := v }

/-- The holder becomes absent and the direct level is cleared. -/
def ChannelRec.release (c : ChannelRec) : ChannelRec := { c with holder := none, level := 0 }

/-- The drive cut latch is set: channels 0 and 1 enter CUT unless they stand in FAULT (R169). They are never in
DIRECT (R171). -/
def State.setDriveCut (s : State) : State :=
  ((s.modOutput fun o => { o with driveCut := true }).changeChannel 0 ChannelRec.release).changeChannel 1
    ChannelRec.release

/-- The broom cut latch is set: channel 13 enters CUT unless it stands in FAULT, and a holder is released (R169). -/
def State.setBroomCut (s : State) : State :=
  (s.modOutput fun o => { o with broomCut := true }).changeChannel 13 ChannelRec.release

/-- The drive cut latch is cleared; each channel takes the state its record gives (R170). -/
def State.releaseDriveCut (s : State) : State :=
  ((s.modOutput fun o => { o with driveCut := false }).changeChannel 0 id).changeChannel 1 id

/-- The broom cut latch is cleared (R170). -/
def State.releaseBroomCut (s : State) : State :=
  (s.modOutput fun o => { o with broomCut := false }).changeChannel 13 id

/-- DIRECT ends on a channel (R172). -/
def State.endDirect (ch : Channel) (s : State) : State := s.changeChannel ch ChannelRec.release

/-- All channels, in order. -/
def allChannels : List Channel := [0, 1, 2, 3, 4, 5, 6, 7, 8, 9, 10, 11, 12, 13, 14, 15, 16, 17]

/-- DIRECT ends on every channel whose holder meets a condition (R172). The channels whose output goes off are changed
first and those whose output goes on after them; no channel's record bears on another's, so the state after both is
that of one pass over the channels. -/
def State.endDirectWhere (p : Link → Bool) (s : State) : State :=
  allChannels.foldl (fun s ch => if s.output.channels[ch].holder.any p then s.endDirect ch else s) s

/-- The partner coil of an arm coil (R171). -/
def partner (ch : Channel) : Option Channel :=
  match ch.val with
  | 3 => some 4 | 4 => some 3 | 7 => some 8 | 8 => some 7 | 11 => some 12 | 12 => some 11 | _ => none

/-- A direct level clamped to the range of the channel's kind (R171); on is 1. -/
def clampLevel (ch : Channel) (level : Nat) : Nat :=
  match channelKind ch with
  | .prop => min 2000 level
  | .switch | .pulse => min 1 level
  | .duty => min 1000 level

end Sys2Proof.Machine
end

