-- ==== Sys2Proof/Machine/Ceiling.lean ====
section
/-! DEFINITION. The Ceiling Table (chapter 3): the effective ceiling, the binding source and urgent of each direction,
the three posts, and what a change of binding brings. -/

namespace Sys2Proof.Machine

/-- The sources in the order of their slots (R47). -/
def Source.all : List Source :=
  [.mode, .rangeShift, .armTransition, .armYield, .reverseArms, .sprayLimit, .drySweep, .slope, .traction, .oilHot,
   .sensorFault, .driveLoss, .bodyLoss, .driveFault]

/-- The scopes of R47. -/
inductive Scope | forward | reverse | both
  deriving DecidableEq, Repr

/-- The fixed scope of a source (R47). -/
def Source.scope : Source → Scope
  | .reverseArms => .reverse
  | _ => .both

/-- A scope includes a direction; both includes forward and reverse (R56). -/
def Scope.includes (sc : Scope) (d : Dir) : Bool :=
  match sc, d with
  | .both, _ => true
  | .forward, .forward => true
  | .reverse, .reverse => true
  | _, _ => false

/-- The fixed class of a source: yes for urgent (R47). -/
def Source.urgent : Source → Bool
  | .driveLoss | .driveFault => true
  | _ => false

/-- The entry of a source. -/
def CeilingTable.entry (t : CeilingTable) (src : Source) : CeilingEntry := t.entries[src.slot]

/-- An entry is active and in scope of a direction (R56). -/
def CeilingTable.applies (t : CeilingTable) (d : Dir) (src : Source) : Bool :=
  (t.entry src).active && src.scope.includes d

/-- One comparison of the search for the binding source: a later slot takes the place only with a lower cap. -/
def CeilingTable.better (t : CeilingTable) (d : Dir) (best : Option Source) (src : Source) : Option Source :=
  if t.applies d src then
    match best with
    | none => some src
    | some b => if (t.entry src).cap < (t.entry b).cap then some src else some b
  else best

/-- The binding source of a direction: the lowest-numbered slot among the active entries in scope whose cap is the
lowest (R56). MODE is always active, so an entry is always found. -/
def CeilingTable.binding (t : CeilingTable) (d : Dir) : Source := (Source.all.foldl (t.better d) none).getD .mode

/-- The effective ceiling of a direction (R56). -/
def CeilingTable.effective (t : CeilingTable) (d : Dir) : Nat := (t.entry (t.binding d)).cap

/-- Urgent applies in a direction (R56). -/
def CeilingTable.urgent (t : CeilingTable) (d : Dir) : Bool := (t.binding d).urgent

/-- Changes one entry. -/
def CeilingTable.modEntry (src : Source) (f : CeilingEntry → CeilingEntry) (t : CeilingTable) : CeilingTable :=
  { t with entries := t.entries.set src.slot (f (t.entry src)) }

/-- The binding source of the report direction (R58). -/
def CeilingTable.reported (t : CeilingTable) : Source := t.binding t.reportDir

/-- A change of the table with its computation and the comparison of R58: when the binding source of the report
direction changes, CEILING_BINDING is posted to both links, the new source's engagement count increments (stopping at
65535) and the time is recorded; urgent that comes to apply with the speed reference above 0 counts an urgent stop
(R59). -/
def State.changeCeiling (f : CeilingTable → CeilingTable) (s : State) : State :=
  let was := s.ceiling.reported
  let s := s.modCeiling f
  let is := s.ceiling.reported
  if is = was then s else
    let s := s.modCeiling fun t =>
      { t.modEntry is (fun e => { e with engagements := min 65535 (e.engagements + 1) }) with lastChange := s.now }
    let s := s.postBoth .ceilingBinding
    if is.urgent && !was.urgent && decide (0 < s.gov.vRef) then s.bump .urgentStops else s

/-- Activate with cap: since is set when the entry was inactive and kept when it was active (R48). -/
def State.activate (src : Source) (cap : Nat) (s : State) : State :=
  s.changeCeiling (CeilingTable.modEntry src fun e =>
    if e.active then { e with cap := cap } else { e with active := true, cap := cap, since := s.now })

/-- Update cap (R48). -/
def State.updateCap (src : Source) (cap : Nat) (s : State) : State :=
  s.changeCeiling (CeilingTable.modEntry src fun e => { e with cap := cap })

/-- Deactivate: the cap and since are kept for reading (R48). -/
def State.deactivate (src : Source) (s : State) : State :=
  s.changeCeiling (CeilingTable.modEntry src fun e => { e with active := false })

/-- An owner keeps an entry on a condition: it is activated when the condition has come to hold, deactivated when it has
ceased, and not posted otherwise (R110, R137). -/
def State.keepEntry (src : Source) (holds : Bool) (cap : Nat) (s : State) : State :=
  if holds && !(s.ceiling.entry src).active then s.activate src cap
  else if !holds && (s.ceiling.entry src).active then s.deactivate src
  else s

/-- The governor reports its held direction: neutral keeps the report direction, another direction becomes it, with
the computation of R56 (R57). -/
def State.reportHeld (d : DriveDir) (s : State) : State :=
  match d with
  | .neutral => s
  | .forward => s.changeCeiling fun t => { t with reportDir := .forward }
  | .reverse => s.changeCeiling fun t => { t with reportDir := .reverse }

end Sys2Proof.Machine
end

