-- ==== Sys2Proof/Machine/Programs.lean ====
section
/-! DEFINITION. Program records (sections 1.2 and 1.3): the program in force, the MODE cap, the brush curves, and the
fields of WRITE_FIELD with their owners and accepted values. -/

namespace Sys2Proof.Machine

/-- The program in force: the one in the active slot (R14). -/
def State.inForce (s : State) : Option Program := s.unit.active.bind fun i => s.unit.slots[i]

/-- The program in force, or the defaults of R15 where none is: only a state that no run reaches uses the defaults
where a rule asks for the program in force (entry 29). -/
def State.program (s : State) : Program := s.inForce.getD .default

/-- The MODE cap (R5). -/
def State.modeCap (s : State) : Nat :=
  match s.unit.mode with
  | .transport | .entering => s.settings.caps.transportMax
  | .sweep | .leaving => min s.program.workMax s.settings.caps.transportMax
  | .service => 0

/-- The MODE cap is written (R5, R50). -/
def State.writeModeCap (s : State) : State := s.updateCap .mode s.modeCap

/-! ### Brush curves (R16, R90) -/

/-- The first count points of a curve (R16). -/
def Curve.used (c : Curve) : List Point := c.points.toList.take c.count

/-- The speeds of a list of points are strictly increasing. -/
def strictlyRising : List Point → Bool
  | p :: q :: rest => decide (p.speed < q.speed) && strictlyRising (q :: rest)
  | _ => true

/-- A record passes commit validation (R22). -/
def Program.valid (p : Program) : Bool := strictlyRising p.side.used && strictlyRising p.main.used

/-- The value on the segment from one point to the next, truncated toward zero (R90). -/
def segment (p q : Point) (v : Nat) : Int :=
  (p.rot : Int) + (((v : Int) - p.speed) * ((q.rot : Int) - p.rot)).tdiv ((q.speed : Int) - p.speed)

/-- The value of a list of points at a speed: before the first point its rotation, after the last point its rotation,
and between two points the segment (R90). -/
def curveAt (v : Nat) : List Point → Nat
  | [] => 0
  | [p] => p.rot
  | p :: q :: rest =>
    if v ≤ p.speed then p.rot
    else if v < q.speed then (segment p q v).toNat
    else curveAt v (q :: rest)

/-- The value of a brush curve at a ground speed (R90). -/
def Curve.at (c : Curve) (v : Nat) : Nat := curveAt v c.used

/-! ### The fields (R15, R19) -/

/-- The owner of a field, none for a number outside 1 to 21 (R15). -/
def fieldOwner (field : Nat) : Option Link :=
  if 2 ≤ field ∧ field ≤ 6 then some .drive
  else if field = 1 ∨ (7 ≤ field ∧ field ≤ 21) then some .body
  else none

/-- The value lies within a field's range. -/
def within (lo hi v : Nat) : Bool := decide (lo ≤ v) && decide (v ≤ hi)

/-- The two-byte view of a value: the first two bytes of its field in the frame (R178). -/
def fieldWord : FieldValue → Nat
  | .word v => v.toNat
  | .point sp _ => sp.toNat
  | .label cs => cs[0].toNat + 256 * cs[1].toNat

/-- The curve-point view of a value: its first four bytes. -/
def fieldPoint : FieldValue → Point
  | .word v => ⟨v.toNat, 0⟩
  | .point sp rot => ⟨sp.toNat, rot.toNat⟩
  | .label cs => ⟨cs[0].toNat + 256 * cs[1].toNat, cs[2].toNat + 256 * cs[3].toNat⟩

/-- The low and high byte of a 16-bit word, least significant first (R178). -/
def lowByte (v : Half) : Byte := v.setWidth 8
def highByte (v : Half) : Byte := (v >>> 8).setWidth 8

/-- The label view of a value: its eight bytes. -/
def fieldLabel : FieldValue → Vector Byte 8
  | .label cs => cs
  | .word v => #v[lowByte v, highByte v, 0, 0, 0, 0, 0, 0]
  | .point sp rot => #v[lowByte sp, highByte sp, lowByte rot, highByte rot, 0, 0, 0, 0]

/-- A label's character is printable (R15). -/
def printable (c : Byte) : Bool := within 32 126 c.toNat

/-- A dose value: 0 means absent (R19). -/
def doseOk (v : Nat) : Bool := v == 0 || within 10 500 v

/-- The dose that a value stores (R19). -/
def doseOf (v : Nat) : Option Nat := if v = 0 then none else some v

/-- A curve point's accepted values (R15). -/
def pointOk (p : Point) : Bool := within 0 4000 p.speed && within 0 1000 p.rot

/-- The value is among a field's accepted values (R15, R19). -/
def fieldAccepts (field : Nat) (value : FieldValue) : Bool :=
  let v := fieldWord value
  match field with
  | 1 => (fieldLabel value).toList.all printable
  | 2 => within 300 4000 v
  | 3 => within 50 1500 v
  | 4 => within 100 2500 v
  | 5 => within 0 1000 v
  | 6 => within 200 4000 v
  | 7 => within 100 1000 v && v % 10 == 0
  | 8 => doseOk v
  | 9 => doseOk v
  | 10 => doseOk v
  | 11 => v < 2
  | 12 => within 250 1000 v
  | 13 => within 2 6 v
  | 14 => pointOk (fieldPoint value)
  | 15 => within 2 6 v
  | 16 => pointOk (fieldPoint value)
  | 17 => within 0 1000 v
  | 18 => within 0 1000 v
  | 19 => within 200 5000 v
  | 20 => within 200 5000 v
  | 21 => within 0 1000 v
  | _ => false

/-- One point place of a curve takes a value; a place above 5 does not exist. -/
def Curve.setPoint (c : Curve) (place : Nat) (p : Point) : Curve :=
  { c with points := c.points.setIfInBounds place p }

/-- The field of a record takes a value (R19). -/
def Program.setField (field place : Nat) (value : FieldValue) (p : Program) : Program :=
  let v := fieldWord value
  match field with
  | 1 => { p with label := fieldLabel value }
  | 2 => { p with workMax := v }
  | 3 => { p with accel := v }
  | 4 => { p with decel := v }
  | 5 => { p with reverseCap := v }
  | 6 => { p with dryCap := v }
  | 7 => { p with period := v }
  | 8 => { p with doseLeft := doseOf v }
  | 9 => { p with doseRight := doseOf v }
  | 10 => { p with doseMain := doseOf v }
  | 11 => { p with holdsSpeed := v == 1 }
  | 12 => { p with economy := v }
  | 13 => { p with side := { p.side with count := v } }
  | 14 => { p with side := p.side.setPoint place (fieldPoint value) }
  | 15 => { p with main := { p.main with count := v } }
  | 16 => { p with main := p.main.setPoint place (fieldPoint value) }
  | 17 => { p with forceLeft := v }
  | 18 => { p with forceRight := v }
  | 19 => { p with lowerTime := v }
  | 20 => { p with raiseTime := v }
  | 21 => { p with dryFrac := v }
  | _ => p

end Sys2Proof.Machine
end

