-- ==== Sys2Proof/Machine/Spray.lean ====
section
/-! DEFINITION. The Spray Controller (chapter 6): bar activity, owed water, the cycle start, the pump loop, the dry
latch, the tank, and the entries SPRAY_LIMIT and DRY_SWEEP. -/

namespace Sys2Proof.Machine

/-- A bar's record. -/
def Spray.bar (y : Spray) : Bar → BarRec
  | .left => y.left | .right => y.right | .main => y.main

/-- Changes a bar's record. -/
def Spray.modBar (b : Bar) (f : BarRec → BarRec) (y : Spray) : Spray :=
  match b with
  | .left => { y with left := f y.left }
  | .right => { y with right := f y.right }
  | .main => { y with main := f y.main }

/-- Changes a bar's record in the state. -/
def State.modBar (b : Bar) (f : BarRec → BarRec) (s : State) : State := s.modSpray (Spray.modBar b f)

/-- An arm's record. -/
def Arms.get (a : Arms) : Arm → ArmRec
  | .left => a.left | .right => a.right | .main => a.main

/-- A bar's dose in a program (R15). -/
def Program.dose (p : Program) : Bar → Option Nat
  | .left => p.doseLeft | .right => p.doseRight | .main => p.doseMain

/-- A bar's nozzle flow F (R116). -/
def SpraySettings.flow (y : SpraySettings) : Bar → Nat
  | .left => y.flowLeft | .right => y.flowRight | .main => y.flowMain

/-- The state of an arm lets its bar spray: WORKING or YIELDING for a side arm, WORKING or JAMMED for the main broom
(R117). -/
def armSweeps (a : Arm) (st : ArmState) : Bool :=
  match a with
  | .left | .right => st == .working || st == .yielding
  | .main => st == .working || st == .jammed

/-- The conditions for a bar to be active (R117). -/
def State.barMayBeActive (b : Bar) (s : State) : Bool :=
  s.unit.mode == .sweep &&
  armSweeps b.arm (s.arms.get b.arm).state &&
  ((s.inForce.bind fun p => p.dose b).isSome) &&
  (s.spray.bar b).enable &&
  !(s.spray.bar b).valveFault &&
  s.spray.tank != .empty &&
  !s.spray.latch

/-- Some bar is active. -/
def Spray.anyActive (y : Spray) : Bool := y.left.active || y.right.active || y.main.active

/-! ### Quantities of R121 -/

/-- The longest pulse Mmax = P - G with G fixed at 10 ms (R121). -/
def longestPulse (p : Program) : Nat := p.period - 10

/-- The quantity that a pulse of some ms delivers, in µL (R116). -/
def delivered (ms flow : Nat) : Nat := ms * flow / 10

/-- The owed-water cap: twice the pulse capacity (R121). -/
def owedCap (p : Program) (flow : Nat) : Nat := 2 * delivered (longestPulse p) flow

/-- The effective dose: the dose with the tank NORMAL, reduced to the economy fraction with the tank LOW; R121 gives
none for EMPTY, when no bar is active. -/
def effectiveDose (tank : Tank) (p : Program) (b : Bar) : Option Nat :=
  match tank with
  | .normal => p.dose b
  | .low => (p.dose b).map fun d => d * p.economy / 1000
  | .empty => none

/-- The speed at which a bar saturates (R129). -/
def saturationSpeed (p : Program) (flow dose : Nat) : Nat := 1000 * flow * longestPulse p / (p.period * dose)

/-- A bar's v_sat as flow and dose stand (R129). -/
def State.vSat (b : Bar) (s : State) : Nat :=
  saturationSpeed s.program (s.settings.spray.flow b) ((effectiveDose s.spray.tank s.program b).getD 0)

/-! ### Shortfall (R123) and activity (R117, R119) -/

/-- Shortfall is added to the bar's remainder, and every whole millilitre is reported to the Tally Bank (R123). -/
def State.addShortfall (b : Bar) (q : Nat) (s : State) : State :=
  let r := (s.spray.bar b).shortfallRem + q
  (s.modBar b fun x => { x with shortfallRem := r % 1000 }).bumpBy .shortfall (r / 1000)

/-- A bar becomes inactive: an open valve is posted off, its owed water is dropped uncounted, saturated and last pulse
are cleared and the remainders kept (R119). -/
def State.deactivateBar (b : Bar) (s : State) : State :=
  let s := if (s.spray.bar b).pulseEnd.isSome then s.postSetpoint b.valve 0 else s
  s.modBar b fun x => { x with active := false, pulseEnd := none, owed := 0, saturated := false, lastPulse := 0 }

/-- A bar takes the activity its conditions give (R117, R119). -/
def State.judgeBar (s : State) (b : Bar) : State :=
  let may := s.barMayBeActive b
  if (s.spray.bar b).active && !may then s.deactivateBar b
  else if !(s.spray.bar b).active && may then s.modBar b fun x => { x with active := true }
  else s

/-- The pump starts at the start duty when the first bar becomes active, and stops when the last becomes inactive
(R130). -/
def State.judgePump (before : Bool) (s : State) : State :=
  let after := s.spray.anyActive
  if after && !before then
    (s.modSpray fun y => { y with duty := s.settings.spray.startDuty, dryCount := 0 }).postSetpoint 14
      s.settings.spray.startDuty
  else if before && !after then
    (s.modSpray fun y => { y with duty := 0, dryCount := 0 }).postSetpoint 14 0
  else s

/-- The bars that bear on SPRAY_LIMIT: active, with an effective dose above 0 (R52, R129). -/
def State.limitingBars (s : State) : List Bar :=
  Bar.all.filter fun b => (s.spray.bar b).active && decide (0 < (effectiveDose s.spray.tank s.program b).getD 0)

/-- The cap of SPRAY_LIMIT: the lowest v_sat of those bars, raised to 200 and held to 8000 (R129). -/
def State.sprayLimitCap (s : State) : Nat :=
  max 200 (s.limitingBars.foldl (fun m b => min m (s.vSat b)) 8000)

/-- SPRAY_LIMIT is judged (R52, R129). -/
def State.judgeSprayLimit (s : State) : State :=
  let holds := s.program.holdsSpeed && !s.limitingBars.isEmpty
  let e := s.ceiling.entry .sprayLimit
  if holds then
    if !e.active then s.activate .sprayLimit s.sprayLimitCap
    else if e.cap ≠ s.sprayLimitCap then s.updateCap .sprayLimit s.sprayLimitCap
    else s
  else if e.active then s.deactivate .sprayLimit
  else s

/-- The condition of DRY_SWEEP (R137). -/
def State.drySweepHolds (s : State) : Bool :=
  s.unit.mode == .sweep && (s.spray.tank == .empty || s.spray.latch)

/-- DRY_SWEEP is judged (R52, R137). -/
def State.judgeDrySweep (s : State) : State := s.keepEntry .drySweep s.drySweepHolds s.program.dryCap

/-- The bars are judged: each bar, then the pump, last the two entries (R117). -/
def State.judgeBars (s : State) : State :=
  let before := s.spray.anyActive
  ((Bar.all.foldl State.judgeBar s).judgePump before).judgeSprayLimit.judgeDrySweep

/-- The owed water of an active bar is held to its cap, what lies beyond it counted as shortfall (R122, R128). -/
def State.holdOwed (s : State) (b : Bar) : State :=
  let x := s.spray.bar b
  let cap := owedCap s.program (s.settings.spray.flow b)
  if x.active && decide (cap < x.owed) then
    (s.addShortfall b (x.owed - cap)).modBar b fun x => { x with owed := cap }
  else s

/-- The Spray Controller at a change of the program in force: the bars are judged, the owed water of those active is
held to the new cap, and the dry sweep cap is posted whether the entry is active or not (R128, R137). -/
def State.sprayProgramChange (s : State) : State :=
  (Bar.all.foldl State.holdOwed s.judgeBars).updateCap .drySweep s.program.dryCap

/-! ### Distance ticks and cycle starts -/

/-- One bar's share of a distance tick (R122). -/
def State.barTick (s : State) (b : Bar) : State :=
  if (s.spray.bar b).active then
    (s.modBar b fun x => { x with owed := x.owed + (effectiveDose s.spray.tank s.program b).getD 0 }).holdOwed b
  else s

/-- A distance tick at the Spray Controller (R122). -/
def State.sprayTick (s : State) : State := Bar.all.foldl State.barTick s

/-- The cycle start of a bar (R125, R127): nothing for an inactive bar or an open pulse; a skip below Mmin; otherwise a
pulse of min(M_raw, Mmax), counted as delivered. -/
def State.cycleStart (b : Bar) (s : State) : State :=
  let x := s.spray.bar b
  if !x.active || x.pulseEnd.isSome then s else
    let flow := s.settings.spray.flow b
    let raw := x.owed * 10 / flow
    if raw < s.settings.spray.mMin then
      s.modBar b fun x => { x with saturated := false, lastPulse := 0 }
    else
      let longest := longestPulse s.program
      let m := min raw longest
      let sat := decide (longest < raw)
      let q := delivered m flow
      let rem := x.deliveredRem + q
      let s := (s.modBar b fun x =>
        { x with owed := x.owed - q, pulseEnd := some (later s.now m), lastPulse := m, saturated := sat
                 deliveredRem := rem % 1000 }).postSetpoint b.valve 1
      let s := s.bumpBy (.water b) (rem / 1000)
      if sat && !x.saturated then s.postBoth .spraySaturated else s

/-! ### The pump-dry latch and the tank -/

/-- The setting of the pump-dry latch (R132); a latch that stands is not set again. -/
def State.setDryLatch (s : State) : State :=
  if s.spray.latch then s else
    ((s.modSpray fun y => { y with latch := true, dryCount := 0 }).raiseAlarm .pumpDry 0).judgeBars

/-- The tank state after a level, by the first row of R135 that applies. -/
def nextTank (set : SpraySettings) (level : Nat) : Tank → Tank
  | .normal => if level < set.tankEmpty then .empty else if level < set.tankLow then .low else .normal
  | .low =>
    if set.tankLow + set.hysteresis < level then .normal
    else if level < set.tankEmpty then .empty else .low
  | .empty =>
    if set.tankLow + set.hysteresis < level then .normal
    else if set.tankEmpty + set.hysteresis < level then .low else .empty

/-- A new tank level result: a stale one is not judged; a fresh one is recorded and moves the tank state, and a change
posts TANK_STATE, raises or ends TANK_EMPTY and judges the bars (R135, R136). -/
def State.takeLevel (r : Result) (s : State) : State :=
  if r.stale then s else
    let level := r.value.toNat
    let old := s.spray.tank
    let new := nextTank s.settings.spray level old
    let s := s.modSpray fun y => { y with level := some level, tank := new }
    if new = old then s else
      let s := s.postBoth .tankState
      let s := if new = .empty then s.raiseAlarm .tankEmpty 0
               else if old = .empty then s.alarmGone .tankEmpty 0 else s
      s.judgeBars

/-- The pump duty after a pressure (R131), before the clamp. -/
def steppedDuty (set : SpraySettings) (r : Result) (duty : Nat) : Nat :=
  if r.stale then duty
  else if r.value < (set.setpoint : Int) - set.band then duty + set.dutyStep
  else if (set.setpoint : Int) + set.band < r.value then duty - set.dutyStep
  else duty

/-- The work of a spray pump period expiry with a bar active (R131). -/
def State.pumpPeriod (s : State) : State :=
  let r := s.scan.results[5]
  let duty := max 100 (min 1000 (steppedDuty s.settings.spray r s.spray.duty))
  let dry := if r.stale then s.spray.dryCount
             else if duty = 1000 ∧ r.value < s.settings.spray.dry then s.spray.dryCount + 1 else 0
  let s := (s.modSpray fun y => { y with duty := duty, dryCount := dry, pressure := some r.value.toNat }).postSetpoint
    14 duty
  if 30 ≤ dry then s.setDryLatch else s

end Sys2Proof.Machine
end

