-- ==== Sys2Proof/Machine/Modes.lean ====
section
/-! DEFINITION. The Mode and Program Unit (chapter 1): mode changes and what follows them, program changes and the
pending swap, the end of SERVICE, and the way out of LEAVING; with the range request at the governor (R75). -/

namespace Sys2Proof.Machine

/-- The mode is one in which a change of the active program waits (R23, R25). -/
def Mode.working : Mode → Bool
  | .entering | .sweep | .leaving => true
  | .transport | .service => false

/-- The cap of REVERSE_ARMS (R51). -/
def State.reverseCap (s : State) : Nat :=
  match s.inForce with
  | some p => p.reverseCap
  | none => 0

/-- A change of the program in force: the MODE cap (R5), the cap of REVERSE_ARMS (R51, R110), and the Spray Controller
(R128). -/
def State.programChanged (s : State) : State :=
  let s := s.writeModeCap
  (s.updateCap .reverseArms s.reverseCap).sprayProgramChange

/-- A change of the work mode, seen by the other blocks at once: the MODE cap is written (R5), MODE_CHANGED is posted to
both links (R4), and the bars are judged (R117). -/
def State.setMode (m : Mode) (s : State) : State :=
  ((s.modUnit fun u => { u with mode := m }).writeModeCap.postBoth .modeChanged).judgeBars

/-- A pending swap is applied (R27): its record is written into the target slot, which becomes active, and
PROGRAM_SWAPPED is posted to both links. -/
def State.applySwap (s : State) : State :=
  match s.unit.swap with
  | none => s
  | some w =>
    ((s.modUnit fun u =>
      { u with slots := u.slots.set w.target (some w.record), active := some w.target, swap := none }).postBoth
        .programSwapped).programChanged

/-- SERVICE is left for TRANSPORT (R13): MODE_CHANGED and SERVICE_LEFT are posted, and DIRECT ends on every channel. -/
def State.leaveService (s : State) : State :=
  ((s.setMode .transport).postBoth .serviceLeft).endDirectWhere fun _ => true

/-- The mode reaches TRANSPORT from LEAVING (R11), and a pending swap is applied at that mode change (R28). -/
def State.reachTransport (s : State) : State :=
  ((s.modUnit fun u => { u with awaited := none, requested := false, reached := false }).setMode .transport).applySwap

/-- The left arm, the right arm and the main broom are each STOWED or FAULT (R10). -/
def Arms.allDown (a : Arms) : Bool :=
  [a.left, a.right, a.main].all fun r => r.state == .stowed || r.state == .fault

/-- A range request at the governor (R75): it replaces any request before it; the shift waits for the shift speed when
the named range is not the set one, goes on settling when the settle timer runs for it, and otherwise completes at the
next drive period expiry (entry 28). -/
def State.requestRange (r : Range) (s : State) : State :=
  let s := (s.modGov fun g => { g with requested := some r }).activate .rangeShift s.settings.caps.shiftSpeed
  s.modGov fun g =>
    if r ≠ g.setRange then { g with shift := .waiting, settle := none }
    else if g.settle.isSome then g
    else { g with shift := .none }

/-- The unit's watch in LEAVING (R10, R11): at the first moment with all three arms STOWED or FAULT the transport range
is requested, once per LEAVING; with the transport range marked as reached, the mode becomes TRANSPORT instead. -/
def State.leavingCheck (s : State) : State :=
  if s.unit.mode = .leaving ∧ s.arms.allDown then
    if s.unit.reached then s.reachTransport
    else if s.unit.requested then s
    else (s.modUnit fun u => { u with requested := true, awaited := some .transport }).requestRange .transport
  else s

/-- A range-done (R7, R11): one that names the awaited range is taken, another is discarded. The work range in ENTERING
gives SWEEP; the transport range in LEAVING gives TRANSPORT, or the reached mark while an arm is out. -/
def State.takeRangeDone (r : Range) (s : State) : State :=
  if s.unit.awaited ≠ some r then s else
    match s.unit.mode, r with
    | .entering, .work => (s.modUnit fun u => { u with awaited := none }).setMode .sweep
    | .leaving, .transport =>
      if s.arms.allDown then s.reachTransport else s.modUnit fun u => { u with reached := true }
    | _, _ => s

/-- The staging claim lapses: the record becomes free and CLAIM_LAPSED goes to the former holder alone (R20). -/
def State.lapseClaim (s : State) : State :=
  match s.unit.staging with
  | none => s
  | some g => (s.modUnit fun u => { u with staging := none }).post .claimLapsed g.holder

/-- The cycle boundary timer starts with the P of the program in force (R26); no half-cycle mark runs before the first
boundary (entry 27). -/
def State.startCycle (s : State) : State :=
  s.modUnit fun u => { u with boundary := some (later s.now s.program.period), halfMark := none }

end Sys2Proof.Machine
end

