-- ==== Sys2Proof/Machine/Arms.lean ====
section
/-! DEFINITION. The Arm Controller (chapter 5): coil setpoints, rotation and down-force, the three ceiling entries,
ARM_STATE and its reports, lowering and raising, strikes and yields, the broom's jams, and arm faults. -/

namespace Sys2Proof.Machine

/-- Changes an arm's record. -/
def Arms.mod (a : Arm) (f : ArmRec → ArmRec) (x : Arms) : Arms :=
  match a with
  | .left => { x with left := f x.left }
  | .right => { x with right := f x.right }
  | .main => { x with main := f x.main }

/-- Changes an arm's record in the state. -/
def State.modArm (a : Arm) (f : ArmRec → ArmRec) (s : State) : State := s.modArms (Arms.mod a f)

/-- An arm's record in the state. -/
def State.arm (s : State) (a : Arm) : ArmRec := s.arms.get a

/-! ### Setpoints (R88 to R91) -/

/-- Dry rotation applies (R91). -/
def State.dryRotation (s : State) : Bool := s.spray.tank == .empty || s.spray.latch

/-- An arm's brush curve in a program (R90). -/
def Program.curve (p : Program) : Arm → Curve
  | .left | .right => p.side
  | .main => p.main

/-- The rotation of an arm in a state that turns its motor: the curve value, reduced while dry rotation applies (R90,
R91); 0 for the broom while its cut-seen flag is set (R88). -/
def State.rotation (a : Arm) (s : State) : Nat :=
  if a = .main ∧ s.arms.cutSeen then 0 else
    let v := (s.program.curve a).at s.travel.ground
    if s.dryRotation then v * s.program.dryFrac / 1000 else v

/-- The program force of an arm; the broom has none (R88). -/
def Program.forceOf (p : Program) : Arm → Nat
  | .left => p.forceLeft
  | .right => p.forceRight
  | .main => 0

/-- The setpoints of an arm's channels. -/
structure Coils where
  lift  : Nat
  lower : Nat
  force : Nat
  motor : Nat
  deriving DecidableEq, Repr

/-- The table of R88: the setpoints by state and yield phase, from the program force and the rotation. -/
def coilsOf (st : ArmState) (phase : Option Phase) (force rot : Nat) : Coils :=
  match st, phase with
  | .stowed, _ => ⟨0, 0, 0, 0⟩
  | .lowering, _ => ⟨0, 1, force, rot⟩
  | .working, _ => ⟨0, 1, force, rot⟩
  | .yielding, some .settle => ⟨0, 1, 0, rot⟩
  | .yielding, _ => ⟨1, 0, 0, rot⟩
  | .jammed, _ => ⟨0, 1, 0, 0⟩
  | .raising, _ => ⟨1, 0, 0, 0⟩
  | .fault, _ => ⟨0, 0, 0, 0⟩

/-- The lift and lower setpoints are posted, the one that is off first (R88). -/
def State.postLiftLower (a : Arm) (c : Coils) (s : State) : State :=
  if c.lift = 0 then (s.postSetpoint a.lift 0).postSetpoint a.lower c.lower
  else (s.postSetpoint a.lower c.lower).postSetpoint a.lift c.lift

/-- The down-force of a side arm is posted and recorded; the broom has no down-force channel. -/
def State.postForce (a : Arm) (v : Nat) (s : State) : State :=
  match a.force with
  | some ch => (s.postSetpoint ch v).modArm a fun r => { r with force := v }
  | none => s

/-- The rotation is posted to the motor channel and recorded. -/
def State.postRotation (a : Arm) (v : Nat) (s : State) : State :=
  (s.postSetpoint a.motor v).modArm a fun r => { r with rot := v }

/-- The setpoints of all the arm's channels are posted for the state it stands in (R88). -/
def State.postCoils (a : Arm) (s : State) : State :=
  let r := s.arm a
  let c := coilsOf r.state r.phase (s.program.forceOf a) (s.rotation a)
  ((s.postLiftLower a c).postForce a c.force).postRotation a c.motor

/-! ### Ceiling entries and ARM_STATE (R51, R110, R111) -/

/-- An arm holds ARM_TRANSITION: LOWERING, RAISING or FAULT, or STOWED with its lower-pending mark (R51). -/
def ArmRec.inTransition (r : ArmRec) : Bool :=
  match r.state with
  | .lowering | .raising | .fault => true
  | .stowed => r.pending
  | .working | .yielding | .jammed => false

/-- The three conditions of R51. -/
def Arms.transition (a : Arms) : Bool := a.left.inTransition || a.right.inTransition || a.main.inTransition
def Arms.yields (a : Arms) : Bool := a.left.state == .yielding || a.right.state == .yielding
def Arms.sideOut (a : Arms) : Bool := a.left.state != .stowed || a.right.state != .stowed

/-- The three entries are judged again (R110). -/
def State.judgeArmEntries (s : State) : State :=
  let s := s.keepEntry .armTransition s.arms.transition s.settings.caps.armMove
  let s := s.keepEntry .armYield s.arms.yields s.settings.caps.yieldCap
  s.keepEntry .reverseArms s.arms.sideOut s.reverseCap

/-- ARM_STATE is posted to both links, and the arm states are reported to the Mode and Program Unit and to the Spray
Controller (R111). -/
def State.announceArms (s : State) : State := (s.postBoth .armState).leavingCheck.judgeBars

/-- A change of an arm's state: the record, the coil setpoints, the ceiling posts, ARM_STATE with its reports (R88,
R110, R111). -/
def State.moveArm (a : Arm) (f : ArmRec → ArmRec) (s : State) : State :=
  ((s.modArm a f).postCoils a).judgeArmEntries.announceArms

/-- A change of an arm's lower-pending mark alone (R110, R111). -/
def State.markPending (a : Arm) (v : Bool) (s : State) : State :=
  (s.modArm a fun r => { r with pending := v }).judgeArmEntries.announceArms

/-! ### Lowering and raising (R93 to R99) -/

/-- An arm enters LOWERING with the lower time of the program in force (R93). -/
def State.startLower (a : Arm) (s : State) : State :=
  s.moveArm a fun r =>
    { r with state := .lowering, phase := none, pending := false, timer := some (later s.now s.program.lowerTime) }

/-- The hold-done flag clears when the arm is the broom (R96, R98). -/
def State.clearHoldDone (a : Arm) (s : State) : State :=
  if a = .main then s.modArms fun x => { x with holdDone := false } else s

/-- An arm enters RAISING with the full raise time of the program in force; a yield phase or a jam hold ends (R96). -/
def State.startRaise (a : Arm) (s : State) : State :=
  (s.clearHoldDone a).moveArm a fun r =>
    { r with state := .raising, phase := none, pending := false, timer := some (later s.now s.program.raiseTime) }

/-- The effects of a raise, by the state of the arm (R96, R97). -/
def State.raiseArm (a : Arm) (s : State) : State :=
  match (s.arm a).state with
  | .lowering | .working | .yielding | .jammed => s.startRaise a
  | .stowed => if (s.arm a).pending then s.markPending a false else s
  | .raising | .fault => s

/-- An arm enters STOWED, its timer stopped (R97, R99). -/
def State.stow (a : Arm) (s : State) : State :=
  s.moveArm a fun r => { r with state := .stowed, phase := none, timer := none }

/-- The mode enters LEAVING (R10): every arm that is not in FAULT is commanded to raise, and the transport range is
requested at once if all three are already STOWED or FAULT. -/
def State.enterLeaving (s : State) : State :=
  let s := (s.modUnit fun u => { u with awaited := none, requested := false, reached := false }).setMode .leaving
  (Arm.all.foldl (fun s a => s.raiseArm a) s).leavingCheck

/-- A channel of an arm enters FAULT (R98): an arm in any other state enters FAULT and ARM_FAULT is raised. A mark that
is cleared with it is a change of its own for ARM_STATE (entry 16). -/
def State.faultArm (a : Arm) (s : State) : State :=
  if (s.arm a).state = .fault then s else
    let s := if (s.arm a).pending then s.postBoth .armState else s
    let s := (s.clearHoldDone a).moveArm a fun r =>
      { r with state := .fault, phase := none, pending := false, timer := none }
    s.raiseAlarm .armFault a.number

/-! ### Strikes and yields (R101 to R104) -/

/-- A list of times, oldest first, after a new one: entries more than the window before the present leave at the front,
and the present value is appended (R102, R106). -/
def recordTime (now : Time) (window : Nat) (list : List Time) : List Time :=
  list.dropWhile (fun t => window < since now t) ++ [now]

/-- The arm starts a yield in its lift phase (R103): a change of state from WORKING, a change of phase from the settle
phase, and a restart of the timer alone in the lift phase. -/
def State.startYield (a : Arm) (s : State) : State :=
  let t := some (later s.now s.settings.arms.yieldLift)
  match (s.arm a).state, (s.arm a).phase with
  | .yielding, some .lift => s.modArm a fun r => { r with timer := t }
  | .yielding, _ => (s.modArm a fun r => { r with phase := some .lift, timer := t }).postCoils a
  | _, _ => s.moveArm a fun r => { r with state := .yielding, phase := some .lift, timer := t }

/-- A kerb strike (R101): counted, posted, listed; a repeat raises the arm, empties the list and raises STRIKE_REPEAT,
made absent at once; another yields. -/
def State.strike (a : SideArm) (s : State) : State :=
  let s := (s.bump (.strikes a)).postBoth .strike
  let list := recordTime s.now s.settings.arms.strikeWindow (s.arm a.arm).strikes
  if s.settings.arms.strikeLimit ≤ list.length then
    (((s.modArm a.arm fun r => { r with strikes := [] }).startRaise a.arm).raiseAlarm .strikeRepeat
      a.arm.number).alarmGone .strikeRepeat a.arm.number
  else
    (s.modArm a.arm fun r => { r with strikes := list }).startYield a.arm

/-- A detection of a side arm's comparator: a strike in WORKING and in YIELDING, nothing in the other states (R101,
R103, R104). -/
def State.sideDetection (a : SideArm) (s : State) : State :=
  match (s.arm a.arm).state with
  | .working | .yielding => s.strike a
  | .stowed | .lowering | .jammed | .raising | .fault => s

/-- The settle phase starts or restarts (R103). -/
def State.settleTimer (s : State) : Option Time := some (later s.now s.settings.arms.yieldSettle)

/-! ### The main broom (R105 to R109) -/

/-- The broom enters WORKING. -/
def State.broomWorks (s : State) : State :=
  s.moveArm .main fun r => { r with state := .working, phase := none, timer := none }

/-- A jam (R106, R108): counted and listed; the third in the window locks the broom, another holds it in JAMMED. The
lock is one posting of ARM_STATE (entry 16) and leaves the hold-done flag as it stood (entry 42). -/
def State.jam (s : State) : State :=
  let s := s.bump .jams
  let list := recordTime s.now (s.settings.arms.jamWindow * 1000) s.arms.main.strikes
  if 3 ≤ list.length then
    ((s.modArms fun x => { x with lock := true }).moveArm .main fun r =>
      { r with state := .jammed, phase := none, timer := none, strikes := [] }).raiseAlarm .jamRepeat 2
  else
    (s.modArms fun x => { x with holdDone := false }).moveArm .main fun r =>
      { r with state := .jammed, phase := none, strikes := list, timer := some (later s.now s.settings.arms.jamHold) }

/-- A cut of comparator 2 is seen (R105): the flag is set, and a motor setpoint of 0 is posted for the broom in whatever
state it is (R88). -/
def State.seeBroomCut (s : State) : State :=
  (s.modArms fun x => { x with cutSeen := true }).postRotation .main 0

/-- A detection of comparator 2 (R105, R106): one that came with a cut is seen as such; in WORKING it is a jam, in JAMMED
without the lock it restarts the jam hold, and in the other states it is neither. -/
def State.broomDetection (cut : Bool) (s : State) : State :=
  let s := if cut then s.seeBroomCut else s
  match s.arms.main.state with
  | .working => s.jam
  | .jammed =>
    if s.arms.lock then s else
      (s.modArms fun x => { x with holdDone := false }).modArm .main fun r =>
        { r with timer := some (later s.now s.settings.arms.jamHold) }
  | .stowed | .lowering | .yielding | .raising | .fault => s

/-- The release of the broom cut is posted and cut-seen clears (R105). -/
def State.releaseBroom (s : State) : State := s.releaseBroomCut.modArms fun x => { x with cutSeen := false }

/-- An arm's comparator stands DETECTED. -/
def State.detects (a : Arm) (s : State) : Bool := s.scan.comps[a.comparator].detected

/-! ### The arm period (R89) -/

/-- The lowering test of one arm (R94). The mark's change and the state's are one posting of ARM_STATE each. -/
def State.lowerTest (a : Arm) (s : State) : State :=
  let r := s.arm a
  if r.state = .stowed ∧ r.pending ∧ s.unit.mode = .sweep ∧ s.travel.ground ≤ s.settings.caps.armMove then
    (s.postBoth .armState).startLower a
  else s

/-- The periodic posts of one arm: the rotation in LOWERING, WORKING and YIELDING, the program force of a side arm in
LOWERING and WORKING (R89). -/
def State.periodicPosts (a : Arm) (s : State) : State :=
  match (s.arm a).state with
  | .lowering | .working => (s.postRotation a (s.rotation a)).postForce a (s.program.forceOf a)
  | .yielding => s.postRotation a (s.rotation a)
  | .stowed | .jammed | .raising | .fault => s

/-- The arm period at the broom: the release of the cut (R105), then the end of JAMMED (R107), both by the flags as the
expiry found them, so that the broom returns at the expiry after the release (entry 20). -/
def State.broomPeriod (s : State) : State :=
  let clear := !s.detects .main
  let cut := s.arms.cutSeen
  let s := if cut && clear then s.releaseBroom else s
  if s.arms.main.state = .jammed ∧ !s.arms.lock ∧ s.arms.holdDone ∧ clear ∧ !cut then
    s.broomWorks
  else s

/-- The work of an arm period expiry (R89). -/
def State.armPeriod (s : State) : State :=
  let s := s.modArms fun x => { x with dryApplied := s.dryRotation }
  (Arm.all.foldl (fun s a => (s.lowerTest a).periodicPosts a) s).broomPeriod

end Sys2Proof.Machine
end

