-- ==== Sys2Proof/Machine/Governor.lean ====
section
/-! DEFINITION. The Drive Governor (chapter 4): the drive period in its four steps with the shift test before them and
the cut release after them, range completion, the reports of comparator 3 and its restart, and the drive channels'
faults. -/

namespace Sys2Proof.Machine

/-- A held direction that is a direction of travel. -/
def DriveDir.dir? : DriveDir → Option Dir
  | .neutral => none
  | .forward => some .forward
  | .reverse => some .reverse

/-- A range request completes (R77): range-done names the set range, the request and the shift state clear, and
RANGE_SHIFT is deactivated. -/
def State.completeRange (s : State) : State :=
  ((s.takeRangeDone s.gov.setRange).modGov fun g =>
    { g with requested := none, shift := .none, settle := none }).deactivate .rangeShift

/-- The switch of a range shift (R76): the requested range becomes the set range, channel 2 is posted, and the settle
timer starts. -/
def State.switchRange (s : State) : State :=
  let r := s.gov.requested.getD s.gov.setRange
  (s.modGov fun g =>
    { g with setRange := r, settle := some (later s.now s.settings.governor.settle), shift := .settling }).postSetpoint
      2 (if r = .work then 1 else 0)

/-- The range-shift test of a drive period expiry (R76), and the completion of a request that found its range set with
no settle timer running (R75, R77). -/
def State.shiftTest (s : State) : State :=
  match s.gov.shift with
  | .waiting => if s.travel.ground ≤ s.settings.caps.shiftSpeed then s.switchRange else s
  | .settling => s
  | .none => if s.gov.requested.isSome then s.completeRange else s

/-- The detail of DRIVE_STALL (R78). -/
def Dir.detail : Dir → Nat
  | .forward => 0
  | .reverse => 1

/-- Comparator 3 returns to CLEAR (R80, R81): stall hold and its timer end, and DRIVE_STALL, if it was raised for this
detection, goes absent. A standing cut is not yet released. -/
def State.governorClear (s : State) : State :=
  let raised := s.gov.stallRaised
  let detail := Dir.detail s.gov.stallDir
  let s := s.modGov fun g => { g with stallHold := false, stallTimer := none, stallRaised := false }
  if raised then s.alarmGone .driveStall detail else s

/-- The Scan Unit takes a report of the held direction (R151): a change of input restarts comparator 3 at CLEAR, with a
report of the return to CLEAR when it was DETECTED. -/
def State.restart3 (d : DriveDir) (s : State) : State :=
  if s.scan.input3 = d then s else
    let was := s.scan.comps[3].detected
    let s := s.modScan fun x => { x with input3 := d, comps := x.comps.set 3 {} }
    if was then s.governorClear else s

/-- The held direction changes and is reported to the Ceiling Table and to the Scan Unit (R68). -/
def State.setHeld (d : DriveDir) (s : State) : State :=
  ((s.modGov fun g => { g with held := d }).reportHeld d).restart3 d

/-- The held direction becomes the demand direction at a reference of 0 with cut-seen clear (R68). -/
def State.takeDirection (s : State) : State :=
  if s.gov.vRef = 0 ∧ !s.gov.cutSeen ∧ s.gov.held ≠ s.gov.demandDir then s.setHeld s.gov.demandDir else s

/-- What a drive period expiry reads once, as it stands when the expiry is taken (R64). -/
structure DriveRead where
  ceiling : CeilingTable
  ground  : Nat
  slip    : Bool
  /-- Stall hold at the expiry's start: a return to CLEAR lets the reference rise from the next expiry on (R80; entry 21). -/
  stall   : Bool
  mode    : Mode
  program : Program
  deriving DecidableEq, Repr

/-- The values read at an expiry (R64). -/
def State.driveRead (s : State) : DriveRead where
  ceiling := s.ceiling
  ground  := s.travel.ground
  slip    := s.travel.slipHold.isSome
  stall   := s.gov.stallHold
  mode    := s.unit.mode
  program := s.program

/-- The effective ceiling read for the held direction; neutral has none (R60). -/
def DriveRead.limit (r : DriveRead) (g : Governor) : Option Nat := g.held.dir?.map r.ceiling.effective

/-- Urgent as read for the held direction (R60). -/
def DriveRead.urgent (r : DriveRead) (g : Governor) : Bool := (g.held.dir?.map r.ceiling.urgent).getD false

/-- The target, by the first case of R69 that applies. -/
def formTarget (r : DriveRead) (g : Governor) : Nat :=
  if g.cutSeen then 0
  else if g.demandDir ≠ g.held then 0
  else match r.limit g with
    | none => 0
    | some c => min (g.demandMag * (r.ceiling.entry .mode).cap / 1000) c

/-- A ramp step from a limit in mm/s² (R70). -/
def rampStep (limit : Nat) : Nat := max 1 (limit / 100)

/-- The acceleration and deceleration limits that stand for the work mode (R70). -/
def rampLimits (r : DriveRead) (set : GovernorSettings) : Nat × Nat :=
  match r.mode with
  | .entering | .sweep | .leaving => (r.program.accel, r.program.decel)
  | .transport | .service => (set.accel, set.decel)

/-- The reference does not rise: stall hold as the expiry found it, a running settle timer, or a reference at or above the
effective ceiling of the held direction (R71, R80). -/
def riseBarred (r : DriveRead) (g : Governor) : Bool :=
  r.stall || g.settle.isSome || (r.limit g).all fun c => decide (c ≤ g.vRef)

/-- The speed reference after one ramp step toward a target (R71, R72). -/
def rampedRef (r : DriveRead) (set : GovernorSettings) (target : Nat) (g : Governor) : Nat :=
  let up := rampStep (rampLimits r set).1
  let down := if r.urgent g ∧ r.limit g = some target then rampStep set.stopDecel
              else rampStep (rampLimits r set).2
  if g.vRef < target then (if riseBarred r g then g.vRef else g.vRef + min up (target - g.vRef))
  else g.vRef - min down (g.vRef - target)

/-- The trim after the ramp step (R73). -/
def nextTrim (r : DriveRead) (set : GovernorSettings) (g : Governor) : Int :=
  if g.vRef = 0 then 0
  else if r.slip || r.stall || g.cutSeen then g.trim
  else clamp (-(set.trimLimit : Int)) set.trimLimit (g.trim + ((g.vRef : Int) - r.ground).tdiv set.kDiv)

/-- The coil current on the line, with the trim (R74). -/
def coilCurrent (set : GovernorSettings) (g : Governor) : Nat :=
  if g.vRef = 0 then 0 else
    let full := if g.setRange = .work then set.vFullWork else set.vFullTransport
    (clamp 0 set.iFull ((set.iStart : Int) + (g.vRef * (set.iFull - set.iStart) / full : Nat) + g.trim)).toNat

/-- The setpoints of the two pump coils (R74): the coil of the held direction gets the current and the other 0, which is
posted first; both get 0 in neutral and while cut-seen is set. -/
def State.postPump (s : State) : State :=
  if s.gov.cutSeen then (s.postSetpoint 0 0).postSetpoint 1 0
  else match s.gov.held with
    | .neutral => (s.postSetpoint 0 0).postSetpoint 1 0
    | .forward => (s.postSetpoint 1 0).postSetpoint 0 s.gov.coil
    | .reverse => (s.postSetpoint 0 0).postSetpoint 1 s.gov.coil

/-- The ceiling and urgent as read are kept for the governor status (R85); in neutral they name no direction, and a free
value stands for each (entry 7). -/
def State.keepRead (r : DriveRead) (s : State) : State :=
  match r.limit s.gov with
  | some c => s.modGov fun g => { g with ceilingRead := c, urgentRead := r.urgent g }
  | none =>
    (s.modGov fun g =>
      { g with ceilingRead := min 8000 (Config.freeCeiling s.freeCount)
               urgentRead := Config.freeUrgent s.freeCount }).modFreeCount (· + 1)

/-- Steps 1 to 3 of R64 on the governor record: target, ramp, trim; then the current of step 4. -/
def Governor.period (r : DriveRead) (set : GovernorSettings) (g : Governor) : Governor :=
  let target := formTarget r g
  let g := { g with target := target, vRef := rampedRef r set target g }
  let g := { g with trim := nextTrim r set g }
  { g with coil := coilCurrent set g }

/-- The release of a drive cut at the end of an expiry that finds cut-seen set and comparator 3 CLEAR (R82). -/
def State.releaseDrive (s : State) : State :=
  if s.gov.cutSeen && !s.scan.comps[3].detected then
    s.releaseDriveCut.modGov fun g => { g with cutSeen := false }
  else s

/-- The work of a drive period expiry (R64): the values are read, the shift test is made, then the four steps, then the
cut release. -/
def State.drivePeriod (s : State) : State :=
  let r := s.driveRead
  let s := (s.shiftTest.takeDirection).keepRead r
  ((s.modGov (Governor.period r s.settings.governor)).postPump).releaseDrive

/-- A detection of comparator 3 (R80, R81): with a cut, cut-seen is set, reference, trim and current become 0, both coils
get 0 and DRIVE_STALL is raised; without one, stall hold is set and its timer starts with 3000 ms. -/
def State.governorDetection (cut : Bool) (s : State) : State :=
  let d := s.gov.held.dir?.getD s.gov.stallDir
  if cut then
    let s := s.modGov fun g =>
      { g with cutSeen := true, vRef := 0, trim := 0, coil := 0, stallDir := d, stallRaised := true }
    ((s.postSetpoint 0 0).postSetpoint 1 0).raiseAlarm .driveStall (Dir.detail d)
  else
    s.modGov fun g =>
      { g with stallHold := true, stallTimer := some (later s.now 3000), stallDir := d, stallRaised := false }

/-- The demand becomes neutral and 0 at the loss of the drive link (R67). -/
def State.dropDemand (s : State) : State := s.modGov fun g => { g with demandDir := .neutral, demandMag := 0 }

/-- A drive channel enters FAULT (R83). -/
def State.driveChannelFault (s : State) : State := s.activate .driveFault 0

/-- A drive channel leaves FAULT: DRIVE_FAULT goes with the last of the three (R83). -/
def State.driveChannelCleared (s : State) : State :=
  if ([0, 1, 2] : List Channel).all fun ch => s.output.stateOf ch != .fault then s.deactivate .driveFault else s

end Sys2Proof.Machine
end

