-- ==== Sys2Proof/Machine/Scan.lean ====
section
/-! DEFINITION. The Scan Unit (chapter 7): conversions and addition sequences, results, the fast group and the slow
pass, the comparators, the self-check, SLOPE and OIL_HOT. -/

namespace Sys2Proof.Machine

/-! ### Results (R142, R143) -/

/-- The result range of a channel (R141). -/
def resultRange (ch : Fin 9) : Int × Int :=
  match ch.val with
  | 0 | 1 => (0, 5000)
  | 2 | 3 | 4 => (0, 3000)
  | 5 | 6 => (0, 1000)
  | 7 => (-400, 1500)
  | _ => (-450, 450)

/-- The raw average of a sequence (R143). -/
def Sequence.average (q : Sequence) : Nat := q.sum / q.count

/-- The value of a raw average, scaled and clamped to the channel's range (R143). -/
def scaledValue (ch : Fin 9) (offset : Int) (span raw : Nat) : Int :=
  clamp (resultRange ch).1 (resultRange ch).2 (offset + (raw * span / 4095 : Nat))

/-- A channel's result is formed at the end of its sequence; it is stale exactly while a converter fault stands
(R142). -/
def State.formResult (ch : Fin 9) (q : Sequence) (s : State) : State :=
  s.modScan fun x =>
    let r : Result :=
      { value := scaledValue ch q.offset q.span q.average, raw := q.average, stale := x.fault, time := s.now }
    { x with results := x.results.set ch r }

/-! ### Comparators (R148 to R151) -/

/-- A result qualifies (R149). -/
def CompSettings.qualifies (c : CompSettings) (v : Int) : Bool :=
  match c.mode with
  | .above => decide ((c.high : Int) < v)
  | .below => decide (v < c.low)
  | .outside => decide (v < c.low) || decide ((c.high : Int) < v)

/-- A comparator after a result (R149): the counter runs on results of the other side, a change comes at N in a row. -/
def Comparator.judge (set : CompSettings) (v : Int) (c : Comparator) : Comparator :=
  if set.qualifies v = c.detected then { c with counter := 0 }
  else if set.filter ≤ c.counter + 1 then { detected := !c.detected, counter := 0 }
  else { c with counter := c.counter + 1 }

/-- A detection of a comparator: the cut latch is set first where cut is enabled (R150), then the owner takes the report
(R100, R78). -/
def State.detection (i : Fin 4) (s : State) : State :=
  match i with
  | 0 => s.sideDetection .left
  | 1 => s.sideDetection .right
  | 2 => if s.settings.comps[2].cut then s.setBroomCut.broomDetection true else s.broomDetection false
  | 3 => if s.settings.comps[3].cut then s.setDriveCut.governorDetection true else s.governorDetection false

/-- A return to CLEAR (R149): the governor takes that of comparator 3; the Arm Controller reads the states of the others
at its own events (R100). -/
def State.returnToClear (i : Fin 4) (s : State) : State :=
  if i = 3 then s.governorClear else s

/-- A comparator is evaluated on a result formed while no converter fault stands (R149). -/
def State.evaluate (i : Fin 4) (v : Int) (s : State) : State :=
  if s.scan.fault then s else
    let old := s.scan.comps[i]
    let new := old.judge s.settings.comps[i] v
    let s := s.modScan fun x => { x with comps := x.comps.set i new }
    if new.detected && !old.detected then s.detection i
    else if old.detected && !new.detected then s.returnToClear i
    else s

/-- The comparator that takes a fast channel as its input: 0 to 2 take A2 to A4, comparator 3 takes A0 in forward and A1
in reverse (R148, R151). -/
def comparatorOf (input3 : DriveDir) (ch : Fin 6) : Option (Fin 4) :=
  match ch.val with
  | 0 => if input3 = .forward then some 3 else none
  | 1 => if input3 = .reverse then some 3 else none
  | 2 => some 0
  | 3 => some 1
  | 4 => some 2
  | _ => none

/-! ### Slope and hot oil (R53, R54, R156) -/

/-- The level after a pitch magnitude (R53). -/
def nextSlope (c : CapSettings) (p : Nat) : SlopeLevel → SlopeLevel
  | .zero => if c.slope2 ≤ p then .two else if c.slope1 ≤ p then .one else .zero
  | .one => if c.slope2 ≤ p then .two else if p + 10 < c.slope1 then .zero else .one
  | .two => if p + 10 < c.slope1 then .zero else if p + 10 < c.slope2 then .one else .two

/-- The cap of a level above 0 (R53). -/
def slopeCap (c : CapSettings) : SlopeLevel → Nat
  | .two => c.slopeCap2
  | .zero | .one => c.slopeCap1

/-- A pitch result moves the SLOPE level, with a post at each move (R53, R156). -/
def State.takePitch (r : Result) (s : State) : State :=
  if r.stale then s else
    let old := s.scan.slope
    let new := nextSlope s.settings.caps r.value.natAbs old
    let s := s.modScan fun x => { x with slope := new }
    if new = old then s
    else if new = .zero then s.deactivate .slope
    else if old = .zero then s.activate .slope (slopeCap s.settings.caps new)
    else s.updateCap .slope (slopeCap s.settings.caps new)

/-- An oil temperature result activates or deactivates OIL_HOT with its alarm (R54, R156). -/
def State.takeOil (r : Result) (s : State) : State :=
  if r.stale then s else
    let e := s.ceiling.entry .oilHot
    if !e.active && decide ((s.settings.caps.oilLimit : Int) ≤ r.value) then
      (s.activate .oilHot s.settings.caps.oilCap).raiseAlarm .oilHot 0
    else if e.active && decide (r.value < (s.settings.caps.oilLimit : Int) - 50) then
      (s.deactivate .oilHot).alarmGone .oilHot 0
    else s

/-! ### The self-check (R152 to R155) -/

/-- The expected code and the detail of a reference (R152). -/
def Reference.expected : Reference → Nat
  | .low => 410 | .mid => 2048 | .high => 3686
def Reference.detail : Reference → Fin 4
  | .low => 0 | .mid => 1 | .high => 2

/-- The rotation (R145). -/
def Reference.next : Reference → Reference
  | .low => .mid | .mid => .high | .high => .low

/-- A reference's record. -/
def Scan.ref (x : Scan) : Reference → RefRec
  | .low => x.low | .mid => x.mid | .high => x.high

/-- Sets a reference's record. -/
def Scan.setRef (r : Reference) (v : RefRec) (x : Scan) : Scan :=
  match r with
  | .low => { x with low := v }
  | .mid => { x with mid := v }
  | .high => { x with high := v }

/-- The stale flag of all nine results takes a value. -/
def Scan.markStale (v : Bool) (x : Scan) : Scan :=
  { x with results := Vector.ofFn fun i => { x.results[i] with stale := v } }

/-- The filter counter of each comparator becomes 0, its state stands. -/
def Scan.resetCounters (x : Scan) : Scan :=
  { x with comps := Vector.ofFn fun i => { x.comps[i] with counter := 0 } }

/-- A cause of converter fault (R154): the first begins the fault; in a standing fault a cause is raised the first time
it arises and never again. -/
def State.faultCause (detail : Fin 4) (s : State) : State :=
  if s.scan.fault then
    if s.scan.causes[detail] then s
    else (s.modScan fun x => { x with causes := x.causes.set detail true }).raiseAlarm .converterFault detail.val
  else
    let s := s.modScan fun x =>
      ({ x with fault := true, passRun := 0, causes := (Vector.replicate 4 false).set detail true }.markStale
        true).resetCounters
    (s.activate .sensorFault s.settings.caps.sensorCap).raiseAlarm .converterFault detail.val

/-- The end of a converter fault (R155). -/
def State.endFault (s : State) : State :=
  let causes := s.scan.causes
  let s := s.modScan fun x =>
    ({ x with fault := false, causes := Vector.replicate 4 false }.markStale false).resetCounters
  let s := ([0, 1, 2, 3] : List (Fin 4)).foldl
    (fun s d => if causes[d] then s.alarmGone .converterFault d.val else s) s
  s.deactivate .sensorFault

/-- A reference's raw average lies within 24 of its expected code (R153). -/
def Reference.passes (r : Reference) (raw : Nat) : Bool :=
  decide (r.expected ≤ raw + 24) && decide (raw ≤ r.expected + 24)

/-- The reference of a completed pass is judged (R153): a pass clears its fail mark and increments the pass run, which
ends a standing fault at 6; a fail zeroes the run, sets the mark, and is a cause of fault when the mark was set. -/
def State.judgeReference (r : Reference) (raw : Nat) (s : State) : State :=
  if r.passes raw then
    let run := min 6 (s.scan.passRun + 1)
    let s := s.modScan fun x => { x.setRef r ⟨false, raw, s.now⟩ with passRun := run }
    if s.scan.fault && run == 6 then s.endFault else s
  else
    let again := (s.scan.ref r).fail
    let s := s.modScan fun x => { x.setRef r ⟨true, raw, s.now⟩ with passRun := 0 }
    if again then s.faultCause r.detail else s

/-- The completion of a slow pass (R147): the reference is judged, the A6, A7 and A8 results are handed on with the
stale flags they then have, and the rotation advances. -/
def State.completePass (raw : Nat) (s : State) : State :=
  let s := s.judgeReference s.scan.nextRef raw
  let s := s.takeLevel s.scan.results[6]
  let s := s.takeOil s.scan.results[7]
  let s := s.takePitch s.scan.results[8]
  s.modScan fun x => { x with slow := none, nextRef := x.nextRef.next }

/-! ### Conversions, groups and passes (R140, R143 to R146) -/

/-- A new addition sequence begins, with the settings it will finish with, and its first conversion starts. -/
def State.beginSequence (count : Nat) (offset : Int) (span : Nat) (s : State) : State :=
  s.modScan fun x =>
    { x with seq := some { count := count, offset := offset, span := span }, convStart := some s.nowUs }

/-- The sequence of an analog channel begins (R143). -/
def State.beginChannel (ch : Fin 9) (s : State) : State :=
  let c := s.settings.scan[ch]
  s.beginSequence c.count c.offset c.span

/-- The channel of a slow item, none for the reference (R145). -/
def SlowItem.channel : SlowItem → Option (Fin 9)
  | .a6 => some 6 | .a7 => some 7 | .a8 => some 8 | .reference => none

/-- The item after a slow item (R145). -/
def SlowItem.next : SlowItem → SlowItem
  | .a6 => .a7 | .a7 => .a8 | .a8 => .reference | .reference => .a6

/-- The sequence of a slow item begins; a reference is converted with an addition count of 4 (R145). One that begins again
after a fast group takes the settings as they then stand (entry 44). -/
def State.beginSlow (item : SlowItem) (s : State) : State :=
  let s := s.modScan fun x => { x with slow := some ⟨item, .converting⟩ }
  match item.channel with
  | some ch => s.beginChannel ch
  | none => s.beginSequence 4 0 1

/-- No conversion is in progress. -/
def State.freeConverter (s : State) : State := s.modScan fun x => { x with seq := none, convStart := none }

/-- The slow selector switches to an item and its settle of 1600 µs starts (R145). -/
def State.settleItem (item : SlowItem) (s : State) : State :=
  s.modScan fun x => { x with slow := some ⟨item, .settling (later s.nowUs 1600)⟩ }

/-- A fast group starts at A0 (R144). A slow conversion under way is stopped, its partial sum discarded, and its item
waits (R146). -/
def State.startFast (s : State) : State :=
  (s.modScan fun x =>
    { x with
      fast := some 0
      slow := x.slow.map fun p => if p.phase = .converting then { p with phase := .waiting } else p }).beginChannel 0

/-- The fast group ends: the converter is free, and a slow item that waits gets it (R144, R145). -/
def State.endFast (s : State) : State :=
  let s := (s.modScan fun x => { x with fast := none }).freeConverter
  match s.scan.slow with
  | some ⟨item, .waiting⟩ => s.beginSlow item
  | _ => s

/-- A fast channel's sequence is complete: the result, its comparator, then the next channel or the end of the group
(R144). -/
def State.completeFast (ch : Fin 6) (q : Sequence) (s : State) : State :=
  let s := s.formResult (ch.castLE (by decide)) q
  let v := (s.scan.results[(ch.castLE (by decide) : Fin 9)]).value
  let s := match comparatorOf s.scan.input3 ch with
    | some i => s.evaluate i v
    | none => s
  if h : ch.val + 1 < 6 then
    (s.modScan fun x => { x with fast := some ⟨ch.val + 1, h⟩ }).beginChannel ⟨ch.val + 1, by omega⟩
  else s.endFast

/-- A slow item's sequence is complete: a result and the next item, or the end of the pass (R145, R147). -/
def State.completeSlow (item : SlowItem) (q : Sequence) (s : State) : State :=
  match item.channel with
  | some ch => ((s.formResult ch q).freeConverter).settleItem item.next
  | none => s.freeConverter.completePass q.average

/-- A code is added to the sum of the sequence in progress, which goes on with its next conversion or is complete
(R140, R143). -/
def State.addCode (code : Nat) (s : State) : State :=
  match s.scan.seq with
  | none => s
  | some q =>
    let q := { q with sum := q.sum + code, done := q.done + 1 }
    if q.done < q.count then
      s.modScan fun x => { x with seq := some q, convStart := some s.nowUs }
    else
      match s.scan.fast, s.scan.slow with
      | some ch, _ => s.completeFast ch q
      | none, some p => s.completeSlow p.item q
      | none, none => s.freeConverter

end Sys2Proof.Machine
end

