-- ==== Sys2Proof/Machine/Faults.lean ====
section
/-! DEFINITION. Load faults (section 8.4): the 0.5 ms samples, the dither carrier's movement, entry into FAULT and
departure from it, with the reports to the owner blocks. -/

namespace Sys2Proof.Machine

/-- The alarm code of a fault kind (R167). -/
def FaultKind.alarm : FaultKind → AlarmCode
  | .shortLoad => .channelShort
  | .openLoad | .none => .channelOpen

/-- A bar's valve fault takes a value and the bars are judged (R120). -/
def State.valveFault (b : Bar) (v : Bool) (s : State) : State :=
  (s.modBar b fun x => { x with valveFault := v }).judgeBars

/-- The owner block takes the report that a channel entered FAULT (R83, R98, R120, R134). -/
def State.reportFault (ch : Channel) (s : State) : State :=
  if ch.val ≤ 2 then s.driveChannelFault
  else match armOfChannel ch, barOfChannel ch with
    | some a, _ => s.faultArm a
    | none, some b => s.valveFault b true
    | none, none => s.setDryLatch

/-- The owner block takes the report that a channel left FAULT: the governor and the bars act on it; an arm stays as it
is (R98) and the pump-dry latch stays set (R134). -/
def State.reportCleared (ch : Channel) (s : State) : State :=
  if ch.val ≤ 2 then s.driveChannelCleared
  else match barOfChannel ch with
    | some b => s.valveFault b false
    | none => s

/-- A channel enters FAULT (R167): output off, carrier at rest, fault kind set, open timer stopped, holder released, the
alarm raised, the owner told. -/
def State.enterFault (ch : Channel) (kind : FaultKind) (s : State) : State :=
  ((s.changeChannel ch fun c => { c.release with fault := kind, openSince := none }).raiseAlarm kind.alarm
    ch.val).reportFault ch

/-- A channel leaves FAULT (R168): the alarm's condition goes absent and the owner is told. -/
def State.leaveFault (ch : Channel) (s : State) : State :=
  let kind := s.output.channels[ch].fault
  ((s.changeChannel ch fun c => { c with fault := .none }).alarmGone kind.alarm ch.val).reportCleared ch

/-- The length of the part in which a carrier stands (R163). -/
def Carrier.length (k : Carrier) : Nat :=
  match k.part with
  | .rest => 0
  | .high => k.high
  | .low => k.low

/-- The carrier moves by one 0.5 ms unit, up to the end of its part (R162, R163). -/
def Carrier.move (k : Carrier) : Carrier := { k with pos := min k.length (k.pos + 1) }

/-- The end of a carrier part (R163, R164): the high part passes to the low part; at the end of the low part pending
values are loaded and a new cycle begins. Before the end of its part a carrier keeps its place. -/
def Carrier.partEnd (k : Carrier) : Carrier :=
  match k.part with
  | .rest => k
  | .high => if k.high ≤ k.pos then { k with part := .low, pos := 0 } else k
  | .low => if k.low ≤ k.pos then { k.load with part := .high, pos := 0 } else k

/-- The open condition of a sample (R165): a PROP channel with a target of 200 mA or more measured below half of it; a
PULSE channel that is on and reported open. -/
def openCondition (ch : Channel) (report : Bool) (c : ChannelRec) : Bool :=
  match channelKind ch with
  | .prop => decide (200 ≤ c.target) && decide (c.measured.toNat < c.target / 2)
  | .pulse => decide (0 < c.commandedOn ch) && report
  | .switch | .duty => false

/-- The short condition of a sample (R166): above 2500 mA on a PROP channel; overcurrent on SWITCH and DUTY. -/
def shortCondition (ch : Channel) (report : Bool) (c : ChannelRec) : Bool :=
  match channelKind ch with
  | .prop => decide (2500 < c.measured.toNat)
  | .switch | .duty => report
  | .pulse => false

/-- One channel's sample (R162, R165, R166): the current is recorded and the carrier moves on a PROP channel; the load
is judged in DRIVEN and DIRECT, a short taking effect at once and an open starting, keeping or stopping its timer. -/
def State.sampleChannel (x : Samples) (s : State) (ch : Channel) : State :=
  let report := x.report.getLsbD ch.val
  let s := s.modOutput fun o => o.modChannel ch fun c =>
    if isPropChannel ch then { c with measured := x.current[ch], carrier := c.carrier.move } else c
  let c := s.output.channels[ch]
  if (s.output.stateOf ch).judged then
    if shortCondition ch report c then s.enterFault ch .shortLoad
    else s.modOutput fun o => o.modChannel ch fun c =>
      { c with openSince := if openCondition ch report c then some (c.openSince.getD s.nowUs) else none }
  else s

/-- A 0.5 ms sample of every channel, in channel order (R162; entry 12). -/
def State.sampleAll (x : Samples) (s : State) : State := allChannels.foldl (State.sampleChannel x) s

/-- The time at which a channel's open timer expires, in microseconds from its start (R165). -/
def openLimit (ch : Channel) : Nat := if isPulseChannel ch then 10000 else 200000

/-- A channel's open timer has come to its limit (R165). -/
def openDue (ch : Channel) (s : State) : Bool :=
  match s.output.channels[ch].openSince with
  | some t => decide (openLimit ch ≤ since s.nowUs t)
  | none => false

end Sys2Proof.Machine
end

