-- ==== Sys2Proof/Machine/Travel.lean ====
section
/-! DEFINITION. The Travel Measurement Unit (chapter 2): wheel edges, speeds, slip, the sensor watch and fault, ground
speed and direction, and distance; with the restart window's lapse at a rise of ground speed (R187). -/

namespace Sys2Proof.Machine

/-- A wheel's record. -/
def Travel.wheel (t : Travel) : Wheel → WheelRec
  | .left => t.left
  | .right => t.right

/-- Changes a wheel's record. -/
def Travel.modWheel (w : Wheel) (f : WheelRec → WheelRec) (t : Travel) : Travel :=
  match w with
  | .left => { t with left := f t.left }
  | .right => { t with right := f t.right }

/-- Changes a wheel's record in the state. -/
def State.modWheel (w : Wheel) (f : WheelRec → WheelRec) (s : State) : State := s.modTravel (Travel.modWheel w f)

/-- A wheel's pitch (R31). -/
def TravelSettings.pitch (t : TravelSettings) : Wheel → Nat
  | .left => t.pitchLeft
  | .right => t.pitchRight

/-! ### Ground speed and direction (R40, R41) -/

/-- Ground speed, by the first case of R40 that applies. -/
def Travel.groundOf (t : Travel) : Nat :=
  match t.sensorFault with
  | some w => (t.wheel w.other).speed
  | none => if t.slipHold.isSome then min t.left.speed t.right.speed else (t.left.speed + t.right.speed) / 2

/-- The measured direction, by the first case of R41 that applies. -/
def Travel.dirOf (t : Travel) : Dir :=
  match t.sensorFault with
  | some w => if 0 < (t.wheel w.other).speed then (t.wheel w.other).dir else t.dir
  | none =>
    if t.left.speed = 0 ∧ t.right.speed = 0 then t.dir
    else if t.left.speed < t.right.speed then t.right.dir
    else t.left.dir

/-- The restart window closes as lapsed: RESTART_LAPSED goes to its holder alone (R187). -/
def State.lapseWindow (s : State) : State :=
  match s.links.window with
  | none => s
  | some w => (s.modLinks fun l => { l with window := none }).post .restartLapsed w.holder

/-- Ground speed and direction are formed again (R40, R41); a change of ground speed to a value above 0 closes an open
restart window (R187). -/
def State.formGround (s : State) : State :=
  let old := s.travel.ground
  let s := s.modTravel fun t => { t with ground := t.groundOf, dir := t.dirOf }
  if s.travel.ground ≠ old ∧ 0 < s.travel.ground then s.lapseWindow else s

/-! ### Wheel speeds (R32 to R34) -/

/-- The mean period of a history (R33). -/
def meanPeriod (history : List Nat) : Nat := history.sum / history.length

/-- The speed of a pitch and a period (R33). -/
def speedOf (pitch period : Nat) : Nat := pitch * 100000 / period

/-- The wheel speed takes a value; moving since is set when it rises from 0 (section 2.2, R33). -/
def WheelRec.withSpeed (now : Time) (v : Nat) (w : WheelRec) : WheelRec :=
  { w with speed := v, movingSince := if w.speed = 0 ∧ 0 < v then some now else w.movingSince }

/-- The history with a new period, the oldest of five removed (R32). -/
def appendPeriod (p : Nat) (h : List Nat) : List Nat := (h ++ [p]).drop ((h.length + 1) - 4)

/-- The decayed speed of a wheel at a travel update expiry (R34). -/
def WheelRec.decayed (nowUs : Micros) (pitch : Nat) (w : WheelRec) : Nat :=
  let e := match w.lastEdge with
    | some t => since nowUs t
    | none => 0
  speedOf pitch (max (meanPeriod w.history) e)

/-! ### Slip (R37 to R39) -/

/-- The acceleration of a spin test (R37). -/
def spinAccel (prev new period : Nat) : Int := (((new : Int) - prev) * 1000000).tdiv period

/-- Slip hold ends: its timer stops, the slip flag clears, TRACTION is deactivated (R39). -/
def State.stopSlip (s : State) : State := (s.modTravel fun t => { t with slipHold := none }).deactivate .traction

/-- A slip detection starts or restarts slip hold (R39). -/
def State.slipDetected (s : State) : State :=
  let running := s.travel.slipHold.isSome
  let s := s.modTravel fun t => { t with slipHold := some (later s.now s.settings.travel.slipHold) }
  if running then s else
    (((s.activate .traction s.settings.caps.traction).postBoth .slip).bump .slips).formGround

/-- The stillness test finds the edge's wheel slipping (R38). A wheel with no edge since the reset counts as silent for
the whole time since then (entry 30). -/
def State.stillness (w : Wheel) (s : State) : Bool :=
  let other := s.travel.wheel w.other
  let silent := match other.lastEdgeTime with
    | some t => since s.now t
    | none => since s.now 0
  let moving := match (s.travel.wheel w).movingSince with
    | some t => decide (300 ≤ since s.now t)
    | none => false
  s.travel.sensorFault.isNone && other.speed == 0 && decide (300 ≤ silent) && moving

/-! ### The sensor watch and the wheel-sensor fault (R42, R43) -/

/-- The watch condition for a wheel (R42). -/
def Travel.watchHolds (t : Travel) (w : Wheel) : Bool :=
  (t.wheel w).speed == 0 && decide (500 < (t.wheel w.other).speed)

/-- The watch after a check (R42). -/
def Travel.nextWatch (now : Time) (t : Travel) : Option Watch :=
  match t.watch.filter fun x => t.watchHolds x.wheel with
  | some x => some x
  | none =>
    if t.watchHolds .left then some ⟨.left, now⟩
    else if t.watchHolds .right then some ⟨.right, now⟩
    else none

/-- The watch is checked, unless a wheel-sensor fault stands (R42). -/
def State.checkWatch (s : State) : State :=
  if s.travel.sensorFault.isSome then s else s.modTravel fun t => { t with watch := t.nextWatch s.now }

/-- The detail of WHEEL_SENSOR (R43). -/
def wheelDetail : Wheel → Nat
  | .left => 0
  | .right => 1

/-- The wheel-sensor fault begins (R43). -/
def State.beginSensorFault (w : Wheel) (s : State) : State :=
  let s := (s.modTravel fun t => { t with watch := none, sensorFault := some w }).raiseAlarm .wheelSensor (wheelDetail w)
  let s := if s.travel.slipHold.isSome then s.stopSlip else s
  s.formGround

/-- The wheel-sensor fault ends at an accepted edge of the silent wheel (R43). -/
def State.endSensorFault (w : Wheel) (s : State) : State :=
  (((s.modTravel fun t => { t with sensorFault := none }).alarmGone .wheelSensor (wheelDetail w)).formGround).checkWatch

/-! ### Distance (R44, R45, R112) -/

/-- What an edge adds to the distance accumulator (R44). -/
def Travel.distance (t : Travel) (w : Wheel) (pitch : Nat) : Nat :=
  if t.sensorFault.isSome then 2 * pitch
  else if t.slipHold.isSome then
    if (t.wheel w).speed < (t.wheel w.other).speed then 2 * pitch
    else if (t.wheel w.other).speed < (t.wheel w).speed then 0
    else pitch
  else pitch

/-- The swept tick count of an arm. -/
def TallyBank.swept (b : TallyBank) : Arm → Nat
  | .left => b.sweptLeft
  | .right => b.sweptRight
  | .main => b.sweptMain

/-- Sets the swept tick count of an arm. -/
def TallyBank.setSwept (a : Arm) (n : Nat) (b : TallyBank) : TallyBank :=
  match a with
  | .left => { b with sweptLeft := n }
  | .right => { b with sweptRight := n }
  | .main => { b with sweptMain := n }

/-- A distance tick at the Tally Bank for one arm (R112). -/
def State.sweptTick (s : State) (a : Arm) : State :=
  if armSweeps a (s.arm a).state then
    if 100 ≤ s.bank.swept a + 1 then (s.modBank (TallyBank.setSwept a 0)).bump (.swept a)
    else s.modBank fun b => b.setSwept a (b.swept a + 1)
  else s

/-- The tick count, the metre remainder and the odometer at a tick (R45). -/
def Travel.countTick (t : Travel) : Travel :=
  if 100 ≤ t.metreRem + 1 then { t with tickCount := t.tickCount + 1, metreRem := 0, odometer := t.odometer + 1 }
  else { t with tickCount := t.tickCount + 1, metreRem := t.metreRem + 1 }

/-- One distance tick (R45): to the Spray Controller, to the Tally Bank, and to the unit's own counts. -/
def State.tick (s : State) : State := (Arm.all.foldl State.sweptTick s.sprayTick).modTravel Travel.countTick

/-- Some distance ticks, in turn. -/
def State.ticks : Nat → State → State
  | 0, s => s
  | n + 1, s => State.ticks n s.tick

/-- An accepted edge counts toward distance, and every 200 units give a tick (R44, R45). -/
def State.addDistance (w : Wheel) (s : State) : State :=
  let sum := s.travel.accumulator + s.travel.distance w (s.settings.travel.pitch w)
  (s.modTravel fun t => { t with accumulator := sum % 200 }).ticks (sum / 200)

/-! ### The accepted edge (R30, R32, R33) -/

/-- An edge of a wheel is accepted: 100 µs or more after the last accepted edge of the same wheel (R30). -/
def State.acceptsEdge (w : Wheel) (s : State) : Bool :=
  match (s.travel.wheel w).lastEdge with
  | some t => decide (100 ≤ since s.nowUs t)
  | none => true

/-- The period that an accepted edge gives: none for the first edge and for a reversal (R32). -/
def WheelRec.period (nowUs : Micros) (dir : Dir) (w : WheelRec) : Option Nat :=
  match w.lastEdge with
  | none => none
  | some t => if w.dir = dir then some (since nowUs t) else none

/-- The edge restarts the timeout timer and sets the times and the direction (R32). -/
def WheelRec.stamp (now : Time) (nowUs : Micros) (dir : Dir) (timeout : Nat) (w : WheelRec) : WheelRec :=
  { w with lastEdge := some nowUs, lastEdgeTime := some now, dir := dir, timeout := some (later now timeout) }

/-- The history and the speeds after an edge with no period: a reversal clears them, a first edge finds them clear
(R32). -/
def WheelRec.restart (w : WheelRec) : WheelRec :=
  { w with history := [], edgeSpeed := none, speed := 0, movingSince := none }

/-- The record after an edge that gives a period (R32, R33, R37): history, speed, edge speed, and the acceleration of
the spin test where an edge speed stood, clamped for reading. -/
def WheelRec.timed (now : Time) (pitch period : Nat) (w : WheelRec) : WheelRec :=
  let h := appendPeriod period w.history
  let v := speedOf pitch (meanPeriod h)
  { (w.withSpeed now v) with
    history := h
    edgeSpeed := some v
    accel := match w.edgeSpeed with
      | some prev => clamp (-2147483648) 2147483647 (spinAccel prev v period)
      | none => w.accel }

/-- The spin test of an edge with a period is a slip detection (R37). -/
def WheelRec.spins (limit pitch period : Nat) (w : WheelRec) : Bool :=
  match w.edgeSpeed with
  | some prev =>
    decide ((limit : Int) < spinAccel prev (speedOf pitch (meanPeriod (appendPeriod period w.history))) period)
  | none => false

/-- The wheel's record and the slip state after an accepted edge (R32, R33, R37, R38). -/
def State.applyEdge (w : Wheel) (dir : Dir) (s : State) : State :=
  let x := s.travel.wheel w
  let pitch := s.settings.travel.pitch w
  let stamp := WheelRec.stamp s.now s.nowUs dir s.settings.travel.pulseTimeout
  match x.period s.nowUs dir with
  | none => (s.modWheel w fun x => (stamp x).restart).formGround
  | some p =>
    let spins := x.spins s.settings.travel.spinLimit pitch p
    let s := s.modWheel w fun x => (stamp x).timed s.now pitch p
    let s := if spins then s.slipDetected else s
    let s := s.formGround
    if s.stillness w then s.slipDetected else s

/-- The sensor watch ends at an accepted edge of the silent wheel (R42). -/
def Travel.endWatchAt (w : Wheel) (t : Travel) : Travel :=
  { t with watch := t.watch.filter fun x => x.wheel != w }

/-- The work of an accepted edge: the record, speeds and slip; the watch, checked when the wheel speed changed; the end of a
wheel-sensor fault of this wheel; distance; and the end of SERVICE (R13, R30). -/
def State.acceptEdge (w : Wheel) (dir : Dir) (s : State) : State :=
  let old := (s.travel.wheel w).speed
  let s := (s.modTravel (Travel.endWatchAt w)).applyEdge w dir
  let s := if (s.travel.wheel w).speed ≠ old then s.checkWatch else s
  let s := if s.travel.sensorFault = some w then s.endSensorFault w else s
  let s := s.addDistance w
  if s.unit.mode = .service then s.leaveService else s

/-! ### The travel update and the pulse timeout (R34, R35) -/

/-- One wheel at a travel update expiry (R34). -/
def State.decayWheel (s : State) (w : Wheel) : State :=
  let x := s.travel.wheel w
  let v := x.decayed s.nowUs (s.settings.travel.pitch w)
  if x.history ≠ [] ∧ v ≠ x.speed then
    ((s.modWheel w (WheelRec.withSpeed s.now v)).formGround).checkWatch
  else s

/-- The work of a travel update expiry (R34, R42). The left wheel is decayed first, and ground speed and direction are formed
after each: the model's order (entry 40). -/
def State.travelUpdate (s : State) : State :=
  let s := (s.decayWheel .left).decayWheel .right
  match s.travel.watch with
  | some x => if s.travel.sensorFault.isNone ∧ 3000 ≤ since s.now x.since then s.beginSensorFault x.wheel else s
  | none => s

/-- A wheel's pulse timeout (R35): history, edge time, edge speed, speed and moving since are cleared, the direction
kept. -/
def State.pulseTimeout (w : Wheel) (s : State) : State :=
  let old := (s.travel.wheel w).speed
  let s := (s.modWheel w fun x => { x.restart with lastEdge := none, timeout := none }).formGround
  if old ≠ 0 then s.checkWatch else s

end Sys2Proof.Machine
end

