-- ==== Sys2Proof/Machine/Links.lean ====
section
/-! DEFINITION. The Link Ports (chapter 9): liveness, the state gate, the loss of a link, and the joint restart. -/

namespace Sys2Proof.Machine

/-- A link's record. -/
def Links.get (x : Links) : Link → LinkRec
  | .drive => x.drive
  | .body => x.body

/-- Changes a link's record. -/
def Links.mod (l : Link) (f : LinkRec → LinkRec) (x : Links) : Links :=
  match l with
  | .drive => { x with drive := f x.drive }
  | .body => { x with body := f x.body }

/-- A link's record in the state. -/
def State.link (s : State) (l : Link) : LinkRec := s.links.get l

/-- Changes a link's record in the state. -/
def State.modLink (l : Link) (f : LinkRec → LinkRec) (s : State) : State := s.modLinks (Links.mod l f)

/-- A link's loss entry (R55) and loss alarm (R185). -/
def lossEntry : Link → Source
  | .drive => .driveLoss
  | .body => .bodyLoss
def lossAlarm : Link → AlarmCode
  | .drive => .driveLinkLost
  | .body => .bodyLinkLost

/-- The cap of a link's loss entry (R55). -/
def State.lossCap (l : Link) (s : State) : Nat :=
  match l with
  | .drive => 0
  | .body => s.settings.caps.crawl

/-! ### Frames that pass their CRC (R183, R184) -/

/-- The link state after a refreshing frame (R184). -/
def LinkState.refreshed : LinkState → LinkState
  | .waiting | .live => .live
  | .lost | .returned => .returned

/-- The record after a frame that passed its CRC (R183): it is counted as accepted; one whose liveness count differs
refreshes the link, restarting the deadline timer; the count is kept either way. Chip select is released. -/
def LinkRec.receive (now : Time) (live : Byte) (x : LinkRec) : LinkRec :=
  let x := { x with accepted := x.accepted + 1, selected := false }
  if x.lastCount = some live then x
  else { x with state := x.state.refreshed, timer := some (later now x.deadline), lastCount := some live }

/-- Step 1 of R180: the port refreshes the link or not; a link that becomes LIVE from WAITING has its loss entry
deactivated (R55). -/
def State.receive (h : Head) (s : State) : State :=
  let was := (s.link h.link).state
  let s := s.modLink h.link (LinkRec.receive s.now h.live)
  if was ≠ .live ∧ (s.link h.link).state = .live then s.deactivate (lossEntry h.link) else s

/-! ### The loss of a link (R185) -/

/-- The blocks act on the report that a link left LIVE: the claim lapses if the lost link holds it (R20), DIRECT ends on
the channels it holds (R172); for the drive link the demand is dropped (R67); for the body link the work mode moves (R9)
and all spray enables go off (R118). -/
def State.reportLoss (l : Link) (s : State) : State :=
  let s := if s.unit.staging.any fun g => g.holder == l then s.lapseClaim else s
  let s := s.endDirectWhere fun h => h == l
  match l with
  | .drive => s.dropDemand
  | .body =>
    let s := match s.unit.mode with
      | .entering | .sweep => s.enterLeaving
      | .service => s.leaveService
      | .transport | .leaving => s
    (s.modSpray fun y =>
      { y with left := { y.left with enable := false }, right := { y.right with enable := false }
               main := { y.main with enable := false } }).judgeBars

/-- A link goes from LIVE to LOST, with the six effects of R185 in their order. -/
def State.loseLink (l : Link) (s : State) : State :=
  let s := s.modLink l fun x => { x with state := .lost, timer := none }
  let s := (s.activate (lossEntry l) (s.lossCap l)).reportLoss l
  let s := if s.links.window.any fun w => w.holder == l then s.lapseWindow else s
  ((s.raiseAlarm (lossAlarm l) 0).postBoth .peerLost).bump (.linkLosses l)

/-! ### Joint restart (R188) -/

/-- The caps of the Ceiling Table at a joint restart: each that comes from a setting is taken from the setting held, and
the three program-derived caps return to 0, 200 and 0 (R47). SLOPE takes slope cap 1, the setting its value at power-on
is the default of (entry 19). -/
def restartCeiling (c : CapSettings) : CeilingTable where
  entries := #v[{ active := true, cap := c.transportMax }, { cap := c.shiftSpeed }, { cap := c.armMove },
    { cap := c.yieldCap }, { cap := 0 }, { cap := 200 }, { cap := 0 }, { cap := c.slopeCap1 }, { cap := c.traction },
    { cap := c.oilCap }, { cap := c.sensorCap }, { active := true, cap := 0 }, { active := true, cap := c.crawl },
    { cap := 0 }]

/-- A channel's record after a joint restart (R159): as after power-on reset, its dither values kept, pending ones loaded
because the carrier is at rest (R164). The measured current is a free value (entry 5). -/
def restartChannel (free : Half) (c : ChannelRec) : ChannelRec :=
  { carrier := { c.carrier.load with part := .rest, pos := 0 }, measured := free }

/-- The measured current after a reset: a free value on a PROP channel (R159); the other kinds have none. -/
def freeCurrent (n : Nat) (ch : Channel) : Half := if isPropChannel ch then Config.freeSense (n + ch.val) else 0

/-- The Output Stage after a joint restart. -/
def Output.restarted (n : Nat) (o : Output) : Output where
  channels := Vector.ofFn fun ch => restartChannel (freeCurrent n ch) o.channels[ch]

/-- The Mode and Program Unit at a joint restart: a pending swap is applied with no PROGRAM_SWAPPED (R28), table and
active slot are kept (R14), the staging record is freed with no CLAIM_LAPSED (R17), the mode is TRANSPORT (R4), and the
cycle boundary timer starts again from the restart if a slot is active (R26). -/
def ModeUnit.restarted (u : ModeUnit) : ModeUnit :=
  let slots := match u.swap with
    | some w => u.slots.set w.target (some w.record)
    | none => u.slots
  let active := match u.swap with
    | some w => some w.target
    | none => u.active
  { slots := slots
    active := active
    boundary := (active.bind fun i => slots[i]).map fun p => later 0 p.period }

/-- A link's record after a joint restart (R188): WAITING, no count, timer stopped, statistics 0; the deadline, the answer
buffer and the port are kept, and the answer buffers are set after. -/
def LinkRec.restarted (x : LinkRec) : LinkRec :=
  { x with state := .waiting, lastCount := none, timer := none, accepted := 0, short := 0, crcFail := 0
           discard := x.selected }

/-- Every block takes the values of a joint restart (R188). Kept: the program table, the active slot, every setting, the
tallies, the snapshot records, the odometer, and the alarm list with every condition absent (R190). -/
def State.jointRestart (s : State) : State where
  clock     := {}
  periods   := {}
  unit      := s.unit.restarted
  travel    := { odometer := s.travel.odometer }
  ceiling   := restartCeiling s.settings.caps
  gov       := {}
  arms      := {}
  spray     := {}
  scan      := {}
  output    := s.output.restarted s.freeCount
  links     := { drive := s.links.drive.restarted, body := s.links.body.restarted }
  notices   := { alarms := s.notices.alarms.map fun a => { a with present := false } }
  bank      := { tallies := s.bank.tallies, snapDrive := s.bank.snapDrive, snapBody := s.bank.snapBody }
  settings  := s.settings
  freeCount := s.freeCount + 18
  pending   := s.pending

/-! ### Answers (R177) -/

/-- What a block answers: a code and the answer data. -/
structure Reply where
  code : Code
  data : List Byte := []
  deriving DecidableEq, Repr

/-- Eleven bytes of answer data, 0 beyond the end of a list (R178); an answer that carries no data has eleven zeros
(entry 45). -/
def answerData (data : List Byte) : Vector Byte 11 := Vector.ofFn fun i => data.getD i.val 0

/-- The answer buffer of a link takes an answer (R177). -/
def State.putAnswer (l : Link) (kind tag : Byte) (r : Reply) (s : State) : State :=
  s.modLink l fun x => { x with answer := { kind := kind, tag := tag, code := r.code, data := answerData r.data } }

/-! ### The state gate and routing (R180) -/

/-- The kinds that pass the gate in RETURNED: NULL, the read requests (1 to 6, 28, 30 and 34), CLEAR_ALARM, ACK_EVENTS,
SET_EVENT_MASK, RESUME and RESTART (R179, R180). -/
def passesReturned (kind : Nat) : Bool :=
  kind ≤ 6 || kind == 28 || kind == 30 || kind == 34 || kind == 29 || kind == 31 || kind == 32 || kind == 35 ||
    kind == 36

/-- A request comes to its owner in a link state (R180): a kind above 36 in every state, to be answered UNKNOWN; any kind
in LIVE; the kinds named above in RETURNED; none in LOST. WAITING never comes to the gate. -/
def gatePasses (kind : Nat) : LinkState → Bool
  | .live => true
  | .returned => passesReturned kind || decide (36 < kind)
  | .lost | .waiting => decide (36 < kind)

/-- A complete frame that passed its CRC, handled at its release: time passes; a frame marked at a joint restart is
discarded without being counted (R188); otherwise the three steps of R180, and the answer stands in the answer buffer
with the kind and tag of the request (R177). -/
def State.serve (h : Head) (kind : Nat) (act : State → State × Reply) (s : State) : State :=
  let s := s.elapse h.after
  if (s.link h.link).discard then s.modLink h.link fun x => { x with selected := false, discard := false }
  else
    let s := s.receive h
    let out := if gatePasses kind (s.link h.link).state then act s else (s, { code := .state })
    out.1.putAnswer h.link (BitVec.ofNat 8 kind) h.tag out.2

/-- A request whose own rule gives no next step: only an answer. -/
def answer (code : Code) (s : State) : State × Reply := (s, { code := code })

/-- A request that only the body link makes; from the drive link it is answered DENIED. -/
def bodyOnly (l : Link) (act : State → State × Reply) (s : State) : State × Reply :=
  match l with
  | .drive => answer .denied s
  | .body => act s

end Sys2Proof.Machine
end

