-- ==== Sys2Proof/Machine/Operands.lean ====
section
/-! DEFINITION. The bytes of the frames: the CRC-8 of R176, the field widths of R178, and the layout of a request frame
(R174, R178, R179), read into a command by `readFrame` and written by `frameOf`. -/

namespace Sys2Proof.Machine

/-! ### CRC-8 (R176) -/

/-- One shift of the CRC register: left, and 0x07 combined in when the bit shifted out is 1. -/
def crcShift (r : Byte) : Byte := if r.getLsbD 7 then (r <<< 1) ^^^ 0x07 else r <<< 1

/-- One byte is combined into the register, which is then shifted eight times. -/
def crcByte (r b : Byte) : Byte :=
  crcShift (crcShift (crcShift (crcShift (crcShift (crcShift (crcShift (crcShift (r ^^^ b))))))))

/-- The CRC-8 of a list of bytes, from a register of 0xFF (R176). -/
def crc8 (bytes : List Byte) : Byte := bytes.foldl crcByte 0xFF

/-! ### Fields (R178) -/

/-- A one-byte field. -/
def byte1 (n : Nat) : List Byte := [BitVec.ofNat 8 n]

/-- A two-byte field, least significant byte first. -/
def byte2 (n : Nat) : List Byte := [BitVec.ofNat 8 n, BitVec.ofNat 8 (n / 256)]

/-- A four-byte field, least significant byte first. -/
def byte4 (n : Nat) : List Byte := byte2 n ++ byte2 (n / 65536)

/-- A signed two-byte field in two's complement. -/
def int2 (i : Int) : List Byte := byte2 (BitVec.ofInt 16 i).toNat

/-- A signed four-byte field in two's complement. -/
def int4 (i : Int) : List Byte := byte4 (BitVec.ofInt 32 i).toNat

/-- A yes or no, clear or set, off or on. -/
def bool1 (b : Bool) : List Byte := [if b then 1 else 0]

/-- None is all bits set in the field's width. -/
def opt1 (o : Option Nat) : List Byte := byte1 (o.getD 0xFF)
def opt2 (o : Option Nat) : List Byte := byte2 (o.getD 0xFFFF)

/-- The part of a run of bytes that a read answers: bytes 11p to 11p + 10, with a part that begins beyond the end of the
run answered UNKNOWN (R178; entry 33). -/
def partOf (run : List Byte) (part : Byte) : Reply :=
  if run.length ≤ 11 * part.toNat then { code := .unknown }
  else { code := .done, data := (run.drop (11 * part.toNat)).take 11 }

/-! ### Request frames (R174, R179) -/

/-- The request kind and the parameters of a command that is a request, in the order its rule lists them (R178); none
for a command that is no request. A read's part number stands in byte 13, after its parameters. -/
def requestParts : Instr → Option (Head × Nat × List Byte)
  | .unknownRequestKind h (.kind n) => some (h, 37 + n.val, [])
  | .unknownRequestKind h (.selector n) => some (h, 1, byte1 (8 + n.val))
  | .null h => some (h, 0, [])
  | .readStatusTravel h p => some (h, 1, 0 :: List.replicate 10 0 ++ [p])
  | .readStatusCeilingSummary h p => some (h, 1, 1 :: List.replicate 10 0 ++ [p])
  | .readStatusGovernor h p => some (h, 1, 2 :: List.replicate 10 0 ++ [p])
  | .readStatusArms h p => some (h, 1, 3 :: List.replicate 10 0 ++ [p])
  | .readStatusSpray h p => some (h, 1, 4 :: List.replicate 10 0 ++ [p])
  | .readStatusTankAndPump h p => some (h, 1, 5 :: List.replicate 10 0 ++ [p])
  | .readStatusLinks h p => some (h, 1, 6 :: List.replicate 10 0 ++ [p])
  | .readStatusModeAndProgram h p => some (h, 1, 7 :: List.replicate 10 0 ++ [p])
  | .readCeilingEntry h x p => some (h, 2, x :: List.replicate 10 0 ++ [p])
  | .readChannel h x p => some (h, 3, x :: List.replicate 10 0 ++ [p])
  | .readScan h x p => some (h, 4, x :: List.replicate 10 0 ++ [p])
  | .readProgram h x y p => some (h, 5, x :: y :: List.replicate 9 0 ++ [p])
  | .readSetting h g i k p => some (h, 6, g :: i :: k :: List.replicate 8 0 ++ [p])
  | .writeSetting h g i k v => some (h, 7, [g, i, k, lowByte v, highByte v])
  | .sweepStart h => some (h, 8, [])
  | .sweepEnd h => some (h, 9, [])
  | .serviceEnter h => some (h, 10, [])
  | .serviceLeave h => some (h, 11, [])
  | .openEdit h x => some (h, 12, [x])
  | .writeField h f p v => some (h, 13, f :: p :: (fieldLabel v).toList)
  | .commitEdit h => some (h, 14, [])
  | .abandonEdit h => some (h, 15, [])
  | .eraseProgram h x => some (h, 16, [x])
  | .selectProgram h x => some (h, 17, [x])
  | .driveDemand h d m => some (h, 18, [d, lowByte m, highByte m])
  | .armLower h x => some (h, 19, [x])
  | .armRaise h x => some (h, 20, [x])
  | .armClear h x => some (h, 21, [x])
  | .broomClearJam h => some (h, 22, [])
  | .sprayEnable h x y => some (h, 23, [x, y])
  | .clearSprayFault h => some (h, 24, [])
  | .clearChannelFault h x => some (h, 25, [x])
  | .directDrive h x v => some (h, 26, [x, lowByte v, highByte v])
  | .directRelease h x => some (h, 27, [x])
  | .readAlarm h x p => some (h, 28, x :: List.replicate 10 0 ++ [p])
  | .clearAlarm h x y => some (h, 29, [x, y])
  | .readEvents h p => some (h, 30, List.replicate 11 0 ++ [p])
  | .ackEvents h k => some (h, 31, [lowByte k, highByte k])
  | .setEventMask h k => some (h, 32, [lowByte k, highByte k])
  | .takeSnapshot h x => some (h, 33, [x])
  | .readSnapshot h x p => some (h, 34, x :: List.replicate 10 0 ++ [p])
  | .resume h => some (h, 35, [])
  | .restart h => some (h, 36, [])
  | .powerOnReset _ | .chipSelectAssert _ _ | .shortFrame _ _ | .crcFailure _ _ _ _ | .deadlineExpiry _ _
  | .restartWindowExpiry _ | .wheelEdge _ _ _ | .travelUpdateExpiry _ | .pulseTimeoutExpiry _ _ | .slipHoldExpiry _
  | .cycleBoundary _ | .halfCycleMark _ | .claimIdleTimerExpiry _ | .drivePeriodExpiry _ | .settleExpiry _
  | .stallTimerExpiry _ | .armPeriodExpiry _ | .lowerExpiry _ _ | .raiseExpiry _ _ | .yieldLiftExpiry _ _
  | .yieldSettleExpiry _ _ | .jamHoldExpiry _ | .sprayPumpPeriodExpiry _ | .pulseEnd _ _ | .fastScanTrigger _
  | .slowScanTrigger _ | .slowSettleEnd _ | .conversionEnd _ _ | .conversionTimeout _ | .currentSample _ _
  | .openTimerExpiry _ _ | .ditherPartEnd _ _ | .sweepSecond _ => none

/-- Bytes 0 to 14 of a request frame: kind, tag, twelve parameter bytes, liveness count (R174). -/
def frameBody (h : Head) (kind : Nat) (params : List Byte) : List Byte :=
  [BitVec.ofNat 8 kind, h.tag] ++ (params ++ List.replicate (12 - params.length) 0) ++ [h.live]

/-- The sixteen bytes of the request frame that a command stands for, its CRC last (R174, R176). -/
def frameOf (i : Instr) : Option (List Byte) :=
  (requestParts i).map fun r => frameBody r.1 r.2.1 r.2.2 ++ [crc8 (frameBody r.1 r.2.1 r.2.2)]

/-- Two bytes as a word, least significant byte first (R178). -/
def word (lo hi : Byte) : Half := hi ++ lo

/-- The value of a WRITE_FIELD from its eight bytes, in the width of its field (R178). -/
def readFieldValue (field : Byte) (v : Vector Byte 8) : FieldValue :=
  if field.toNat == 1 then .label v
  else if field.toNat == 14 || field.toNat == 16 then .point (word v[0] v[1]) (word v[2] v[3])
  else .word (word v[0] v[1])

/-- The READ_STATUS command of a selector; the port answers a selector above 7 (R179, R180). -/
def readStatusOf (h : Head) (selector part : Byte) : Instr :=
  match selector.toNat with
  | 0 => .readStatusTravel h part
  | 1 => .readStatusCeilingSummary h part
  | 2 => .readStatusGovernor h part
  | 3 => .readStatusArms h part
  | 4 => .readStatusSpray h part
  | 5 => .readStatusTankAndPump h part
  | 6 => .readStatusLinks h part
  | 7 => .readStatusModeAndProgram h part
  | n => .unknownRequestKind h (.selector (Fin.ofNat 248 (n - 8)))

/-- The request that a kind and twelve parameter bytes spell (R178, R179). -/
def requestOf (h : Head) (kind : Byte) (p : Vector Byte 12) : Instr :=
  match kind.toNat with
  | 0 => .null h
  | 1 => readStatusOf h p[0] p[11]
  | 2 => .readCeilingEntry h p[0] p[11]
  | 3 => .readChannel h p[0] p[11]
  | 4 => .readScan h p[0] p[11]
  | 5 => .readProgram h p[0] p[1] p[11]
  | 6 => .readSetting h p[0] p[1] p[2] p[11]
  | 7 => .writeSetting h p[0] p[1] p[2] (word p[3] p[4])
  | 8 => .sweepStart h
  | 9 => .sweepEnd h
  | 10 => .serviceEnter h
  | 11 => .serviceLeave h
  | 12 => .openEdit h p[0]
  | 13 => .writeField h p[0] p[1] (readFieldValue p[0] #v[p[2], p[3], p[4], p[5], p[6], p[7], p[8], p[9]])
  | 14 => .commitEdit h
  | 15 => .abandonEdit h
  | 16 => .eraseProgram h p[0]
  | 17 => .selectProgram h p[0]
  | 18 => .driveDemand h p[0] (word p[1] p[2])
  | 19 => .armLower h p[0]
  | 20 => .armRaise h p[0]
  | 21 => .armClear h p[0]
  | 22 => .broomClearJam h
  | 23 => .sprayEnable h p[0] p[1]
  | 24 => .clearSprayFault h
  | 25 => .clearChannelFault h p[0]
  | 26 => .directDrive h p[0] (word p[1] p[2])
  | 27 => .directRelease h p[0]
  | 28 => .readAlarm h p[0] p[11]
  | 29 => .clearAlarm h p[0] p[1]
  | 30 => .readEvents h p[11]
  | 31 => .ackEvents h (word p[0] p[1])
  | 32 => .setEventMask h (word p[0] p[1])
  | 33 => .takeSnapshot h p[0]
  | 34 => .readSnapshot h p[0] p[11]
  | 35 => .resume h
  | 36 => .restart h
  | n => .unknownRequestKind h (.kind (Fin.ofNat 219 (n - 37)))

/-- The command that a frame on a link is at the release of chip select (R175, R176, R180): fewer than sixteen bytes are a
short frame, bytes after the sixteenth are ignored, a wrong CRC is a CRC failure, and the rest is a request. -/
def readFrame (after : Nat) (link : Link) (bytes : List Byte) : Instr :=
  if bytes.length < 16 then .shortFrame after link
  else
    let b := fun i => bytes.getD i 0
    if crc8 (bytes.take 15) ≠ b 15 then .crcFailure after link (b 0) (b 1)
    else requestOf ⟨link, b 1, b 14, after⟩ (b 0)
      #v[b 2, b 3, b 4, b 5, b 6, b 7, b 8, b 9, b 10, b 11, b 12, b 13]

end Sys2Proof.Machine
end

