-- ==== Sys2Proof/Machine/Flags.lean ====
section
/-! DEFINITION. The summary flags (R174), the attention lines (R196), and the answer frame formed at the assertion of chip
select (R175). -/

namespace Sys2Proof.Machine

/-- At least one kind is pending in a set and enabled in its mask (R196). -/
def EventSet.attention (e : EventSet) : Bool := e.pending &&& e.mask != 0

/-- A link's attention line is driven low (R196). -/
def State.attentionLow (s : State) (l : Link) : Bool := (s.notices.events l).attention

/-- The alarm list holds an entry whose condition is present (R190). -/
def State.alarmPresent (s : State) : Bool := s.notices.alarms.any fun a => a.present

/-- The number of a link state in the summary flags (R174) and in the links status (R189). -/
def LinkState.number : LinkState → Nat
  | .waiting => 0
  | .live => 1
  | .lost => 2
  | .returned => 3

/-- A bit of the summary flags. -/
def flagBit (b : Bool) (k : Nat) : Nat := if b then 2 ^ k else 0

/-- The summary flags of a link as the state stands (R174). -/
def State.summary (s : State) (l : Link) : Byte :=
  BitVec.ofNat 8 (flagBit (s.attentionLow l) 0 + flagBit s.alarmPresent 1 +
    flagBit (s.unit.staging.any fun g => g.holder == l) 2 + flagBit s.links.window.isSome 3 +
    16 * (s.link l).state.number)

/-- Bytes 0 to 13 of an answer frame: the content of the answer buffer (R174, R175). -/
def Answer.bytes (a : Answer) : List Byte := [a.kind, a.tag, a.code.byte] ++ a.data.toList

/-- The answer frame of a link: the answer buffer, the summary flags of the moment, and the CRC-8 (R174 to R176). -/
def State.answerFrame (s : State) (l : Link) : Vector Byte 16 :=
  let body := (s.link l).answer.bytes ++ [s.summary l]
  Vector.ofFn fun i => (body ++ [crc8 body]).getD i.val 0

/-- The byte that the controller sends in a place of an exchange: the answer frame's, and 0xFF after the sixteenth
(R175). -/
def State.sentByte (s : State) (l : Link) (place : Nat) : Byte := (s.link l).outFrame[place]?.getD 0xFF

end Sys2Proof.Machine
end

