-- ==== Sys2Proof/Machine/Settings.lean ====
section
/-! DEFINITION. The settings (R181, R182): their addresses, owners, ranges and cross-checks, the value held, and what a
taken write does. -/

namespace Sys2Proof.Machine

/-- Every setting of the controller, group by group, in the order of the owning rules' tables (R181). -/
inductive Setting
  | pitchLeft | pitchRight | pulseTimeout | spinLimit | slipHold
  | transportMax | shiftSpeed | armMove | yieldCap | slope1 | slopeCap1 | slope2 | slopeCap2 | traction | oilLimit
  | oilCap | sensorCap | crawl
  | iStart | iFull | vFullWork | vFullTransport | kDiv | trimLimit | stopDecel | accel | decel | settle
  | yieldLift | yieldSettle | strikeWindow | strikeLimit | jamHold | jamWindow
  | flowLeft | flowRight | flowMain | mMin | setpoint | band | dutyStep | startDuty | dry | tankLow | tankEmpty
  | hysteresis
  | count (ch : Fin 9) | offset (ch : Fin 9) | span (ch : Fin 9)
  | mode (c : Fin 4) | low (c : Fin 4) | high (c : Fin 4) | filter (c : Fin 4) | cut (c : Fin 4)
  | iLow (ch : Channel) | iHigh (ch : Channel) | ditherHigh (ch : Channel) | ditherLow (ch : Channel)
  | amplitude (ch : Channel)
  deriving DecidableEq, Repr

/-! ### Addresses (R181) -/

/-- The items of the groups with index 0: 1 travel (R31), 2 caps (R49), 3 drive governor (R65), 4 arms (R92), 5 spray
(R116). -/
def singleItems : Nat → List Setting
  | 1 => [.pitchLeft, .pitchRight, .pulseTimeout, .spinLimit, .slipHold]
  | 2 => [.transportMax, .shiftSpeed, .armMove, .yieldCap, .slope1, .slopeCap1, .slope2, .slopeCap2, .traction,
          .oilLimit, .oilCap, .sensorCap, .crawl]
  | 3 => [.iStart, .iFull, .vFullWork, .vFullTransport, .kDiv, .trimLimit, .stopDecel, .accel, .decel, .settle]
  | 4 => [.yieldLift, .yieldSettle, .strikeWindow, .strikeLimit, .jamHold, .jamWindow]
  | 5 => [.flowLeft, .flowRight, .flowMain, .mMin, .setpoint, .band, .dutyStep, .startDuty, .dry, .tankLow, .tankEmpty,
          .hysteresis]
  | _ => []

/-- The items of a scan channel (group 6, R143). -/
def scanItems (ch : Fin 9) : List Setting := [.count ch, .offset ch, .span ch]

/-- The items of a comparator (group 7, R148); cut enable exists for comparators 2 and 3 only. -/
def compItems (c : Fin 4) : List Setting :=
  [.mode c, .low c, .high c, .filter c] ++ (if 2 ≤ c.val then [.cut c] else [])

/-- The item of an output channel (group 8, R161): PROP channels only, with no I_low and I_high on channels 0 and 1. -/
def channelItem (ch : Channel) (item : Nat) : Option Setting :=
  if !isPropChannel ch then none
  else match item with
    | 0 => if isRanged ch then some (.iLow ch) else none
    | 1 => if isRanged ch then some (.iHigh ch) else none
    | 2 => some (.ditherHigh ch)
    | 3 => some (.ditherLow ch)
    | 4 => some (.amplitude ch)
    | _ => none

/-- The setting at an address, none where none exists (R181, R182). -/
def settingAt (group index item : Nat) : Option Setting :=
  match group with
  | 6 => if h : index < 9 then (scanItems ⟨index, h⟩)[item]? else none
  | 7 => if h : index < 4 then (compItems ⟨index, h⟩)[item]? else none
  | 8 => (channelOf index).bind fun ch => channelItem ch item
  | g => if index = 0 then (singleItems g)[item]? else none

/-! ### Owners -/

/-- The settings link of an analog channel (R141). -/
def scanOwner (ch : Fin 9) : Link := if ch.val ≤ 1 ∨ 7 ≤ ch.val then .drive else .body

/-- The settings link of an output channel (the channel table of 00_scope.md). -/
def channelOwner (ch : Channel) : Link := if ch.val ≤ 2 then .drive else .body

/-- The settings link of a comparator (R148). -/
def compOwner (c : Fin 4) : Link := if c.val = 3 then .drive else .body

/-- The link that owns a setting (R181). -/
def Setting.owner : Setting → Link
  | .pitchLeft | .pitchRight | .pulseTimeout | .spinLimit | .slipHold
  | .transportMax | .shiftSpeed | .armMove | .yieldCap | .slope1 | .slopeCap1 | .slope2 | .slopeCap2 | .traction
  | .oilLimit | .oilCap | .sensorCap | .crawl
  | .iStart | .iFull | .vFullWork | .vFullTransport | .kDiv | .trimLimit | .stopDecel | .accel | .decel | .settle =>
    .drive
  | .yieldLift | .yieldSettle | .strikeWindow | .strikeLimit | .jamHold | .jamWindow
  | .flowLeft | .flowRight | .flowMain | .mMin | .setpoint | .band | .dutyStep | .startDuty | .dry | .tankLow
  | .tankEmpty | .hysteresis => .body
  | .count ch | .offset ch | .span ch => scanOwner ch
  | .mode c | .low c | .high c | .filter c | .cut c => compOwner c
  | .iLow ch | .iHigh ch | .ditherHigh ch | .ditherLow ch | .amplitude ch => channelOwner ch

/-! ### Ranges and cross-checks -/

/-- The upper end of a threshold of a comparator: that of its input's result range (R141, R148). -/
def compLimit (c : Fin 4) : Int := if c.val = 3 then 5000 else 3000

/-- The range of a setting. An addition count has its four values beside (R143). -/
def Setting.range : Setting → Int × Int
  | .pitchLeft | .pitchRight => (10, 500)
  | .pulseTimeout => (200, 2000)
  | .spinLimit => (1000, 8000)
  | .slipHold => (500, 5000)
  | .transportMax => (1000, 8000)
  | .shiftSpeed => (300, 2000)
  | .armMove | .yieldCap | .crawl => (200, 2000)
  | .slope1 | .slope2 => (20, 300)
  | .slopeCap1 | .slopeCap2 | .traction | .oilCap | .sensorCap => (200, 4000)
  | .oilLimit => (650, 1200)
  | .iStart => (0, 1000)
  | .iFull => (400, 2000)
  | .vFullWork => (500, 5000)
  | .vFullTransport => (2000, 9000)
  | .kDiv => (10, 500)
  | .trimLimit => (0, 500)
  | .stopDecel => (1000, 5000)
  | .accel => (100, 2000)
  | .decel => (100, 2500)
  | .settle => (100, 1000)
  | .yieldLift => (100, 1000)
  | .yieldSettle => (100, 2000)
  | .strikeWindow => (1000, 10000)
  | .strikeLimit => (2, 5)
  | .jamHold => (500, 5000)
  | .jamWindow => (10, 60)
  | .flowLeft | .flowRight | .flowMain => (10, 2550)
  | .mMin => (10, 50)
  | .setpoint => (10, 60)
  | .band => (1, 10)
  | .dutyStep => (5, 100)
  | .startDuty => (100, 800)
  | .dry => (5, 30)
  | .tankLow => (0, 500)
  | .tankEmpty => (0, 200)
  | .hysteresis => (10, 100)
  | .count _ => (1, 8)
  | .offset _ => (-2000, 2000)
  | .span _ => (1, 6000)
  | .mode _ => (0, 2)
  | .low c | .high c => (0, compLimit c)
  | .filter _ => (1, 15)
  | .cut _ => (0, 1)
  | .iLow _ | .iHigh _ => (0, 2000)
  | .ditherHigh _ | .ditherLow _ => (1, 40)
  | .amplitude _ => (0, 200)

/-- The cross-checks of the owning rules against the values held (R49, R65, R116, R143, R148, R161). -/
def crossCheck (x : Settings) (v : Int) : Setting → Bool
  | .slope1 => decide (v + 20 ≤ x.caps.slope2)
  | .slope2 => decide ((x.caps.slope1 : Int) + 20 ≤ v)
  | .iStart => decide (v ≤ x.governor.iFull)
  | .iFull => decide ((x.governor.iStart : Int) ≤ v)
  | .tankLow => decide ((x.spray.tankEmpty : Int) < v)
  | .tankEmpty => decide (v < x.spray.tankLow)
  | .count _ => v == 1 || v == 2 || v == 4 || v == 8
  | .low c => decide (v ≤ x.comps[c].high)
  | .high c => decide ((x.comps[c].low : Int) ≤ v)
  | .iLow ch => decide (v ≤ x.ranges[ch].high)
  | .iHigh ch => decide ((x.ranges[ch].low : Int) ≤ v)
  | _ => true

/-- A value is within a setting's range and passes its cross-check (R182). -/
def Setting.accepts (x : Settings) (v : Int) (k : Setting) : Bool :=
  decide (k.range.1 ≤ v) && decide (v ≤ k.range.2) && crossCheck x v k

/-! ### The value held -/

/-- The codes of a comparator mode, from 0 in the order of R148. -/
def CompMode.number : CompMode → Nat
  | .above => 0 | .below => 1 | .outside => 2
def CompMode.ofNumber : Nat → CompMode
  | 0 => .above | 1 => .below | _ => .outside

/-- The value that READ_SETTING answers: the one held, or the pending one of a dither setting (R182). -/
def State.settingValue (s : State) : Setting → Int
  | .pitchLeft => s.settings.travel.pitchLeft
  | .pitchRight => s.settings.travel.pitchRight
  | .pulseTimeout => s.settings.travel.pulseTimeout
  | .spinLimit => s.settings.travel.spinLimit
  | .slipHold => s.settings.travel.slipHold
  | .transportMax => s.settings.caps.transportMax
  | .shiftSpeed => s.settings.caps.shiftSpeed
  | .armMove => s.settings.caps.armMove
  | .yieldCap => s.settings.caps.yieldCap
  | .slope1 => s.settings.caps.slope1
  | .slopeCap1 => s.settings.caps.slopeCap1
  | .slope2 => s.settings.caps.slope2
  | .slopeCap2 => s.settings.caps.slopeCap2
  | .traction => s.settings.caps.traction
  | .oilLimit => s.settings.caps.oilLimit
  | .oilCap => s.settings.caps.oilCap
  | .sensorCap => s.settings.caps.sensorCap
  | .crawl => s.settings.caps.crawl
  | .iStart => s.settings.governor.iStart
  | .iFull => s.settings.governor.iFull
  | .vFullWork => s.settings.governor.vFullWork
  | .vFullTransport => s.settings.governor.vFullTransport
  | .kDiv => s.settings.governor.kDiv
  | .trimLimit => s.settings.governor.trimLimit
  | .stopDecel => s.settings.governor.stopDecel
  | .accel => s.settings.governor.accel
  | .decel => s.settings.governor.decel
  | .settle => s.settings.governor.settle
  | .yieldLift => s.settings.arms.yieldLift
  | .yieldSettle => s.settings.arms.yieldSettle
  | .strikeWindow => s.settings.arms.strikeWindow
  | .strikeLimit => s.settings.arms.strikeLimit
  | .jamHold => s.settings.arms.jamHold
  | .jamWindow => s.settings.arms.jamWindow
  | .flowLeft => s.settings.spray.flowLeft
  | .flowRight => s.settings.spray.flowRight
  | .flowMain => s.settings.spray.flowMain
  | .mMin => s.settings.spray.mMin
  | .setpoint => s.settings.spray.setpoint
  | .band => s.settings.spray.band
  | .dutyStep => s.settings.spray.dutyStep
  | .startDuty => s.settings.spray.startDuty
  | .dry => s.settings.spray.dry
  | .tankLow => s.settings.spray.tankLow
  | .tankEmpty => s.settings.spray.tankEmpty
  | .hysteresis => s.settings.spray.hysteresis
  | .count ch => s.settings.scan[ch].count
  | .offset ch => s.settings.scan[ch].offset
  | .span ch => s.settings.scan[ch].span
  | .mode c => s.settings.comps[c].mode.number
  | .low c => s.settings.comps[c].low
  | .high c => s.settings.comps[c].high
  | .filter c => s.settings.comps[c].filter
  | .cut c => if s.settings.comps[c].cut then 1 else 0
  | .iLow ch => s.settings.ranges[ch].low
  | .iHigh ch => s.settings.ranges[ch].high
  | .ditherHigh ch => s.output.channels[ch].carrier.nextHigh.getD s.output.channels[ch].carrier.high
  | .ditherLow ch => s.output.channels[ch].carrier.nextLow.getD s.output.channels[ch].carrier.low
  | .amplitude ch => s.output.channels[ch].carrier.nextAmp.getD s.output.channels[ch].carrier.amp

/-- The value is a pending one of a dither setting (R182). -/
def State.settingPending (s : State) : Setting → Bool
  | .ditherHigh ch => s.output.channels[ch].carrier.nextHigh.isSome
  | .ditherLow ch => s.output.channels[ch].carrier.nextLow.isSome
  | .amplitude ch => s.output.channels[ch].carrier.nextAmp.isSome
  | _ => false

/-! ### A taken write -/

def Settings.modTravel (f : TravelSettings → TravelSettings) (x : Settings) : Settings := { x with travel := f x.travel }
def Settings.modCaps (f : CapSettings → CapSettings) (x : Settings) : Settings := { x with caps := f x.caps }
def Settings.modGovernor (f : GovernorSettings → GovernorSettings) (x : Settings) : Settings :=
  { x with governor := f x.governor }
def Settings.modArms (f : ArmSettings → ArmSettings) (x : Settings) : Settings := { x with arms := f x.arms }
def Settings.modSpray (f : SpraySettings → SpraySettings) (x : Settings) : Settings := { x with spray := f x.spray }
def Settings.modScan (ch : Fin 9) (f : ScanSettings → ScanSettings) (x : Settings) : Settings :=
  { x with scan := x.scan.set ch (f x.scan[ch]) }
def Settings.modComp (c : Fin 4) (f : CompSettings → CompSettings) (x : Settings) : Settings :=
  { x with comps := x.comps.set c (f x.comps[c]) }
def Settings.modRange (ch : Channel) (f : RangeSettings → RangeSettings) (x : Settings) : Settings :=
  { x with ranges := x.ranges.set ch (f x.ranges[ch]) }

/-- The settings after a taken write; a dither setting stands in its carrier, not here. -/
def Settings.put (v : Int) (x : Settings) : Setting → Settings
  | .pitchLeft => x.modTravel fun y => { y with pitchLeft := v.toNat }
  | .pitchRight => x.modTravel fun y => { y with pitchRight := v.toNat }
  | .pulseTimeout => x.modTravel fun y => { y with pulseTimeout := v.toNat }
  | .spinLimit => x.modTravel fun y => { y with spinLimit := v.toNat }
  | .slipHold => x.modTravel fun y => { y with slipHold := v.toNat }
  | .transportMax => x.modCaps fun y => { y with transportMax := v.toNat }
  | .shiftSpeed => x.modCaps fun y => { y with shiftSpeed := v.toNat }
  | .armMove => x.modCaps fun y => { y with armMove := v.toNat }
  | .yieldCap => x.modCaps fun y => { y with yieldCap := v.toNat }
  | .slope1 => x.modCaps fun y => { y with slope1 := v.toNat }
  | .slopeCap1 => x.modCaps fun y => { y with slopeCap1 := v.toNat }
  | .slope2 => x.modCaps fun y => { y with slope2 := v.toNat }
  | .slopeCap2 => x.modCaps fun y => { y with slopeCap2 := v.toNat }
  | .traction => x.modCaps fun y => { y with traction := v.toNat }
  | .oilLimit => x.modCaps fun y => { y with oilLimit := v.toNat }
  | .oilCap => x.modCaps fun y => { y with oilCap := v.toNat }
  | .sensorCap => x.modCaps fun y => { y with sensorCap := v.toNat }
  | .crawl => x.modCaps fun y => { y with crawl := v.toNat }
  | .iStart => x.modGovernor fun y => { y with iStart := v.toNat }
  | .iFull => x.modGovernor fun y => { y with iFull := v.toNat }
  | .vFullWork => x.modGovernor fun y => { y with vFullWork := v.toNat }
  | .vFullTransport => x.modGovernor fun y => { y with vFullTransport := v.toNat }
  | .kDiv => x.modGovernor fun y => { y with kDiv := v.toNat }
  | .trimLimit => x.modGovernor fun y => { y with trimLimit := v.toNat }
  | .stopDecel => x.modGovernor fun y => { y with stopDecel := v.toNat }
  | .accel => x.modGovernor fun y => { y with accel := v.toNat }
  | .decel => x.modGovernor fun y => { y with decel := v.toNat }
  | .settle => x.modGovernor fun y => { y with settle := v.toNat }
  | .yieldLift => x.modArms fun y => { y with yieldLift := v.toNat }
  | .yieldSettle => x.modArms fun y => { y with yieldSettle := v.toNat }
  | .strikeWindow => x.modArms fun y => { y with strikeWindow := v.toNat }
  | .strikeLimit => x.modArms fun y => { y with strikeLimit := v.toNat }
  | .jamHold => x.modArms fun y => { y with jamHold := v.toNat }
  | .jamWindow => x.modArms fun y => { y with jamWindow := v.toNat }
  | .flowLeft => x.modSpray fun y => { y with flowLeft := v.toNat }
  | .flowRight => x.modSpray fun y => { y with flowRight := v.toNat }
  | .flowMain => x.modSpray fun y => { y with flowMain := v.toNat }
  | .mMin => x.modSpray fun y => { y with mMin := v.toNat }
  | .setpoint => x.modSpray fun y => { y with setpoint := v.toNat }
  | .band => x.modSpray fun y => { y with band := v.toNat }
  | .dutyStep => x.modSpray fun y => { y with dutyStep := v.toNat }
  | .startDuty => x.modSpray fun y => { y with startDuty := v.toNat }
  | .dry => x.modSpray fun y => { y with dry := v.toNat }
  | .tankLow => x.modSpray fun y => { y with tankLow := v.toNat }
  | .tankEmpty => x.modSpray fun y => { y with tankEmpty := v.toNat }
  | .hysteresis => x.modSpray fun y => { y with hysteresis := v.toNat }
  | .count ch => x.modScan ch fun y => { y with count := v.toNat }
  | .offset ch => x.modScan ch fun y => { y with offset := v }
  | .span ch => x.modScan ch fun y => { y with span := v.toNat }
  | .mode c => x.modComp c fun y => { y with mode := CompMode.ofNumber v.toNat }
  | .low c => x.modComp c fun y => { y with low := v.toNat }
  | .high c => x.modComp c fun y => { y with high := v.toNat }
  | .filter c => x.modComp c fun y => { y with filter := v.toNat }
  | .cut c => x.modComp c fun y => { y with cut := v == 1 }
  | .iLow ch => x.modRange ch fun y => { y with low := v.toNat }
  | .iHigh ch => x.modRange ch fun y => { y with high := v.toNat }
  | .ditherHigh _ | .ditherLow _ | .amplitude _ => x

/-- A pending dither value: none where the value is the one loaded (R164). -/
def pendingValue (loaded : Nat) (v : Int) : Option Nat := if v.toNat = loaded then none else some v.toNat

/-- A taken dither write (R164): the value stands as pending, and a carrier at rest loads at once. -/
def Carrier.settle (k : Carrier) : Carrier := if k.part = .rest then k.load else k

/-- Changes a channel's carrier. -/
def State.modCarrier (ch : Channel) (f : Carrier → Carrier) (s : State) : State :=
  s.modOutput fun o => o.modChannel ch fun c => { c with carrier := f c.carrier }

/-- The owner of a cap posts an update cap for a taken cap setting, whether the entry is active or not; the MODE cap is
that of the mode, and SLOPE's is posted at levels 1 and 2 only (R49). -/
def State.postCap (k : Setting) (s : State) : State :=
  match k with
  | .transportMax => s.writeModeCap
  | .shiftSpeed => s.updateCap .rangeShift s.settings.caps.shiftSpeed
  | .armMove => s.updateCap .armTransition s.settings.caps.armMove
  | .yieldCap => s.updateCap .armYield s.settings.caps.yieldCap
  | .slopeCap1 | .slopeCap2 =>
    if s.scan.slope = .zero then s else s.updateCap .slope (slopeCap s.settings.caps s.scan.slope)
  | .traction => s.updateCap .traction s.settings.caps.traction
  | .oilCap => s.updateCap .oilHot s.settings.caps.oilCap
  | .sensorCap => s.updateCap .sensorFault s.settings.caps.sensorCap
  | .crawl => s.updateCap .bodyLoss s.settings.caps.crawl
  | _ => s

/-- The further effects of a taken write: the cap posts (R49), the filter counter of a written comparator becomes 0
(R148), and a dither value goes to its carrier (R164). -/
def State.settingEffects (k : Setting) (v : Int) (s : State) : State :=
  match k with
  | .mode c | .low c | .high c | .filter c | .cut c =>
    s.modScan fun x => { x with comps := x.comps.set c { x.comps[c] with counter := 0 } }
  | .ditherHigh ch => s.modCarrier ch fun k => { k with nextHigh := pendingValue k.high v }.settle
  | .ditherLow ch => s.modCarrier ch fun k => { k with nextLow := pendingValue k.low v }.settle
  | .amplitude ch => s.modCarrier ch fun k => { k with nextAmp := pendingValue k.amp v }.settle
  | k => s.postCap k

/-- A taken write of a setting (R182). -/
def State.takeSetting (k : Setting) (v : Int) (s : State) : State :=
  (s.modSettings fun x => x.put v k).settingEffects k v

/-- Settings may be written (R182): TRANSPORT or SERVICE, ground speed 0, speed reference 0. -/
def State.settingsOpen (s : State) : Bool :=
  (s.unit.mode == .transport || s.unit.mode == .service) && s.travel.ground == 0 && s.gov.vRef == 0

/-- WRITE_SETTING at its owner (R182). -/
def State.writeSetting (l : Link) (group index item : Byte) (value : Half) (s : State) : State × Reply :=
  match settingAt group.toNat index.toNat item.toNat with
  | none => answer .unknown s
  | some k =>
    if k.owner ≠ l then answer .denied s
    else if !s.settingsOpen then answer .state s
    else if !k.accepts s.settings value.toInt then answer .range s
    else answer .done (s.takeSetting k value.toInt)

end Sys2Proof.Machine
end

