-- ==== Sys2Proof/Machine/Reads.lean ====
section
/-! DEFINITION. The runs of bytes that the read requests answer (R178): each read's fields in the order its rule lists
them, in the widths of R178. The codings and places of fields that R178 does not fix are entry 9 of the assumption log; values that a rule
does not state are free values (entry 8). -/

namespace Sys2Proof.Machine

/-! ### Codings of enumerations, from 0 in the order of their rules -/

def Dir.number : Dir → Nat
  | .forward => 0 | .reverse => 1
def DriveDir.number : DriveDir → Nat
  | .neutral => 0 | .forward => 1 | .reverse => 2
def Range.number : Range → Nat
  | .work => 0 | .transport => 1
def Mode.number : Mode → Nat
  | .transport => 0 | .entering => 1 | .sweep => 2 | .leaving => 3 | .service => 4
def Shift.number : Shift → Option Nat
  | .none => Option.none | .waiting => some 0 | .settling => some 1
def ArmState.number : ArmState → Nat
  | .stowed => 0 | .lowering => 1 | .working => 2 | .yielding => 3 | .jammed => 4 | .raising => 5 | .fault => 6
def Phase.number : Phase → Nat
  | .lift => 0 | .settle => 1
def Tank.number : Tank → Nat
  | .normal => 0 | .low => 1 | .empty => 2
def Scope.number : Scope → Nat
  | .forward => 0 | .reverse => 1 | .both => 2
def ChannelKind.number : ChannelKind → Nat
  | .prop => 0 | .switch => 1 | .duty => 2 | .pulse => 3
def ChannelState.number : ChannelState → Nat
  | .off => 0 | .driven => 1 | .cut => 2 | .direct => 3 | .fault => 4
def FaultKind.number : FaultKind → Option Nat
  | .none => Option.none | .openLoad => some 0 | .shortLoad => some 1
def CarrierPart.number : CarrierPart → Nat
  | .rest => 0 | .high => 1 | .low => 2
def SlowItem.number : SlowItem → Nat
  | .a6 => 0 | .a7 => 1 | .a8 => 2 | .reference => 3
def SlowPhase.number : SlowPhase → Nat
  | .settling _ => 0 | .converting => 1 | .waiting => 2
def Link.number : Link → Nat
  | .drive => 0 | .body => 1
def Wheel.number : Wheel → Nat
  | .left => 0 | .right => 1

/-- The direct holder: absent, drive link, body link (R173). -/
def holderNumber : Option Link → Nat
  | none => 0 | some .drive => 1 | some .body => 2

/-- A free value for the field of a read, by the number of free values drawn before it (entry 8). -/
def State.freeField (s : State) (k : Nat) : Nat := Config.freeField (s.freeCount + k)

/-! ### READ_STATUS -/

/-- The travel record (R46). DESIGN CHOICE: R46 gives the period count, acceleration and direction "for each wheel" and states
no order of the wheels; the left wheel's three fields come first, then the right wheel's three (entry 9). -/
def State.travelRun (s : State) : List Byte :=
  let t := s.travel
  let perWheel := fun (w : WheelRec) => byte1 w.history.length ++ int4 w.accel ++ byte1 (Dir.number w.dir)
  byte4 t.left.speed ++ byte4 t.right.speed ++ byte4 t.ground ++ byte1 (Dir.number t.dir) ++ bool1 t.slipHold.isSome ++
    opt1 (t.sensorFault.map Wheel.number) ++ byte4 t.odometer.toNat ++ byte2 t.tickCount.toNat ++
    perWheel t.left ++ perWheel t.right ++ byte2 (remaining s.now t.slipHold)

/-- The set of active slots, bit k for slot k (R62, R178). -/
def CeilingTable.activeSet (t : CeilingTable) : Nat :=
  Source.all.foldl (fun n src => n + flagBit (t.entry src).active src.slot.val) 0

/-- The ceiling summary (R62). -/
def State.ceilingRun (s : State) : List Byte :=
  let t := s.ceiling
  let perDir := fun (d : Dir) => byte2 (t.effective d) ++ byte1 (t.binding d).slot.val ++ bool1 (t.urgent d)
  byte1 (Dir.number t.reportDir) ++ perDir .forward ++ perDir .reverse ++ byte2 t.activeSet ++ byte4 t.lastChange.toNat

/-- The governor status (R85). After a drive cut the trim and the coil current read the 0 that R81 set, from the cut on and
not from the next expiry (entry 41). -/
def State.governorRun (s : State) : List Byte :=
  let g := s.gov
  byte1 (DriveDir.number g.demandDir) ++ byte2 g.demandMag ++ byte1 (DriveDir.number g.held) ++ byte2 g.vRef ++
    byte2 g.target ++ int2 g.trim ++ byte2 g.coil ++ byte1 (Range.number g.setRange) ++
    opt1 (g.requested.map Range.number) ++ opt1 (Shift.number g.shift) ++ byte2 (remaining s.now g.settle) ++
    bool1 g.stallHold ++ byte2 (remaining s.now g.stallTimer) ++ bool1 g.cutSeen ++ byte2 g.ceilingRead ++
    bool1 g.urgentRead

/-- The part of the arms status for one arm; phase and down-force are a side arm's (R113). -/
def State.armRun (s : State) (a : Arm) : List Byte :=
  let r := s.arm a
  byte1 (ArmState.number r.state) ++ (if a = .main then [] else opt1 (r.phase.map Phase.number)) ++ bool1 r.pending ++
    byte2 (remaining s.now r.timer) ++ byte1 r.strikes.length ++ byte4 ((r.strikes.head?.getD 0).toNat) ++ byte2 r.rot ++
    (if a = .main then [] else byte2 r.force)

/-- The arms status (R113). DEDUCED: R113 gives its items "for each of the three arms" and states no order of the arms; they come
in their number order (R86), each with all its items. What R113 then adds for the main broom and for all three comes after
them, in the order it names it (entry 9). -/
def State.armsRun (s : State) : List Byte :=
  s.armRun .left ++ s.armRun .right ++ s.armRun .main ++ bool1 s.arms.lock ++ bool1 s.arms.holdDone ++
    bool1 s.arms.cutSeen ++ bool1 s.arms.dryApplied

/-- The effective dose as read (R138): 0 when the dose is absent; with the tank EMPTY R121 gives none, and a free value
within 0 to 500 stands (entry 8). -/
def State.doseRead (s : State) (b : Bar) (k : Nat) : Nat :=
  match s.inForce.bind fun p => p.dose b with
  | none => 0
  | some _ =>
    if s.spray.tank = .empty then s.freeField k % 501
    else (effectiveDose s.spray.tank s.program b).getD 0

/-- The part of the spray status for one bar (R138); the v_sat of an active bar is sent held to the 8000 at which its field
ends (entry 43). -/
def State.barRun (s : State) (b : Bar) (k : Nat) : List Byte :=
  let x := s.spray.bar b
  bool1 x.enable ++ bool1 x.valveFault ++ bool1 x.active ++ byte2 (x.owed / 10) ++ byte2 x.lastPulse ++
    byte2 (remaining s.now x.pulseEnd) ++ bool1 x.saturated ++ byte2 (s.doseRead b k) ++
    byte2 (if x.active then min 8000 (s.vSat b) else 0)

/-- P of the program in force as read, a free value when there is none (entry 8). -/
def State.periodRead (s : State) (k : Nat) : Nat :=
  match s.inForce with
  | some p => p.period
  | none => s.freeField k % 65536

/-- The spray status (R138). DEDUCED: R138 gives its items "for each of the three bars" and states no order of the bars; they
come in their number order (R114), each with all its items (entry 9). -/
def State.sprayRun (s : State) : List Byte :=
  s.barRun .left 0 ++ s.barRun .right 1 ++ s.barRun .main 2 ++ byte2 (s.periodRead 3) ++
    bool1 (s.ceiling.entry .sprayLimit).active ++ bool1 (s.ceiling.entry .drySweep).active

/-- The tank and pump status (R139). -/
def State.tankRun (s : State) : List Byte :=
  let y := s.spray
  byte1 (Tank.number y.tank) ++ opt2 y.level ++ byte2 y.duty ++ opt2 y.pressure ++ byte1 y.dryCount ++ bool1 y.latch ++
    bool1 (s.output.stateOf 14 == .fault)

/-- One link's part of the links status (R189). -/
def State.linkRun (s : State) (l : Link) : List Byte :=
  let x := s.link l
  byte1 x.state.number ++ byte2 x.deadline ++ byte2 (remaining s.now x.timer) ++ opt2 (x.lastCount.map BitVec.toNat) ++
    byte2 x.accepted.toNat ++ byte2 x.short.toNat ++ byte2 x.crcFail.toNat

/-- The links status, for a requesting link (R189). -/
def State.linksRun (l : Link) (s : State) : List Byte :=
  byte1 (Link.number l) ++ s.linkRun .drive ++ s.linkRun .body ++
    opt1 (s.links.window.map fun w => Link.number w.holder) ++ byte2 (remaining s.now (s.links.window.map (·.expiry)))

/-- The mode and program status (R29). -/
def State.modeRun (s : State) : List Byte :=
  let u := s.unit
  byte1 (Mode.number u.mode) ++ opt1 (u.active.map Fin.val) ++ opt1 (u.swap.map fun w => w.target.val) ++
    opt1 (u.staging.map fun g => Link.number g.holder) ++ opt1 (u.staging.map fun g => g.slot.val) ++
    byte2 (s.periodRead 0) ++ opt2 (u.boundary.map fun e => remaining s.now (some e)) ++
    byte2 (s.ceiling.entry .mode).cap ++ opt1 (u.awaited.map Range.number)

/-! ### The other reads -/

/-- The binding standing of an entry: forward, reverse, both or neither (R61). -/
def CeilingTable.standing (t : CeilingTable) (src : Source) : Nat :=
  match t.binding .forward == src, t.binding .reverse == src with
  | true, false => 0
  | false, true => 1
  | true, true => 2
  | false, false => 3

/-- One ceiling entry (R61). -/
def State.entryRun (s : State) (src : Source) : List Byte :=
  let e := s.ceiling.entry src
  byte1 src.slot.val ++ bool1 e.active ++ byte2 e.cap ++ byte1 (Scope.number src.scope) ++ bool1 src.urgent ++
    byte4 e.since.toNat ++ byte2 e.engagements ++ byte1 (s.ceiling.standing src)

/-- The time an open timer has run, in ms; none when it is stopped (R173). -/
def openRun (now : Micros) (c : ChannelRec) : Option Nat := c.openSince.map fun t => min 200 (since now t / 1000)

/-- The record of a channel (R173). DESIGN CHOICE: R163 gives a carrier to the PROP channels only and a position to a running
carrier only; the dither part and position of a channel without a carrier read rest and 0, and the position of a carrier at
rest reads 0 (entry 9). -/
def State.channelRun (s : State) (ch : Channel) : List Byte :=
  let c := s.output.channels[ch]
  let k := c.carrier
  byte1 (ChannelKind.number (channelKind ch)) ++ byte1 (ChannelState.number (s.output.stateOf ch)) ++ byte2 c.setpoint ++
    byte2 c.target ++ byte2 (c.commandedOn ch) ++
    opt2 (if isPropChannel ch then some (min 4000 c.measured.toNat) else none) ++ opt1 (FaultKind.number c.fault) ++
    byte1 (holderNumber c.holder) ++ byte2 c.level ++ bool1 (s.output.cutFlag ch) ++ byte1 (CarrierPart.number k.part) ++
    byte1 k.pos ++ bool1 (k.nextHigh.isSome || k.nextLow.isSome || k.nextAmp.isSome) ++ opt2 (openRun s.nowUs c)

/-- The result record of an analog channel (R157). -/
def State.resultRun (s : State) (ch : Fin 9) : List Byte :=
  let r := s.scan.results[ch]
  int2 r.value ++ byte2 r.raw ++ bool1 r.stale ++ byte4 r.time.toNat ++ byte1 s.settings.scan[ch].count

/-- A reference's last check (R157). -/
def State.refRun (s : State) (r : Reference) : List Byte :=
  let x := s.scan.ref r
  byte2 x.raw ++ bool1 x.fail ++ byte4 x.time.toNat

/-- The analog channel at a comparator's input, none for comparator 3 in neutral (R148, R157). -/
def inputOf (input3 : DriveDir) (c : Fin 4) : Option Nat :=
  match c with
  | 0 => some 2
  | 1 => some 3
  | 2 => some 4
  | 3 => match input3 with
    | .neutral => none
    | .forward => some 0
    | .reverse => some 1

/-- A comparator (R157). DEDUCED: R157 lists "thresholds" as one item; the low one comes before the high one, as in R148
(entry 9). -/
def State.compRun (s : State) (c : Fin 4) : List Byte :=
  let x := s.scan.comps[c]
  let set := s.settings.comps[c]
  bool1 x.detected ++ byte1 x.counter ++ opt1 (inputOf s.scan.input3 c) ++ byte1 set.mode.number ++ byte2 set.low ++
    byte2 set.high ++ byte1 set.filter ++ bool1 set.cut

/-- The number of a reference (R145). -/
def Reference.number : Reference → Nat
  | .low => 0 | .mid => 1 | .high => 2

/-- The converter summary (R157). DESIGN CHOICE: with no slow pass in progress the phase of its item reads none (entry 9). -/
def State.converterRun (s : State) : List Byte :=
  bool1 s.scan.fault ++ byte1 s.scan.passRun ++ byte1 s.scan.nextRef.number ++ bool1 s.scan.fast.isSome ++
    opt1 (s.scan.slow.map fun p => p.item.number) ++ opt1 (s.scan.slow.map fun p => p.phase.number)

/-- The run of a READ_SCAN item, none above 16 (R157). -/
def State.scanRun (s : State) (item : Nat) : Option (List Byte) :=
  if h : item < 9 then some (s.resultRun ⟨item, h⟩)
  else match item with
    | 9 => some (s.refRun .low)
    | 10 => some (s.refRun .mid)
    | 11 => some (s.refRun .high)
    | 12 => some (s.compRun 0)
    | 13 => some (s.compRun 1)
    | 14 => some (s.compRun 2)
    | 15 => some (s.compRun 3)
    | 16 => some s.converterRun
    | _ => none

/-- A curve's count and six points (R29, R178). -/
def Curve.run (c : Curve) : List Byte :=
  byte1 c.count ++ c.points.toList.flatMap fun p => byte2 p.speed ++ byte2 p.rot

/-- The run of a page of a program record, none above 3 (R29). -/
def Program.page (p : Program) : Nat → Option (List Byte)
  | 0 => some (p.label.toList ++ byte2 p.workMax)
  | 1 => some (byte2 p.accel ++ byte2 p.decel ++ byte2 p.reverseCap ++ byte2 p.dryCap ++ byte2 p.period ++
      byte2 (p.doseLeft.getD 0) ++ byte2 (p.doseRight.getD 0) ++ byte2 (p.doseMain.getD 0) ++ bool1 p.holdsSpeed ++
      byte2 p.economy)
  | 2 => some p.side.run
  | 3 => some (p.main.run ++ byte2 p.forceLeft ++ byte2 p.forceRight ++ byte2 p.lowerTime ++ byte2 p.raiseTime ++
      byte2 p.dryFrac)
  | _ => none

/-- The part of a run that may not exist: UNKNOWN where it does not. -/
def partOfRun (run : Option (List Byte)) (part : Byte) : Reply :=
  match run with
  | none => { code := .unknown }
  | some r => partOf r part

/-- READ_PROGRAM (R29): a slot above 8 or a page above 3 is UNKNOWN, an empty slot EMPTY, a free staging record
NOT_ACTIVE. -/
def State.programReply (s : State) (slot page part : Byte) : Reply :=
  if 8 < slot.toNat ∨ 3 < page.toNat then { code := .unknown }
  else match slotOf slot.toNat with
    | some i =>
      match s.unit.slots[i] with
      | none => { code := .empty }
      | some p => partOfRun (p.page page.toNat) part
    | none =>
      match s.unit.staging with
      | none => { code := .notActive }
      | some g => partOfRun (g.record.page page.toNat) part

/-- READ_SETTING (R182): the value in the two signed bytes of WRITE_SETTING, whatever its setting (entry 46), and the pending
mark. -/
def State.settingReply (s : State) (group index item part : Byte) : Reply :=
  match settingAt group.toNat index.toNat item.toNat with
  | none => { code := .unknown }
  | some k => partOf (int2 (s.settingValue k) ++ bool1 (s.settingPending k)) part

/-- The entry of the alarm list at a position, all fields 0 where there is none (R194). -/
def alarmRun : Option Alarm → List Byte
  | some a => byte1 a.code.number ++ byte1 a.detail ++ byte4 a.first.toNat ++ byte4 a.last.toNat ++ byte1 a.count ++
      bool1 a.present
  | none => List.replicate 12 0

/-- READ_ALARM (R194). -/
def State.alarmReply (s : State) (position part : Byte) : Reply :=
  if 15 < position.toNat then { code := .unknown }
  else partOf (byte1 s.notices.alarms.length ++ byte4 s.bank.tallies[Tally.index .overflows] ++
    alarmRun s.notices.alarms[position.toNat]?) part

/-- READ_EVENTS (R196). -/
def State.eventsRun (l : Link) (s : State) : List Byte :=
  let e := s.notices.events l
  byte2 e.pending.toNat ++ byte2 e.mask.toNat ++ e.counts.toList.flatMap byte1

/-- A link's snapshot record. -/
def TallyBank.snap (b : TallyBank) : Link → Snapshot
  | .drive => b.snapDrive | .body => b.snapBody

/-- The run of a page of a snapshot record, none above 3 (R199). -/
def Snapshot.page (x : Snapshot) : Nat → Option (List Byte)
  | 0 => some ((x.tallies.toList.take 6).flatMap byte4)
  | 1 => some (((x.tallies.toList.drop 6).take 6).flatMap byte4)
  | 2 => some ((x.tallies.toList.drop 12).flatMap byte4)
  | 3 => some (byte4 x.taken.toNat ++ byte1 x.clear)
  | _ => none

/-- The source with a slot number, none above 13 (R61). -/
def Source.ofSlot (n : Nat) : Option Source := Source.all[n]?

/-- A read that draws no free value: the state stands and the reply is given. -/
def State.readOnly (f : State → Reply) (s : State) : State × Reply := (s, f s)

/-- A read some of whose fields are free values: their count moves on (entry 6). -/
def State.readDrawing (n : Nat) (f : State → Reply) (s : State) : State × Reply := (s.modFreeCount (· + n), f s)

end Sys2Proof.Machine
end

