-- ==== Sys2Proof/Machine/ArmCommands.lean ====
section
/-! DEFINITION. The requests to the Arm Controller and the expiries of its timers. -/

namespace Sys2Proof.Machine

/-- A request that names an arm: from the body link alone, with an arm number from 0 to 2. -/
def armRequest (l : Link) (n : Byte) (act : Arm → State → State × Reply) (s : State) : State × Reply :=
  match l with
  | .drive => answer .denied s
  | .body =>
    match Arm.ofNumber n.toNat with
    | none => answer .unknown s
    | some a => act a s

/-- ARM_LOWER of an arm, by the table of R93. -/
def State.armLower (a : Arm) (s : State) : State × Reply :=
  if s.unit.mode ≠ .sweep then answer .state s
  else if a = .main ∧ s.arms.lock then answer .state s
  else match (s.arm a).state with
    | .stowed =>
      if (s.arm a).pending then answer .accepted s
      else if s.travel.ground ≤ s.settings.caps.armMove then answer .accepted (s.startLower a)
      else answer .accepted (s.markPending a true)
    | .lowering | .working | .yielding | .jammed => answer .done s
    | .raising | .fault => answer .state s

/-- ARM_LOWER (R93). -/
def execArmLower (h : Head) (arm : Byte) (s : State) : Host.Outcome State Fault Refusal :=
  .next (s.serve h 19 (armRequest h.link arm State.armLower))

/-- ARM_RAISE of an arm, by the table of R96. -/
def State.armRaise (a : Arm) (s : State) : State × Reply :=
  match (s.arm a).state with
  | .lowering | .working | .yielding | .jammed => answer .accepted (s.raiseArm a)
  | .stowed | .raising => answer .done (s.raiseArm a)
  | .fault => answer .state s

/-- ARM_RAISE (R96). -/
def execArmRaise (h : Head) (arm : Byte) (s : State) : Host.Outcome State Fault Refusal :=
  .next (s.serve h 20 (armRequest h.link arm State.armRaise))

/-- One of an arm's channels is in FAULT (R99). -/
def State.armChannelFaulty (a : Arm) (s : State) : Bool :=
  allChannels.any fun ch => armOfChannel ch == some a && s.output.stateOf ch == .fault

/-- ARM_CLEAR of an arm (R99). -/
def State.armClear (a : Arm) (s : State) : State × Reply :=
  if (s.arm a).state ≠ .fault then answer .state s
  else if s.armChannelFaulty a then answer .state s
  else if s.unit.mode.working then answer .accepted ((s.startRaise a).alarmGone .armFault a.number)
  else answer .done ((s.stow a).alarmGone .armFault a.number)

/-- ARM_CLEAR (R99). -/
def execArmClear (h : Head) (arm : Byte) (s : State) : Host.Outcome State Fault Refusal :=
  .next (s.serve h 21 (armRequest h.link arm State.armClear))

/-- The lock mark of the broom clears, and the condition of JAM_REPEAT with it (R109). -/
def State.clearLock (s : State) : State :=
  (s.modArms fun x => { x with lock := false }).alarmGone .jamRepeat 2

/-- BROOM_CLEAR_JAM from the body link, by the table of R109; a cut that still stands is released before the broom
works. -/
def State.broomClearJam (s : State) : State × Reply :=
  if !s.arms.lock then answer .notActive s
  else if s.arms.main.state = .jammed then
    if s.detects .main then answer .state s
    else
      let s := s.clearLock
      let s := if s.arms.cutSeen then s.releaseBroom else s
      answer .done s.broomWorks
  else answer .done s.clearLock

/-- BROOM_CLEAR_JAM (R109). -/
def execBroomClearJam (h : Head) (s : State) : Host.Outcome State Fault Refusal :=
  .next (s.serve h 22 (bodyOnly h.link State.broomClearJam))

/-! ### Timers -/

/-- ARM_PERIOD_EXPIRY (R89). -/
def execArmPeriodExpiry (after : Nat) (s : State) : Host.Outcome State Fault Refusal :=
  let s := s.elapse after
  if reached s.now s.periods.arm then
    .next (s.modPeriods fun p => { p with arm := later p.arm 20 }).armPeriod
  else .next s

/-- An arm's movement timer is running in a state and yield phase, and its time has come. -/
def State.armDue (a : Arm) (st : ArmState) (ph : Option Phase) (s : State) : Bool :=
  (s.arm a).state == st && (s.arm a).phase == ph && due s.now (s.arm a).timer

/-- The end of a lowering: WORKING, and a strike of a side arm whose comparator stands DETECTED (R95). -/
def State.lowerEnd (a : Arm) (s : State) : State :=
  let s := s.moveArm a fun r => { r with state := .working, timer := none }
  match a with
  | .left => if s.detects .left then s.strike .left else s
  | .right => if s.detects .right then s.strike .right else s
  | .main => s

/-- LOWER_EXPIRY (R95). -/
def execLowerExpiry (after : Nat) (a : Arm) (s : State) : Host.Outcome State Fault Refusal :=
  let s := s.elapse after
  if s.armDue a .lowering none then .next (s.lowerEnd a) else .next s

/-- RAISE_EXPIRY (R97). -/
def execRaiseExpiry (after : Nat) (a : Arm) (s : State) : Host.Outcome State Fault Refusal :=
  let s := s.elapse after
  if s.armDue a .raising none then .next (s.stow a) else .next s

/-- The lift phase of a yield ends (R103): the settle phase, with its coils and its timer; a change of phase is posted
nowhere else (R110, R111). -/
def State.liftEnd (a : SideArm) (s : State) : State :=
  (s.modArm a.arm fun r => { r with phase := some .settle, timer := s.settleTimer }).postCoils a.arm

/-- YIELD_LIFT_EXPIRY (R103). -/
def execYieldLiftExpiry (after : Nat) (a : SideArm) (s : State) : Host.Outcome State Fault Refusal :=
  let s := s.elapse after
  if s.armDue a.arm .yielding (some .lift) then .next (s.liftEnd a) else .next s

/-- The settle phase ends (R103): WORKING with the comparator CLEAR, or another settle phase. -/
def State.settleEnd (a : SideArm) (s : State) : State :=
  if s.detects a.arm then s.modArm a.arm fun r => { r with timer := s.settleTimer }
  else s.moveArm a.arm fun r => { r with state := .working, phase := none, timer := none }

/-- YIELD_SETTLE_EXPIRY (R103). -/
def execYieldSettleExpiry (after : Nat) (a : SideArm) (s : State) : Host.Outcome State Fault Refusal :=
  let s := s.elapse after
  if s.armDue a.arm .yielding (some .settle) then .next (s.settleEnd a) else .next s

/-- The jam hold ends (R107). -/
def State.jamHoldEnd (s : State) : State :=
  let s := (s.modArms fun x => { x with holdDone := true }).modArm .main fun r => { r with timer := none }
  if !s.detects .main && !s.arms.cutSeen then s.broomWorks else s

/-- JAM_HOLD_EXPIRY (R107). -/
def execJamHoldExpiry (after : Nat) (s : State) : Host.Outcome State Fault Refusal :=
  let s := s.elapse after
  if s.armDue .main .jammed none then .next s.jamHoldEnd else .next s

end Sys2Proof.Machine
end

