-- ==== Sys2Proof/Machine/ChannelCommands.lean ====
section
/-! DEFINITION. The requests to the Output Stage and its timed events. -/

namespace Sys2Proof.Machine

/-- CLEAR_CHANNEL_FAULT at the Output Stage (R168). -/
def State.clearChannelFault (l : Link) (n : Byte) (s : State) : State × Reply :=
  match channelOf n.toNat with
  | none => answer .unknown s
  | some ch =>
    if channelOwner ch ≠ l then answer .denied s
    else if s.output.stateOf ch ≠ .fault then answer .notActive s
    else if 0 < s.output.channels[ch].setpoint then answer .state s
    else answer .done (s.leaveFault ch)

/-- CLEAR_CHANNEL_FAULT (R168). -/
def execClearChannelFault (h : Head) (ch : Byte) (s : State) : Host.Outcome State Fault Refusal :=
  .next (s.serve h 25 (State.clearChannelFault h.link ch))

/-- The interlock refuses a coil: the clamped level is on and the partner's commanded output is on (R171). -/
def State.interlocked (ch : Channel) (level : Nat) (s : State) : Bool :=
  decide (0 < level) && (partner ch).any fun p => decide (0 < s.output.commanded p)

/-- A link takes or keeps a channel in DIRECT at a clamped level (R171). -/
def State.takeDirect (ch : Channel) (l : Link) (level : Nat) (s : State) : State :=
  s.changeChannel ch fun c => { c with holder := some l, level := level }

/-- DIRECT_DRIVE at the Output Stage (R171). -/
def State.directDrive (l : Link) (n : Byte) (level : Half) (s : State) : State × Reply :=
  match channelOf n.toNat with
  | none => answer .unknown s
  | some ch =>
    let v := clampLevel ch level.toNat
    if ch.val < 2 then answer .denied s
    else if s.unit.mode ≠ .service then answer .state s
    else if s.output.channels[ch].holder = some l.other then answer .held s
    else if s.output.stateOf ch = .fault ∨ s.output.stateOf ch = .cut then answer .state s
    else if s.interlocked ch v then answer .state s
    else answer .done (s.takeDirect ch l v)

/-- DIRECT_DRIVE (R171). -/
def execDirectDrive (h : Head) (ch : Byte) (level : Half) (s : State) : Host.Outcome State Fault Refusal :=
  .next (s.serve h 26 (State.directDrive h.link ch level))

/-- DIRECT_RELEASE at the Output Stage (R172). -/
def State.directRelease (l : Link) (n : Byte) (s : State) : State × Reply :=
  match channelOf n.toNat with
  | none => answer .unknown s
  | some ch =>
    if ch.val < 2 then answer .denied s
    else match s.output.channels[ch].holder with
      | none => answer .notActive s
      | some k => if k = l then answer .done (s.endDirect ch) else answer .held s

/-- DIRECT_RELEASE (R172). -/
def execDirectRelease (h : Head) (ch : Byte) (s : State) : Host.Outcome State Fault Refusal :=
  .next (s.serve h 27 (State.directRelease h.link ch))

/-- CURRENT_SAMPLE (R162). -/
def execCurrentSample (after : Nat) (x : Samples) (s : State) : Host.Outcome State Fault Refusal :=
  let s := s.elapse after
  if reached s.nowUs s.periods.sample then
    .next ((s.modPeriods fun p => { p with sample := later p.sample 500 }).sampleAll x)
  else .next s

/-- OPEN_TIMER_EXPIRY (R165): FAULT with fault kind open. -/
def execOpenTimerExpiry (after : Nat) (ch : Channel) (s : State) : Host.Outcome State Fault Refusal :=
  let s := s.elapse after
  if openDue ch s then .next (s.enterFault ch .openLoad) else .next s

/-- DITHER_PART_END (R163, R164). -/
def execDitherPartEnd (after : Nat) (ch : Channel) (s : State) : Host.Outcome State Fault Refusal :=
  .next ((s.elapse after).modCarrier ch Carrier.partEnd)

end Sys2Proof.Machine
end

