-- ==== Sys2Proof/Machine/DriveCommands.lean ====
section
/-! DEFINITION. The request to the Drive Governor and the expiries of its timers. -/

namespace Sys2Proof.Machine

/-- The direction of a demand code (R66). -/
def demandDirOf (code : Nat) : Option DriveDir :=
  match code with
  | 0 => some .neutral
  | 1 => some .forward
  | 2 => some .reverse
  | _ => none

/-- The demand is held, and one with a magnitude above 0 leaves SERVICE (R66, R13). -/
def State.holdDemand (d : DriveDir) (magnitude : Nat) (s : State) : State :=
  let m := min 1000 magnitude
  let s := s.modGov fun g => { g with demandDir := d, demandMag := m }
  if 0 < m ∧ s.unit.mode = .service then s.leaveService else s

/-- DRIVE_DEMAND at the governor (R66). -/
def State.driveDemand (l : Link) (dir : Byte) (magnitude : Half) (s : State) : State × Reply :=
  match l with
  | .body => answer .denied s
  | .drive =>
    match demandDirOf dir.toNat with
    | none => answer .unknown s
    | some d => answer .done (s.holdDemand d magnitude.toNat)

/-- DRIVE_DEMAND (R66). -/
def execDriveDemand (h : Head) (dir : Byte) (magnitude : Half) (s : State) : Host.Outcome State Fault Refusal :=
  .next (s.serve h 18 (State.driveDemand h.link dir magnitude))

/-- DRIVE_PERIOD_EXPIRY (R64). -/
def execDrivePeriodExpiry (after : Nat) (s : State) : Host.Outcome State Fault Refusal :=
  let s := s.elapse after
  if reached s.now s.periods.drive then
    .next (s.modPeriods fun p => { p with drive := later p.drive 10 }).drivePeriod
  else .next s

/-- SETTLE_EXPIRY (R77): the settle timer expires and the range request completes. -/
def execSettleExpiry (after : Nat) (s : State) : Host.Outcome State Fault Refusal :=
  let s := s.elapse after
  if due s.now s.gov.settle then .next s.completeRange else .next s

/-- The stall timer expires: DRIVE_STALL is raised while stall hold is set (R80). -/
def State.stallExpiry (s : State) : State :=
  let s := s.modGov fun g => { g with stallTimer := none }
  if s.gov.stallHold then
    (s.modGov fun g => { g with stallRaised := true }).raiseAlarm .driveStall (Dir.detail s.gov.stallDir)
  else s

/-- STALL_TIMER_EXPIRY (R80). -/
def execStallTimerExpiry (after : Nat) (s : State) : Host.Outcome State Fault Refusal :=
  let s := s.elapse after
  if due s.now s.gov.stallTimer then .next s.stallExpiry else .next s

end Sys2Proof.Machine
end

