-- ==== Sys2Proof/Machine/NoticeCommands.lean ====
section
/-! DEFINITION. The requests to the Alarm and Event Unit and the Tally Bank, and the sweep second. -/

namespace Sys2Proof.Machine

/-- CLEAR_ALARM at the unit, by the table of R193. -/
def State.clearAlarm (code detail : Byte) (s : State) : State × Reply :=
  match AlarmCode.ofNumber code.toNat with
  | none => answer .unknown s
  | some c =>
    match s.notices.alarms.find? (Alarm.hasKey c detail.toNat) with
    | none => answer .notActive s
    | some a =>
      if a.present then answer .active s
      else answer .done (s.modNotices fun n => { n with alarms := n.alarms.eraseP (Alarm.hasKey c detail.toNat) })

/-- CLEAR_ALARM (R193). -/
def execClearAlarm (h : Head) (code detail : Byte) (s : State) : Host.Outcome State Fault Refusal :=
  .next (s.serve h 29 (State.clearAlarm code detail))

/-- The event set after an acknowledgement of a set of kinds (R196). -/
def EventSet.acknowledge (kinds : Half) (e : EventSet) : EventSet :=
  { e with
    pending := e.pending &&& ~~~kinds
    counts := Vector.ofFn fun i => if kinds.getLsbD i.val then 0 else e.counts[i] }

/-- ACK_EVENTS at the unit (R196). -/
def State.ackEvents (l : Link) (kinds : Half) (s : State) : State × Reply :=
  answer .done (s.modNotices (Notices.modEvents l (EventSet.acknowledge kinds)))

/-- ACK_EVENTS (R196). -/
def execAckEvents (h : Head) (kinds : Half) (s : State) : Host.Outcome State Fault Refusal :=
  .next (s.serve h 31 (State.ackEvents h.link kinds))

/-- SET_EVENT_MASK at the unit (R196). -/
def State.setEventMask (l : Link) (kinds : Half) (s : State) : State × Reply :=
  answer .done (s.modNotices (Notices.modEvents l fun e => { e with mask := kinds }))

/-- SET_EVENT_MASK (R196). -/
def execSetEventMask (h : Head) (kinds : Half) (s : State) : Host.Outcome State Fault Refusal :=
  .next (s.serve h 32 (State.setEventMask h.link kinds))

/-- A link's snapshot record takes a value. -/
def TallyBank.setSnap (l : Link) (x : Snapshot) (b : TallyBank) : TallyBank :=
  match l with
  | .drive => { b with snapDrive := x }
  | .body => { b with snapBody := x }

/-- The tallies are copied into a link's snapshot record, and cleared after it with the clear flag (R198). -/
def State.snapshot (l : Link) (clear : Nat) (s : State) : State :=
  s.modBank fun b =>
    let b := b.setSnap l ⟨b.tallies, s.now, clear⟩
    if clear = 1 then { b with tallies := Vector.replicate 19 0 } else b

/-- TAKE_SNAPSHOT at the Tally Bank (R198). -/
def State.takeSnapshot (l : Link) (clear : Byte) (s : State) : State × Reply :=
  if 1 < clear.toNat then answer .unknown s
  else
    let s := (s.snapshot l clear.toNat).post .snapshotTaken l
    answer .done (if clear.toNat = 1 then s.postBoth .talliesCleared else s)

/-- TAKE_SNAPSHOT (R198). -/
def execTakeSnapshot (h : Head) (clear : Byte) (s : State) : Host.Outcome State Fault Refusal :=
  .next (s.serve h 33 (State.takeSnapshot h.link clear))

/-- The sweep time remainder reaches 1000 ms (R197). -/
def State.sweepSecond (s : State) : State :=
  if 1000 ≤ s.bank.sweepRem then (s.modBank fun b => { b with sweepRem := b.sweepRem - 1000 }).bump .sweepTime else s

/-- SWEEP_SECOND (R197). -/
def execSweepSecond (after : Nat) (s : State) : Host.Outcome State Fault Refusal :=
  .next (s.elapse after).sweepSecond

end Sys2Proof.Machine
end

