-- ==== Sys2Proof/Machine/PortCommands.lean ====
section
/-! DEFINITION. The commands of the ports and of the links: reset, chip select, bad frames, NULL, an unknown kind, RESUME
and RESTART, and the expiries of the deadline timers and of the restart window. -/

namespace Sys2Proof.Machine

/-- The deadline that a strap gives (R183). -/
def strapDeadline (high : Bool) : Nat := if high then 400 else 100

/-- The machine after a power-on reset (R4, R183, R190 and the reset values of every chapter): the measured currents are
free values (R159; entry 5), and the queue of waiting commands and the count of free values go on (entries 6, 37). -/
def State.powerOn (straps : Straps) (s : State) : State :=
  (((State.initial (strapDeadline straps.drive) (strapDeadline straps.body)).modOutput fun o =>
    { o with channels := Vector.ofFn fun ch => { o.channels[ch] with measured := freeCurrent s.freeCount ch } }).modFreeCount
      fun _ => s.freeCount + 18).modPending fun _ => s.pending

/-- POWER_ON_RESET (R4). -/
def execPowerOnReset (straps : Straps) (s : State) : Host.Outcome State Fault Refusal := .next (s.powerOn straps)

/-- The answer frame of an exchange is formed at the assertion of chip select (R175). -/
def State.assertSelect (l : Link) (s : State) : State :=
  s.modLink l fun x => { x with selected := true, discard := false, outFrame := s.answerFrame l }

/-- CHIP_SELECT_ASSERT (R175). -/
def execChipSelectAssert (after : Nat) (l : Link) (s : State) : Host.Outcome State Fault Refusal :=
  .next ((s.elapse after).assertSelect l)

/-- A frame that is not executed: one marked at a joint restart is discarded without being counted (R188). -/
def State.badFrame (l : Link) (f : LinkRec → LinkRec) (s : State) : State :=
  if (s.link l).discard then s.modLink l fun x => { x with selected := false, discard := false }
  else (s.modLink l fun x => { f x with selected := false }).bump (.badFrames l)

/-- SHORT_FRAME (R175): the short frame count of the link, and one bad frame. -/
def execShortFrame (after : Nat) (l : Link) (s : State) : Host.Outcome State Fault Refusal :=
  .next ((s.elapse after).badFrame l fun x => { x with short := x.short + 1 })

/-- CRC_FAILURE (R176): the CRC failure count, one bad frame, and BADFRAME in the answer buffer with bytes 0 and 1 as
received. -/
def execCrcFailure (after : Nat) (l : Link) (kind tag : Byte) (s : State) : Host.Outcome State Fault Refusal :=
  .next ((s.elapse after).badFrame l fun x =>
    { x with crcFail := x.crcFail + 1, answer := { kind := kind, tag := tag, code := .badFrame } })

/-- UNKNOWN_REQUEST_KIND (R180): a kind above 36 is answered UNKNOWN at the gate, and READ_STATUS with a selector above 7
by the port after the gate. -/
def execUnknownRequestKind (h : Head) (what : UnknownRequest) (s : State) : Host.Outcome State Fault Refusal :=
  match what with
  | .kind n => .next (s.serve h (37 + n.val) (answer .unknown))
  | .selector _ => .next (s.serve h 1 (answer .unknown))

/-- NULL (R177). -/
def execNull (h : Head) (s : State) : Host.Outcome State Fault Refusal := .next (s.serve h 0 (answer .done))

/-- RESUME at the port (R186). -/
def State.resume (l : Link) (s : State) : State × Reply :=
  match (s.link l).state with
  | .returned =>
    answer .done (((s.modLink l fun x => { x with state := .live }).deactivate (lossEntry l)).alarmGone (lossAlarm l) 0)
  | .live => answer .notActive s
  | .lost | .waiting => answer .state s

/-- RESUME (R186). -/
def execResume (h : Head) (s : State) : Host.Outcome State Fault Refusal :=
  .next (s.serve h 35 (State.resume h.link))

/-- RESTART at the port (R187, R188): standstill is needed; with no window one opens for 1000 ms; the holder is BUSY; the
other link confirms, and the holder's answer buffer takes DONE for its RESTART. -/
def State.restart (l : Link) (tag : Byte) (s : State) : State × Reply :=
  if 0 < s.travel.ground ∨ 0 < s.gov.vRef then answer .state s
  else match s.links.window with
    | none =>
      answer .accepted (s.modLinks fun x => { x with window := some ⟨l, tag, later s.now 1000⟩ })
    | some w =>
      if w.holder = l then answer .busy s
      else answer .done (s.jointRestart.putAnswer w.holder 36 w.tag { code := .done })

/-- RESTART (R187). -/
def execRestart (h : Head) (s : State) : Host.Outcome State Fault Refusal :=
  .next (s.serve h 36 (State.restart h.link h.tag))

/-- The deadline of a link expires (R184): a LIVE link is lost, a RETURNED one goes back to LOST. -/
def State.deadline (l : Link) (s : State) : State :=
  if due s.now (s.link l).timer then
    match (s.link l).state with
    | .live => s.loseLink l
    | .returned => s.modLink l fun x => { x with state := .lost, timer := none }
    | .waiting | .lost => s
  else s

/-- DEADLINE_EXPIRY (R184). -/
def execDeadlineExpiry (after : Nat) (l : Link) (s : State) : Host.Outcome State Fault Refusal :=
  .next ((s.elapse after).deadline l)

/-- The restart window closes as lapsed at its expiry (R187). -/
def State.windowExpiry (s : State) : State :=
  if due s.now (s.links.window.map (·.expiry)) then s.lapseWindow else s

/-- RESTART_WINDOW_EXPIRY (R187). -/
def execRestartWindowExpiry (after : Nat) (s : State) : Host.Outcome State Fault Refusal :=
  .next (s.elapse after).windowExpiry

end Sys2Proof.Machine
end

