-- ==== Sys2Proof/Machine/ProgramCommands.lean ====
section
/-! DEFINITION. The requests to the Mode and Program Unit: the work mode, editing, erasing and selecting programs; and the
expiries of its timers. -/

namespace Sys2Proof.Machine

/-! ### The work mode (R6, R8, R12, R13) -/

/-- A link is LIVE. -/
def State.isLive (l : Link) (s : State) : Bool := (s.link l).state == .live

/-- The mode becomes ENTERING, and the governor is asked for the work range, which the unit awaits (R6, R7). -/
def State.enterEntering (s : State) : State :=
  ((s.modUnit fun u => { u with awaited := some .work }).setMode .entering).requestRange .work

/-- SWEEP_START from the body link, by the table of R6. -/
def State.sweepStart (s : State) : State × Reply :=
  match s.unit.mode with
  | .service | .leaving => answer .state s
  | .entering | .sweep => answer .done s
  | .transport =>
    if s.unit.active.isNone then answer .empty s
    else if !(s.isLive .drive && s.isLive .body) then answer .state s
    else answer .accepted s.enterEntering

/-- SWEEP_START (R6). -/
def execSweepStart (h : Head) (s : State) : Host.Outcome State Fault Refusal :=
  .next (s.serve h 8 (bodyOnly h.link State.sweepStart))

/-- SWEEP_END from the body link (R8). -/
def State.sweepEnd (s : State) : State × Reply :=
  match s.unit.mode with
  | .entering | .sweep => answer .accepted s.enterLeaving
  | .leaving => answer .done s
  | .transport | .service => answer .state s

/-- SWEEP_END (R8). -/
def execSweepEnd (h : Head) (s : State) : Host.Outcome State Fault Refusal :=
  .next (s.serve h 9 (bodyOnly h.link State.sweepEnd))

/-- The machine stands still with no demand (R12). -/
def State.standsForService (s : State) : Bool := s.travel.ground == 0 && s.gov.vRef == 0 && s.gov.demandMag == 0

/-- SERVICE_ENTER at the unit (R12). -/
def State.serviceEnter (s : State) : State × Reply :=
  match s.unit.mode with
  | .transport => if s.standsForService then answer .done (s.setMode .service) else answer .state s
  | .service => answer .done s
  | .entering | .sweep | .leaving => answer .state s

/-- SERVICE_ENTER (R12). -/
def execServiceEnter (h : Head) (s : State) : Host.Outcome State Fault Refusal :=
  .next (s.serve h 10 State.serviceEnter)

/-- SERVICE_LEAVE at the unit (R13). -/
def State.serviceLeave (s : State) : State × Reply :=
  if s.unit.mode = .service then answer .done s.leaveService else answer .notActive s

/-- SERVICE_LEAVE (R13). -/
def execServiceLeave (h : Head) (s : State) : Host.Outcome State Fault Refusal :=
  .next (s.serve h 11 State.serviceLeave)

/-! ### Editing (R18, R19, R21 to R23) -/

/-- The expiry of the claim idle timer, 2000 ms from now (R18, R19). -/
def State.claimExpiry (s : State) : Time := later s.now 2000

/-- OPEN_EDIT at the unit (R18). -/
def State.openEdit (l : Link) (slot : Byte) (s : State) : State × Reply :=
  match slotOf slot.toNat with
  | none => answer .unknown s
  | some i =>
    match s.unit.staging with
    | some g => if g.holder = l then answer .busy s else answer .held s
    | none =>
      if s.unit.swap.isSome then answer .busy s
      else answer .done (s.modUnit fun u =>
        { u with staging := some ⟨l, i, u.slots[i].getD .default, s.claimExpiry⟩ })

/-- OPEN_EDIT (R18). -/
def execOpenEdit (h : Head) (slot : Byte) (s : State) : Host.Outcome State Fault Refusal :=
  .next (s.serve h 12 (State.openEdit h.link slot))

/-- The place of a point write exists; for other fields it is ignored (R19, R178). -/
def placeOk (field place : Byte) : Bool :=
  !(field.toNat == 14 || field.toNat == 16) || decide (place.toNat ≤ 5)

/-- WRITE_FIELD at the unit, by the table of R19. -/
def State.writeField (l : Link) (field place : Byte) (value : FieldValue) (s : State) : State × Reply :=
  match s.unit.staging with
  | none => answer .state s
  | some g =>
    if g.holder ≠ l then answer .held s
    else match fieldOwner field.toNat with
      | none => answer .unknown s
      | some o =>
        if !placeOk field place then answer .unknown s
        else if o ≠ l then answer .denied s
        else if !fieldAccepts field.toNat value then answer .range s
        else
          let g := { g with record := g.record.setField field.toNat place.toNat value, idle := s.claimExpiry }
          answer .done (s.modUnit fun u => { u with staging := some g })

/-- WRITE_FIELD (R19). -/
def execWriteField (h : Head) (field place : Byte) (value : FieldValue) (s : State) :
    Host.Outcome State Fault Refusal :=
  .next (s.serve h 13 (State.writeField h.link field place value))

/-- A record that passed validation goes to its slot, or waits as a pending swap when the slot is active in a working mode
(R23). The program in force changes when the active slot is written. -/
def State.commitRecord (g : Staging) (s : State) : State × Reply :=
  let s := s.modUnit fun u => { u with staging := none }
  if s.unit.active = some g.slot then
    if s.unit.mode.working then
      answer .accepted (s.modUnit fun u => { u with swap := some ⟨g.slot, g.record⟩ })
    else
      answer .done (s.modUnit fun u => { u with slots := u.slots.set g.slot (some g.record) }).programChanged
  else
    answer .done (s.modUnit fun u => { u with slots := u.slots.set g.slot (some g.record) })

/-- COMMIT_EDIT at the unit (R22, R23). -/
def State.commitEdit (l : Link) (s : State) : State × Reply :=
  match s.unit.staging with
  | none => answer .notActive s
  | some g =>
    if g.holder ≠ l then answer .held s
    else if s.unit.swap.isSome then answer .busy s
    else if !g.record.valid then answer .invalid s
    else s.commitRecord g

/-- COMMIT_EDIT (R22). -/
def execCommitEdit (h : Head) (s : State) : Host.Outcome State Fault Refusal :=
  .next (s.serve h 14 (State.commitEdit h.link))

/-- ABANDON_EDIT at the unit (R21). -/
def State.abandonEdit (l : Link) (s : State) : State × Reply :=
  match s.unit.staging with
  | none => answer .notActive s
  | some g => if g.holder = l then answer .done (s.modUnit fun u => { u with staging := none }) else answer .held s

/-- ABANDON_EDIT (R21). -/
def execAbandonEdit (h : Head) (s : State) : Host.Outcome State Fault Refusal :=
  .next (s.serve h 15 (State.abandonEdit h.link))

/-! ### Erasing and selecting (R24, R25) -/

/-- ERASE_PROGRAM at the unit (R24). -/
def State.eraseProgram (l : Link) (slot : Byte) (s : State) : State × Reply :=
  match slotOf slot.toNat with
  | none => answer .unknown s
  | some i =>
    let claim := s.unit.staging.filter fun g => g.slot == i
    if s.unit.active = some i then answer .state s
    else if claim.any fun g => g.holder != l then answer .held s
    else if claim.isSome then answer .busy s
    else if s.unit.swap.any fun w => w.target == i then answer .busy s
    else if s.unit.slots[i].isNone then answer .empty s
    else answer .done (s.modUnit fun u => { u with slots := u.slots.set i none })

/-- ERASE_PROGRAM (R24). -/
def execEraseProgram (h : Head) (slot : Byte) (s : State) : Host.Outcome State Fault Refusal :=
  .next (s.serve h 16 (State.eraseProgram h.link slot))

/-- A slot becomes active at once; the cycle boundary timer starts if none was active before (R25, R26). -/
def State.makeActive (i : Fin 8) (s : State) : State :=
  let first := s.unit.active.isNone
  let s := (s.modUnit fun u => { u with active := some i }).programChanged
  if first then s.startCycle else s

/-- SELECT_PROGRAM at the unit (R25). -/
def State.selectProgram (slot : Byte) (s : State) : State × Reply :=
  match slotOf slot.toNat with
  | none => answer .unknown s
  | some i =>
    match s.unit.slots[i] with
    | none => answer .empty s
    | some p =>
      if s.unit.swap.isSome then answer .busy s
      else if s.unit.active = some i then answer .done s
      else if s.unit.mode.working then
        answer .accepted (s.modUnit fun u => { u with swap := some ⟨i, p⟩ })
      else answer .done (s.makeActive i)

/-- SELECT_PROGRAM (R25). -/
def execSelectProgram (h : Head) (slot : Byte) (s : State) : Host.Outcome State Fault Refusal :=
  .next (s.serve h 17 (State.selectProgram slot))

/-! ### Timers (R20, R26) -/

/-- A cycle boundary (R26): the pending swap, the next period and the half-cycle mark with the P now in force, and the
cycle start of the left and main bars. -/
def State.boundaryAt (e : Time) (s : State) : State :=
  let s := s.applySwap
  let p := s.program.period
  ((s.modUnit fun u => { u with boundary := some (later e p), halfMark := some (later e (p / 2)) }).cycleStart
    .left).cycleStart .main

/-- The cycle boundary timer expires, when it runs and its time has come. -/
def State.cycleBoundary (s : State) : State :=
  match s.unit.boundary with
  | some e => if reached s.now e then s.boundaryAt e else s
  | none => s

/-- CYCLE_BOUNDARY (R26). -/
def execCycleBoundary (after : Nat) (s : State) : Host.Outcome State Fault Refusal :=
  .next (s.elapse after).cycleBoundary

/-- The half-cycle mark expires: the cycle start of the right bar (R26). -/
def State.halfCycleMark (s : State) : State :=
  if due s.now s.unit.halfMark then (s.modUnit fun u => { u with halfMark := none }).cycleStart .right else s

/-- HALF_CYCLE_MARK (R26). -/
def execHalfCycleMark (after : Nat) (s : State) : Host.Outcome State Fault Refusal :=
  .next (s.elapse after).halfCycleMark

/-- The claim idle timer expires (R20). -/
def State.claimIdle (s : State) : State :=
  if due s.now (s.unit.staging.map (·.idle)) then s.lapseClaim else s

/-- CLAIM_IDLE_TIMER_EXPIRY (R20). -/
def execClaimIdleTimerExpiry (after : Nat) (s : State) : Host.Outcome State Fault Refusal :=
  .next (s.elapse after).claimIdle

end Sys2Proof.Machine
end

