-- ==== Sys2Proof/Machine/ReadCommands.lean ====
section
/-! DEFINITION. The read requests and the two setting requests. -/

namespace Sys2Proof.Machine

/-- READ_STATUS travel (R46). -/
def execReadStatusTravel (h : Head) (part : Byte) (s : State) : Host.Outcome State Fault Refusal :=
  .next (s.serve h 1 (State.readOnly fun s => partOf s.travelRun part))

/-- READ_STATUS ceiling summary (R62). -/
def execReadStatusCeilingSummary (h : Head) (part : Byte) (s : State) : Host.Outcome State Fault Refusal :=
  .next (s.serve h 1 (State.readOnly fun s => partOf s.ceilingRun part))

/-- READ_STATUS governor (R85). -/
def execReadStatusGovernor (h : Head) (part : Byte) (s : State) : Host.Outcome State Fault Refusal :=
  .next (s.serve h 1 (State.readOnly fun s => partOf s.governorRun part))

/-- READ_STATUS arms (R113). -/
def execReadStatusArms (h : Head) (part : Byte) (s : State) : Host.Outcome State Fault Refusal :=
  .next (s.serve h 1 (State.readOnly fun s => partOf s.armsRun part))

/-- READ_STATUS spray (R138). Four fields may be free values (entry 8). -/
def execReadStatusSpray (h : Head) (part : Byte) (s : State) : Host.Outcome State Fault Refusal :=
  .next (s.serve h 1 (State.readDrawing 4 fun s => partOf s.sprayRun part))

/-- READ_STATUS tank and pump (R139). -/
def execReadStatusTankAndPump (h : Head) (part : Byte) (s : State) : Host.Outcome State Fault Refusal :=
  .next (s.serve h 1 (State.readOnly fun s => partOf s.tankRun part))

/-- READ_STATUS links (R189). -/
def execReadStatusLinks (h : Head) (part : Byte) (s : State) : Host.Outcome State Fault Refusal :=
  .next (s.serve h 1 (State.readOnly fun s => partOf (s.linksRun h.link) part))

/-- READ_STATUS mode and program (R29). One field may be a free value (entry 8). -/
def execReadStatusModeAndProgram (h : Head) (part : Byte) (s : State) : Host.Outcome State Fault Refusal :=
  .next (s.serve h 1 (State.readDrawing 1 fun s => partOf s.modeRun part))

/-- READ_CEILING_ENTRY (R61). -/
def execReadCeilingEntry (h : Head) (slot part : Byte) (s : State) : Host.Outcome State Fault Refusal :=
  .next (s.serve h 2 (State.readOnly fun s => partOfRun ((Source.ofSlot slot.toNat).map s.entryRun) part))

/-- READ_CHANNEL (R173). -/
def execReadChannel (h : Head) (ch part : Byte) (s : State) : Host.Outcome State Fault Refusal :=
  .next (s.serve h 3 (State.readOnly fun s => partOfRun ((channelOf ch.toNat).map s.channelRun) part))

/-- READ_SCAN (R157). -/
def execReadScan (h : Head) (item part : Byte) (s : State) : Host.Outcome State Fault Refusal :=
  .next (s.serve h 4 (State.readOnly fun s => partOfRun (s.scanRun item.toNat) part))

/-- READ_PROGRAM (R29). -/
def execReadProgram (h : Head) (slot page part : Byte) (s : State) : Host.Outcome State Fault Refusal :=
  .next (s.serve h 5 (State.readOnly fun s => s.programReply slot page part))

/-- READ_SETTING (R182). -/
def execReadSetting (h : Head) (group index item part : Byte) (s : State) : Host.Outcome State Fault Refusal :=
  .next (s.serve h 6 (State.readOnly fun s => s.settingReply group index item part))

/-- WRITE_SETTING (R182). -/
def execWriteSetting (h : Head) (group index item : Byte) (value : Half) (s : State) :
    Host.Outcome State Fault Refusal :=
  .next (s.serve h 7 (State.writeSetting h.link group index item value))

/-- READ_ALARM (R194). -/
def execReadAlarm (h : Head) (position part : Byte) (s : State) : Host.Outcome State Fault Refusal :=
  .next (s.serve h 28 (State.readOnly fun s => s.alarmReply position part))

/-- READ_EVENTS (R196). -/
def execReadEvents (h : Head) (part : Byte) (s : State) : Host.Outcome State Fault Refusal :=
  .next (s.serve h 30 (State.readOnly fun s => partOf (s.eventsRun h.link) part))

/-- READ_SNAPSHOT (R199). -/
def execReadSnapshot (h : Head) (page part : Byte) (s : State) : Host.Outcome State Fault Refusal :=
  .next (s.serve h 34 (State.readOnly fun s => partOfRun ((s.bank.snap h.link).page page.toNat) part))

end Sys2Proof.Machine
end

