-- ==== Sys2Proof/Machine/SensorEvents.lean ====
section
/-! DEFINITION. The events of the Travel Measurement Unit and of the Scan Unit. -/

namespace Sys2Proof.Machine

/-! ### Travel (R30, R34, R35, R39) -/

/-- WHEEL_EDGE (R30, R32): an edge that comes too soon after the last is discarded. -/
def execWheelEdge (after : Nat) (w : Wheel) (dir : Dir) (s : State) : Host.Outcome State Fault Refusal :=
  let s := s.elapse after
  if s.acceptsEdge w then .next (s.acceptEdge w dir) else .next s

/-- TRAVEL_UPDATE_EXPIRY (R34). -/
def execTravelUpdateExpiry (after : Nat) (s : State) : Host.Outcome State Fault Refusal :=
  let s := s.elapse after
  if reached s.now s.periods.travel then
    .next (s.modPeriods fun p => { p with travel := later p.travel 10 }).travelUpdate
  else .next s

/-- PULSE_TIMEOUT_EXPIRY (R35). -/
def execPulseTimeoutExpiry (after : Nat) (w : Wheel) (s : State) : Host.Outcome State Fault Refusal :=
  let s := s.elapse after
  if due s.now (s.travel.wheel w).timeout then .next (s.pulseTimeout w) else .next s

/-- SLIP_HOLD_EXPIRY (R39): ground speed returns to its normal form. -/
def execSlipHoldExpiry (after : Nat) (s : State) : Host.Outcome State Fault Refusal :=
  let s := s.elapse after
  if due s.now s.travel.slipHold then .next s.stopSlip.formGround else .next s

/-! ### Scanning (R140, R144, R145) -/

/-- A fast scan trigger is taken (R144): a group starts, or the trigger is skipped as an overrun. -/
def State.fastTrigger (s : State) : State := if s.scan.fast.isNone then s.startFast else s.bump .overruns

/-- FAST_SCAN_TRIGGER (R144). -/
def execFastScanTrigger (after : Nat) (s : State) : Host.Outcome State Fault Refusal :=
  let s := s.elapse after
  if reached s.now s.periods.fast then
    .next (s.modPeriods fun p => { p with fast := later p.fast 5 }).fastTrigger
  else .next s

/-- A slow scan trigger is taken (R145): a pass starts with A6, or the trigger is skipped as an overrun. -/
def State.slowTrigger (s : State) : State := if s.scan.slow.isNone then s.settleItem .a6 else s.bump .overruns

/-- SLOW_SCAN_TRIGGER (R145). -/
def execSlowScanTrigger (after : Nat) (s : State) : Host.Outcome State Fault Refusal :=
  let s := s.elapse after
  if reached s.now s.periods.slow then
    .next (s.modPeriods fun p => { p with slow := later p.slow 100 }).slowTrigger
  else .next s

/-- The settle of a slow item ends (R145): its sequence converts at once, or waits for the fast group's end. -/
def State.itemSettled (item : SlowItem) (s : State) : State :=
  if s.scan.fast.isNone then s.beginSlow item else s.modScan fun x => { x with slow := some ⟨item, .waiting⟩ }

/-- The settle ends, when one runs and its time has come. -/
def State.slowSettle (s : State) : State :=
  match s.scan.slow with
  | some ⟨item, .settling till⟩ => if reached s.nowUs till then s.itemSettled item else s
  | some ⟨_, .waiting⟩ => s
  | some ⟨_, .converting⟩ => s
  | none => s

/-- SLOW_SETTLE_END (R145). -/
def execSlowSettleEnd (after : Nat) (s : State) : Host.Outcome State Fault Refusal :=
  .next (s.elapse after).slowSettle

/-- The conversion in progress can have ended: it started 10 µs ago or longer (R140). An end reported sooner is that of a
conversion which the fast group has stopped, and its code counts nowhere (R146; entry 47). -/
def State.conversionDone (s : State) : Bool :=
  match s.scan.convStart with
  | some t => decide (10 ≤ since s.nowUs t)
  | none => false

/-- CONVERSION_END (R140): the code of the conversion in progress. -/
def execConversionEnd (after : Nat) (code : BitVec 12) (s : State) : Host.Outcome State Fault Refusal :=
  let s := s.elapse after
  if s.conversionDone then .next (s.addCode code.toNat) else .next s

/-- A conversion is abandoned (R140, R153): the pass run becomes 0, the fault begins or continues with detail 3, and the
code counts as 0 (entry 14). -/
def State.abandon (s : State) : State :=
  ((s.modScan fun x => { x with passRun := 0 }).faultCause 3).addCode 0

/-- The conversion in progress has not ended 120 µs after its start (R140). -/
def State.conversionLate (s : State) : Bool :=
  match s.scan.convStart with
  | some t => decide (120 ≤ since s.nowUs t)
  | none => false

/-- CONVERSION_TIMEOUT (R140). -/
def execConversionTimeout (after : Nat) (s : State) : Host.Outcome State Fault Refusal :=
  let s := s.elapse after
  if s.conversionLate then .next s.abandon else .next s

end Sys2Proof.Machine
end

