-- ==== Sys2Proof/Machine/SprayCommands.lean ====
section
/-! DEFINITION. The requests to the Spray Controller and the expiries of its timers. -/

namespace Sys2Proof.Machine

/-- SPRAY_ENABLE from the body link (R118). -/
def State.sprayEnable (bar on : Byte) (s : State) : State × Reply :=
  match Bar.ofNumber bar.toNat with
  | none => answer .unknown s
  | some b =>
    if 1 < on.toNat then answer .unknown s
    else answer .done (s.modBar b fun x => { x with enable := on.toNat == 1 }).judgeBars

/-- SPRAY_ENABLE (R118). -/
def execSprayEnable (h : Head) (bar on : Byte) (s : State) : Host.Outcome State Fault Refusal :=
  .next (s.serve h 23 (bodyOnly h.link (State.sprayEnable bar on)))

/-- The pump-dry latch clears (R133). -/
def State.clearDryLatch (s : State) : State :=
  ((s.modSpray fun y => { y with latch := false }).alarmGone .pumpDry 0).judgeBars

/-- CLEAR_SPRAY_FAULT from the body link, by the table of R133. -/
def State.clearSprayFault (s : State) : State × Reply :=
  if !s.spray.latch then answer .notActive s
  else if s.output.stateOf 14 = .fault then answer .state s
  else answer .done s.clearDryLatch

/-- CLEAR_SPRAY_FAULT (R133). -/
def execClearSprayFault (h : Head) (s : State) : Host.Outcome State Fault Refusal :=
  .next (s.serve h 24 (bodyOnly h.link State.clearSprayFault))

/-- SPRAY_PUMP_PERIOD_EXPIRY (R131): nothing is done with no bar active. -/
def execSprayPumpPeriodExpiry (after : Nat) (s : State) : Host.Outcome State Fault Refusal :=
  let s := s.elapse after
  if reached s.now s.periods.pump then
    let s := s.modPeriods fun p => { p with pump := later p.pump 100 }
    if s.spray.anyActive then .next s.pumpPeriod else .next s
  else .next s

/-- PULSE_END (R126). -/
def execPulseEnd (after : Nat) (b : Bar) (s : State) : Host.Outcome State Fault Refusal :=
  let s := s.elapse after
  if due s.now (s.spray.bar b).pulseEnd then
    .next ((s.postSetpoint b.valve 0).modBar b fun x => { x with pulseEnd := none })
  else .next s

end Sys2Proof.Machine
end

