-- ==== Sys2Proof/Machine/Dispatch.lean ====
section
/-! DEFINITION. The meaning of every command: one arm per constructor of `Instr`, each one call. -/

namespace Sys2Proof.Machine

/-- The effect of a command on everything but the queue. -/
def exec (i : Instr) (s : State) : Host.Outcome State Fault Refusal :=
  match i with
  | .powerOnReset straps => Sys2Proof.Machine.execPowerOnReset straps s
  | .chipSelectAssert after link => Sys2Proof.Machine.execChipSelectAssert after link s
  | .shortFrame after link => Sys2Proof.Machine.execShortFrame after link s
  | .crcFailure after link kind tag => Sys2Proof.Machine.execCrcFailure after link kind tag s
  | .unknownRequestKind h what => Sys2Proof.Machine.execUnknownRequestKind h what s
  | .null h => Sys2Proof.Machine.execNull h s
  | .readStatusTravel h part => Sys2Proof.Machine.execReadStatusTravel h part s
  | .readStatusCeilingSummary h part => Sys2Proof.Machine.execReadStatusCeilingSummary h part s
  | .readStatusGovernor h part => Sys2Proof.Machine.execReadStatusGovernor h part s
  | .readStatusArms h part => Sys2Proof.Machine.execReadStatusArms h part s
  | .readStatusSpray h part => Sys2Proof.Machine.execReadStatusSpray h part s
  | .readStatusTankAndPump h part => Sys2Proof.Machine.execReadStatusTankAndPump h part s
  | .readStatusLinks h part => Sys2Proof.Machine.execReadStatusLinks h part s
  | .readStatusModeAndProgram h part => Sys2Proof.Machine.execReadStatusModeAndProgram h part s
  | .readCeilingEntry h slot part => Sys2Proof.Machine.execReadCeilingEntry h slot part s
  | .readChannel h ch part => Sys2Proof.Machine.execReadChannel h ch part s
  | .readScan h item part => Sys2Proof.Machine.execReadScan h item part s
  | .readProgram h slot page part => Sys2Proof.Machine.execReadProgram h slot page part s
  | .readSetting h group index item part => Sys2Proof.Machine.execReadSetting h group index item part s
  | .writeSetting h group index item value => Sys2Proof.Machine.execWriteSetting h group index item value s
  | .sweepStart h => Sys2Proof.Machine.execSweepStart h s
  | .sweepEnd h => Sys2Proof.Machine.execSweepEnd h s
  | .serviceEnter h => Sys2Proof.Machine.execServiceEnter h s
  | .serviceLeave h => Sys2Proof.Machine.execServiceLeave h s
  | .openEdit h slot => Sys2Proof.Machine.execOpenEdit h slot s
  | .writeField h field place value => Sys2Proof.Machine.execWriteField h field place value s
  | .commitEdit h => Sys2Proof.Machine.execCommitEdit h s
  | .abandonEdit h => Sys2Proof.Machine.execAbandonEdit h s
  | .eraseProgram h slot => Sys2Proof.Machine.execEraseProgram h slot s
  | .selectProgram h slot => Sys2Proof.Machine.execSelectProgram h slot s
  | .driveDemand h dir magnitude => Sys2Proof.Machine.execDriveDemand h dir magnitude s
  | .armLower h arm => Sys2Proof.Machine.execArmLower h arm s
  | .armRaise h arm => Sys2Proof.Machine.execArmRaise h arm s
  | .armClear h arm => Sys2Proof.Machine.execArmClear h arm s
  | .broomClearJam h => Sys2Proof.Machine.execBroomClearJam h s
  | .sprayEnable h bar on => Sys2Proof.Machine.execSprayEnable h bar on s
  | .clearSprayFault h => Sys2Proof.Machine.execClearSprayFault h s
  | .clearChannelFault h ch => Sys2Proof.Machine.execClearChannelFault h ch s
  | .directDrive h ch level => Sys2Proof.Machine.execDirectDrive h ch level s
  | .directRelease h ch => Sys2Proof.Machine.execDirectRelease h ch s
  | .readAlarm h position part => Sys2Proof.Machine.execReadAlarm h position part s
  | .clearAlarm h code detail => Sys2Proof.Machine.execClearAlarm h code detail s
  | .readEvents h part => Sys2Proof.Machine.execReadEvents h part s
  | .ackEvents h kinds => Sys2Proof.Machine.execAckEvents h kinds s
  | .setEventMask h kinds => Sys2Proof.Machine.execSetEventMask h kinds s
  | .takeSnapshot h clear => Sys2Proof.Machine.execTakeSnapshot h clear s
  | .readSnapshot h page part => Sys2Proof.Machine.execReadSnapshot h page part s
  | .resume h => Sys2Proof.Machine.execResume h s
  | .restart h => Sys2Proof.Machine.execRestart h s
  | .deadlineExpiry after link => Sys2Proof.Machine.execDeadlineExpiry after link s
  | .restartWindowExpiry after => Sys2Proof.Machine.execRestartWindowExpiry after s
  | .wheelEdge after wheel dir => Sys2Proof.Machine.execWheelEdge after wheel dir s
  | .travelUpdateExpiry after => Sys2Proof.Machine.execTravelUpdateExpiry after s
  | .pulseTimeoutExpiry after wheel => Sys2Proof.Machine.execPulseTimeoutExpiry after wheel s
  | .slipHoldExpiry after => Sys2Proof.Machine.execSlipHoldExpiry after s
  | .cycleBoundary after => Sys2Proof.Machine.execCycleBoundary after s
  | .halfCycleMark after => Sys2Proof.Machine.execHalfCycleMark after s
  | .claimIdleTimerExpiry after => Sys2Proof.Machine.execClaimIdleTimerExpiry after s
  | .drivePeriodExpiry after => Sys2Proof.Machine.execDrivePeriodExpiry after s
  | .settleExpiry after => Sys2Proof.Machine.execSettleExpiry after s
  | .stallTimerExpiry after => Sys2Proof.Machine.execStallTimerExpiry after s
  | .armPeriodExpiry after => Sys2Proof.Machine.execArmPeriodExpiry after s
  | .lowerExpiry after arm => Sys2Proof.Machine.execLowerExpiry after arm s
  | .raiseExpiry after arm => Sys2Proof.Machine.execRaiseExpiry after arm s
  | .yieldLiftExpiry after arm => Sys2Proof.Machine.execYieldLiftExpiry after arm s
  | .yieldSettleExpiry after arm => Sys2Proof.Machine.execYieldSettleExpiry after arm s
  | .jamHoldExpiry after => Sys2Proof.Machine.execJamHoldExpiry after s
  | .sprayPumpPeriodExpiry after => Sys2Proof.Machine.execSprayPumpPeriodExpiry after s
  | .pulseEnd after bar => Sys2Proof.Machine.execPulseEnd after bar s
  | .fastScanTrigger after => Sys2Proof.Machine.execFastScanTrigger after s
  | .slowScanTrigger after => Sys2Proof.Machine.execSlowScanTrigger after s
  | .slowSettleEnd after => Sys2Proof.Machine.execSlowSettleEnd after s
  | .conversionEnd after code => Sys2Proof.Machine.execConversionEnd after code s
  | .conversionTimeout after => Sys2Proof.Machine.execConversionTimeout after s
  | .currentSample after samples => Sys2Proof.Machine.execCurrentSample after samples s
  | .openTimerExpiry after ch => Sys2Proof.Machine.execOpenTimerExpiry after ch s
  | .ditherPartEnd after ch => Sys2Proof.Machine.execDitherPartEnd after ch s
  | .sweepSecond after => Sys2Proof.Machine.execSweepSecond after s

end Sys2Proof.Machine
end

