-- ==== Sys2Proof/Safety.lean ====
section
/-! DEFINITION. What counts as a safe run of the SW-18: the laws of the device that the manual states, as predicates of a
state (each is an invariant of `step`), and the words in which the statements speak of a request that its owner takes. -/

namespace Sys2Proof.Machine

/-! ### Requests -/

/-- The state in which the owner takes a request: time has passed and the port has made step 1 of R180. -/
def State.taken (h : Head) (s : State) : State := (s.elapse h.after).receive h

/-- A request comes to its owner: its frame is not one marked at a joint restart (R188), and its kind passes the state gate
(R180). -/
def State.passes (h : Head) (kind : Nat) (s : State) : Prop :=
  (s.link h.link).discard = false ∧ gatePasses kind ((s.taken h).link h.link).state = true

/-- The state with an answer to a request in the requesting link's buffer (R177). -/
def State.answered (h : Head) (kind : Nat) (code : Code) (data : List Byte) (s : State) : State :=
  s.putAnswer h.link (BitVec.ofNat 8 kind) h.tag { code := code, data := data }

/-- The answer that a request's sender finds (R177). -/
def State.answerIs (h : Head) (kind : Nat) (code : Code) (s : State) : Prop :=
  (s.link h.link).answer = { kind := BitVec.ofNat 8 kind, tag := h.tag, code := code }

/-- Two states agree on the blocks that only the wheels and the converter move, on the settings, and on the model's own
fields. -/
def State.sensesAs (s t : State) : Prop :=
  t.clock = s.clock ∧ t.periods = s.periods ∧ t.travel = s.travel ∧ t.scan = s.scan ∧ t.settings = s.settings ∧
    t.freeCount = s.freeCount ∧ t.pending = s.pending

/-- The code of an enumeration's value: its place in the list that its rule gives, from 0 (R178). -/
def codeIn {α : Type} [DecidableEq α] (list : List α) (x : α) : List Byte := [BitVec.ofNat 8 (list.idxOf x)]

/-- The code of such a value or of none, which is all bits set (R178). -/
def codeOrNone {α : Type} [DecidableEq α] (list : List α) : Option α → List Byte
  | none => [0xFF]
  | some x => codeIn list x

/-! ### What one change brings with it -/

/-- Two tables hold an entry alike, but for its count of engagements, which follows the binding source (R58). -/
def CeilingTable.sameEntry (t u : CeilingTable) (src : Source) : Prop :=
  (t.entry src).active = (u.entry src).active ∧ (t.entry src).cap = (u.entry src).cap ∧
    (t.entry src).since = (u.entry src).since

/-- Two event sets hold a kind alike (R195). -/
def EventSet.sameKind (t u : EventSet) (k : EventKind) : Prop :=
  t.pending.getLsbD k.index = u.pending.getLsbD k.index ∧ t.counts[k.index] = u.counts[k.index]

/-- A kind is pending in both links' event sets (R195). -/
def State.told (k : EventKind) (t : State) : Prop := ∀ l : Link, (t.notices.events l).pending.getLsbD k.index = true

/-- A kind has been posted once to both links from `u` to `t` (R195). -/
def State.postedOnce (k : EventKind) (u t : State) : Prop := ∀ l : Link,
  (t.notices.events l).pending.getLsbD k.index = true ∧
    (t.notices.events l).counts[k.index] = min 15 ((u.notices.events l).counts[k.index] + 1)

/-- What one change of the Ceiling Table reports, from `u` to `t` (R58, R59): nothing while the binding source of the report
direction stands; a new one has CEILING_BINDING posted to both links, one engagement more and the time as last change, and
counts an urgent stop where urgent comes to apply with the speed reference above 0. -/
def State.CeilingReports (u t : State) : Prop :=
  let was := u.ceiling.reported
  let is := t.ceiling.reported
  let engaged := fun (x : State) (src : Source) => (x.ceiling.entry src).engagements
  let stops := fun (x : State) => x.bank.tallies[Tally.index .urgentStops]
  let urgent := fun (src : Source) => src = .driveLoss ∨ src = .driveFault
  (is = was → t.ceiling.lastChange = u.ceiling.lastChange ∧ (∀ src, engaged t src = engaged u src) ∧
    t.notices = u.notices ∧ stops t = stops u) ∧
  (is ≠ was → t.ceiling.lastChange = u.now ∧ engaged t is = min 65535 (engaged u is + 1) ∧
    (∀ src, src ≠ is → engaged t src = engaged u src) ∧ u.postedOnce .ceilingBinding t ∧
    (urgent is → ¬urgent was → 0 < u.gov.vRef → stops t = min 65535 (stops u + 1)) ∧
    (¬urgent is ∨ urgent was ∨ u.gov.vRef = 0 → stops t = stops u))

/-- From `u` to `t` only what follows a change has moved. The bars have been judged (R117), which changes their records, the
pump's duty and dry count, the channels 14 to 17, and the entries SPRAY_LIMIT and DRY_SWEEP. The entries of `posted` have
been posted to. A change of binding has posted CEILING_BINDING and may have counted an urgent stop (R58, R59). The kinds of
`kinds` stand posted to both links, and of the other tallies only those of `counted` have moved. -/
structure State.SettlesTo (posted : List Source) (kinds : List EventKind) (counted : List Tally) (u t : State) : Prop where
  channels : ∀ ch : Channel, ch.val < 14 → t.output.channels[ch] = u.output.channels[ch]
  owners : ∀ ch : Channel, t.output.channels[ch].fault = u.output.channels[ch].fault ∧
    t.output.channels[ch].holder = u.output.channels[ch].holder ∧ t.output.channels[ch].level = u.output.channels[ch].level
  cuts : t.output.driveCut = u.output.driveCut ∧ t.output.broomCut = u.output.broomCut
  entries : ∀ src : Source, src ∉ posted → src ≠ .sprayLimit → src ≠ .drySweep → t.ceiling.sameEntry u.ceiling src
  report : t.ceiling.reportDir = u.ceiling.reportDir
  events : ∀ (l : Link) (k : EventKind), k ∉ kinds → k ≠ .ceilingBinding →
    (t.notices.events l).sameKind (u.notices.events l) k
  posts : ∀ k ∈ kinds, t.told k
  masks : ∀ l : Link, (t.notices.events l).mask = (u.notices.events l).mask
  alarms : t.notices.alarms = u.notices.alarms
  tallies : ∀ x : Tally, x ∉ counted → x ≠ .urgentStops → t.bank.tallies[x.index] = u.bank.tallies[x.index]
  bars : ∀ b : Bar, (t.spray.bar b).enable = (u.spray.bar b).enable ∧
    (t.spray.bar b).valveFault = (u.spray.bar b).valveFault ∧ (t.spray.bar b).deliveredRem = (u.spray.bar b).deliveredRem ∧
    (Tally.shortfall ∉ counted → (t.spray.bar b).shortfallRem = (u.spray.bar b).shortfallRem)
  tank : t.spray.tank = u.spray.tank ∧ t.spray.level = u.spray.level ∧ t.spray.latch = u.spray.latch ∧
    t.spray.pressure = u.spray.pressure
  rest : t = { u with output := t.output, ceiling := t.ceiling, notices := t.notices, spray := t.spray
                      bank := { u.bank with tallies := t.bank.tallies } }

/-- The bars stand as their conditions say (R117), and DRY_SWEEP and SPRAY_LIMIT as theirs (R129, R137). -/
def State.barsJudged (t : State) : Prop :=
  (∀ b : Bar, (t.spray.bar b).active = t.barMayBeActive b) ∧
  ((t.ceiling.entry .drySweep).active = true ↔ t.unit.mode = .sweep ∧ (t.spray.tank = .empty ∨ t.spray.latch = true)) ∧
  ((t.ceiling.entry .sprayLimit).active = true ↔ t.program.holdsSpeed = true ∧
    ∃ b : Bar, (t.spray.bar b).active = true ∧ 0 < (effectiveDose t.spray.tank t.program b).getD 0)

/-- The used points of a curve have strictly increasing speeds (R22). -/
def Curve.Rising (c : Curve) : Prop :=
  ∀ (k : Nat) (_ : k + 1 < 6), k + 1 < c.count → c.points[k].speed < c.points[k + 1].speed

/-- The pulse that a bar's owed water asks for (R125). -/
def State.askedPulse (b : Bar) (u : State) : Nat := (u.spray.bar b).owed * 10 / u.settings.spray.flow b

/-- The longest pulse, P - 10, holds what is asked for (R121, R125). -/
def State.givenPulse (b : Bar) (u : State) : Nat := min (u.askedPulse b) (u.program.period - 10)

/-- The quantity of that pulse (R116). -/
def State.givenWater (b : Bar) (u : State) : Nat := u.givenPulse b * u.settings.spray.flow b / 10

/-- The cycle start of a bar (R125, R127), from `u` to `t`: nothing for an inactive bar or an open pulse; a skip below Mmin;
otherwise a pulse of the owed water's length, at most P - 10, whose water leaves the owed water and is counted, with
SPRAY_SATURATED posted when the bar becomes saturated. No other bar, channel, tally or event has moved. -/
structure State.StartsCycle (b : Bar) (u t : State) : Prop where
  idle : (u.spray.bar b).active = false ∨ (u.spray.bar b).pulseEnd.isSome = true → t = u
  skips : (u.spray.bar b).active = true → (u.spray.bar b).pulseEnd = none → u.askedPulse b < u.settings.spray.mMin →
    t.spray.bar b = { u.spray.bar b with saturated := false, lastPulse := 0 } ∧ t = { u with spray := t.spray }
  pulses : (u.spray.bar b).active = true → (u.spray.bar b).pulseEnd = none → u.settings.spray.mMin ≤ u.askedPulse b →
    (let x := u.spray.bar b
     let sum := x.deliveredRem + u.givenWater b
     t.spray.bar b = { x with
       owed := x.owed - u.givenWater b, pulseEnd := some (later u.now (u.givenPulse b)), lastPulse := u.givenPulse b
       saturated := decide (u.program.period - 10 < u.askedPulse b), deliveredRem := sum % 1000 } ∧
     t.output.channels[b.valve].setpoint = 1 ∧
     t.bank.tallies[Tally.index (.water b)] = min 16777215 (u.bank.tallies[Tally.index (.water b)] + sum / 1000) ∧
     (u.program.period - 10 < u.askedPulse b → x.saturated = false → u.postedOnce .spraySaturated t) ∧
     (u.askedPulse b ≤ u.program.period - 10 ∨ x.saturated = true → t.notices = u.notices))
  others : ∀ k, k ≠ b → t.spray.bar k = u.spray.bar k
  pump : t.spray = { u.spray with left := t.spray.left, right := t.spray.right, main := t.spray.main }
  channels : ∀ ch, ch ≠ b.valve → t.output.channels[ch] = u.output.channels[ch]
  owners : t.output.channels[b.valve].fault = u.output.channels[b.valve].fault ∧
    t.output.channels[b.valve].holder = u.output.channels[b.valve].holder ∧
    t.output.channels[b.valve].level = u.output.channels[b.valve].level
  cuts : t.output.driveCut = u.output.driveCut ∧ t.output.broomCut = u.output.broomCut
  tallies : ∀ x : Tally, x ≠ .water b → t.bank.tallies[x.index] = u.bank.tallies[x.index]
  events : ∀ (l : Link) (k : EventKind), k ≠ .spraySaturated → (t.notices.events l).sameKind (u.notices.events l) k
  masks : ∀ l : Link, (t.notices.events l).mask = (u.notices.events l).mask
  alarms : t.notices.alarms = u.notices.alarms
  rest : t = { u with
    spray := t.spray, output := t.output, notices := t.notices, bank := { u.bank with tallies := t.bank.tallies } }

/-- What a bar owes after some distance ticks, before the cap holds it (R122). -/
def State.owedWith (b : Bar) (n : Nat) (u : State) : Nat :=
  (u.spray.bar b).owed + n * (effectiveDose u.spray.tank u.program b).getD 0

/-- What an active bar's owed water exceeds its cap by in some distance ticks (R122, R123). -/
def State.shortOf (b : Bar) (n : Nat) (u : State) : Nat :=
  if (u.spray.bar b).active = true ∧ 0 < n then u.owedWith b n - owedCap u.program (u.settings.spray.flow b) else 0

/-- Some distance ticks have been taken from `u` to `t` (R45, R112, R122, R123): the tick count, the metre remainder and the
odometer; a hundredth of a metre on each arm that sweeps; and on each active bar a dose of water a tick, up to the owed-water
cap, with what lies beyond it counted as shortfall. -/
structure State.TicksTaken (n : Nat) (u t : State) : Prop where
  travel : t.travel.tickCount = u.travel.tickCount + BitVec.ofNat 16 n ∧
    t.travel.metreRem = (u.travel.metreRem + n) % 100 ∧
    t.travel.odometer = u.travel.odometer + BitVec.ofNat 32 ((u.travel.metreRem + n) / 100)
  sweeps : ∀ a : Arm, armSweeps a (u.arm a).state = true →
    t.bank.swept a = (u.bank.swept a + n) % 100 ∧
    t.bank.tallies[Tally.index (.swept a)] =
      min 16777215 (u.bank.tallies[Tally.index (.swept a)] + (u.bank.swept a + n) / 100)
  rests : ∀ a : Arm, armSweeps a (u.arm a).state = false →
    t.bank.swept a = u.bank.swept a ∧ t.bank.tallies[Tally.index (.swept a)] = u.bank.tallies[Tally.index (.swept a)]
  dry : ∀ b : Bar, (u.spray.bar b).active = false ∨ n = 0 → t.spray.bar b = u.spray.bar b
  wets : ∀ b : Bar, (u.spray.bar b).active = true → 0 < n →
    t.spray.bar b = { u.spray.bar b with
      owed := min (owedCap u.program (u.settings.spray.flow b)) (u.owedWith b n)
      shortfallRem := ((u.spray.bar b).shortfallRem + u.shortOf b n) % 1000 }
  shortfall : t.bank.tallies[Tally.index .shortfall] = min 16777215 (u.bank.tallies[Tally.index .shortfall] +
    (((u.spray.bar .left).shortfallRem + u.shortOf .left n) / 1000 +
      ((u.spray.bar .right).shortfallRem + u.shortOf .right n) / 1000 +
      ((u.spray.bar .main).shortfallRem + u.shortOf .main n) / 1000))

/-- A dither carrier after its target has been formed anew (R163, R164): at rest with the pending values loaded for target 0, at
the beginning of the high part for a rise from rest, and in its place otherwise. -/
def Carrier.Follows (target : Nat) (k j : Carrier) : Prop :=
  (target = 0 → j = {
    part := .rest, pos := 0, high := k.nextHigh.getD k.high, low := k.nextLow.getD k.low, amp := k.nextAmp.getD k.amp }) ∧
  (0 < target → k.part = .rest → j = { k with part := .high, pos := 0 }) ∧
  (0 < target → k.part ≠ .rest → j = k)

/-- SERVICE is left (R13, R172), from `u` to `t`: the mode is TRANSPORT with its MODE cap, MODE_CHANGED and SERVICE_LEFT are
posted to both links, and no channel is in DIRECT; a channel that had no holder stands, but for those of the bars and of the
pump, which are judged. -/
def State.LeavesService (u t : State) : Prop :=
  t.told .modeChanged ∧ t.told .serviceLeft ∧ (t.ceiling.entry .mode).cap = u.settings.caps.transportMax ∧
  (∀ ch : Channel, t.output.channels[ch].holder = none ∧ t.output.stateOf ch ≠ .direct ∧
    t.output.channels[ch].fault = u.output.channels[ch].fault ∧
    (ch.val < 14 → t.output.channels[ch].setpoint = u.output.channels[ch].setpoint ∧
      (u.output.channels[ch].holder = none → t.output.channels[ch] = u.output.channels[ch]))) ∧
  (∀ src : Source, src ≠ .mode → src ≠ .sprayLimit → src ≠ .drySweep → t.ceiling.sameEntry u.ceiling src) ∧
  t.notices.alarms = u.notices.alarms ∧
  t = { u with
        unit := { u.unit with mode := .transport }, ceiling := t.ceiling, notices := t.notices, spray := t.spray
        output := t.output, bank := { u.bank with tallies := t.bank.tallies } }

/-- The alarm list after a raise (R191): the entry with the key is renewed; with none, a new entry is put last in a list with
room, or after the first entry whose condition is absent has left a full one; a list full of present conditions stands. -/
def RaisedIn (now : Time) (code : AlarmCode) (detail : Nat) (l l' : List Alarm) : Prop :=
  ((∃ a ∈ l, a.code = code ∧ a.detail = detail) →
    l' = l.map fun a => if a.code = code ∧ a.detail = detail then
      { a with last := now, count := min 255 (a.count + 1), present := true } else a) ∧
  ((∀ a ∈ l, ¬(a.code = code ∧ a.detail = detail)) →
    (l.length < 16 → l' = l ++ [⟨code, detail, now, now, 1, true⟩]) ∧
    (16 ≤ l.length → (∃ a ∈ l, a.present = false) →
      l' = l.eraseP (fun a => !a.present) ++ [⟨code, detail, now, now, 1, true⟩]) ∧
    (16 ≤ l.length → (∀ a ∈ l, a.present = true) → l' = l))

/-- An alarm is raised from `u` to `t` (R191), with ALARM_RAISED posted to both links. -/
def State.Raises (code : AlarmCode) (detail : Nat) (u t : State) : Prop :=
  RaisedIn t.now code detail u.notices.alarms t.notices.alarms ∧ t.told .alarmRaised

/-- An alarm's condition goes absent from `u` to `t` (R192); ALARM_GONE is posted to both links when it was present. -/
def State.GoesAbsent (code : AlarmCode) (detail : Nat) (u t : State) : Prop :=
  t.notices.alarms = u.notices.alarms.map (fun a =>
    if a.code = code ∧ a.detail = detail then { a with present := false } else a) ∧
  ((∃ a ∈ u.notices.alarms, a.code = code ∧ a.detail = detail ∧ a.present = true) → t.told .alarmGone)

/-- The setpoints of an arm's channels are those of the table of R88 for the state and phase the arm stands in: the lift coil
in RAISING and in the lift phase, the lower coil in LOWERING, WORKING, JAMMED and the settle phase, the program force in
LOWERING and WORKING, and the rotation there and in YIELDING. -/
def State.armPosted (a : Arm) (t : State) : Prop :=
  let r := t.arm a
  let set := fun (ch : Channel) => t.output.channels[ch].setpoint
  let settles := r.state = .yielding ∧ r.phase = some .settle
  let lifts := r.state = .yielding ∧ r.phase ≠ some .settle
  let presses := r.state = .lowering ∨ r.state = .working
  (set a.lift = 1 ↔ r.state = .raising ∨ lifts) ∧ (set a.lift = 0 ∨ set a.lift = 1) ∧
  (set a.lower = 1 ↔ presses ∨ r.state = .jammed ∨ settles) ∧ (set a.lower = 0 ∨ set a.lower = 1) ∧
  (presses ∨ r.state = .yielding → set a.motor = t.rotation a ∧ r.rot = t.rotation a) ∧
  (¬presses ∧ r.state ≠ .yielding → set a.motor = 0 ∧ r.rot = 0) ∧
  (∀ ch, a.force = some ch →
    (presses → set ch = t.program.forceOf a ∧ r.force = t.program.forceOf a) ∧ (¬presses → set ch = 0 ∧ r.force = 0))

/-- The three entries of the arms stand active on their conditions (R51). -/
def State.armEntriesJudged (t : State) : Prop :=
  ((t.ceiling.entry .armTransition).active = true ↔ ∃ b : Arm, (t.arm b).state = .lowering ∨ (t.arm b).state = .raising ∨
    (t.arm b).state = .fault ∨ ((t.arm b).state = .stowed ∧ (t.arm b).pending = true)) ∧
  ((t.ceiling.entry .armYield).active = true ↔ (t.arm .left).state = .yielding ∨ (t.arm .right).state = .yielding) ∧
  ((t.ceiling.entry .reverseArms).active = true ↔ (t.arm .left).state ≠ .stowed ∨ (t.arm .right).state ≠ .stowed)

/-- The report of an arm's new state gives the unit nothing to act on (R10): the mode is not LEAVING, or the arm is not down. -/
def State.staysOut (a : Arm) (u t : State) : Prop :=
  u.unit.mode ≠ .leaving ∨ ((t.arm a).state ≠ .stowed ∧ (t.arm a).state ≠ .fault)

/-- From `u` to `t` an arm has changed its state (R88, R110, R111): its coils are posted for the new state, the arm entries
and the bars are judged, ARM_STATE is posted once to both links, and no other arm, no other arm's channel, no alarm, no tally
but the urgent stops and no other event but CEILING_BINDING has moved. Where the arm is down in LEAVING, the unit may have
acted on the report, with the range request or the return to TRANSPORT and its swap (R10, R11, R28). -/
structure State.MovesArm (a : Arm) (u t : State) : Prop where
  others : ∀ b : Arm, b ≠ a → t.arm b = u.arm b
  flags : t.arms.holdDone = u.arms.holdDone ∧ t.arms.lock = u.arms.lock ∧ t.arms.cutSeen = u.arms.cutSeen ∧
    t.arms.dryApplied = u.arms.dryApplied
  channels : ∀ ch : Channel, ch.val < 14 → armOfChannel ch ≠ some a → t.output.channels[ch] = u.output.channels[ch]
  owners : ∀ ch : Channel, t.output.channels[ch].fault = u.output.channels[ch].fault ∧
    t.output.channels[ch].holder = u.output.channels[ch].holder ∧ t.output.channels[ch].level = u.output.channels[ch].level
  cuts : t.output.driveCut = u.output.driveCut ∧ t.output.broomCut = u.output.broomCut
  posted : t.armPosted a
  judged : t.armEntriesJudged ∧ t.barsJudged
  told : u.postedOnce .armState t
  masks : ∀ l : Link, (t.notices.events l).mask = (u.notices.events l).mask
  events : ∀ (l : Link) (k : EventKind), k ≠ .armState → k ≠ .ceilingBinding →
    (k ≠ .modeChanged ∧ k ≠ .programSwapped) ∨ State.staysOut a u t → (t.notices.events l).sameKind (u.notices.events l) k
  tallies : ∀ x : Tally, x ≠ .urgentStops → x ≠ .shortfall ∨ State.staysOut a u t →
    t.bank.tallies[x.index] = u.bank.tallies[x.index]
  alarms : t.notices.alarms = u.notices.alarms
  entries : State.staysOut a u t → ∀ src : Source, src ∉ [Source.armTransition, .armYield, .reverseArms, .sprayLimit,
    .drySweep] → t.ceiling.sameEntry u.ceiling src
  rest : State.staysOut a u t → t = { u with
    arms := t.arms, output := t.output, ceiling := t.ceiling, notices := t.notices, spray := t.spray
    bank := { u.bank with tallies := t.bank.tallies } }
  leaving : t = { u with
    arms := t.arms, output := t.output, ceiling := t.ceiling, notices := t.notices, spray := t.spray
    bank := { u.bank with tallies := t.bank.tallies }, unit := t.unit
    gov := { u.gov with requested := t.gov.requested, shift := t.gov.shift, settle := t.gov.settle } }

/-- A side arm's strike list after a strike (R102): the entries within the strike window, and the present time. -/
def State.strikeList (a : SideArm) (u : State) : List Time :=
  (u.arm a.arm).strikes.dropWhile (fun x => u.settings.arms.strikeWindow < since u.now x) ++ [u.now]

/-- A kerb strike of a side arm (R101 to R103), from `u` to `t`: it is counted, posted once and listed. A list that reaches the
strike limit is emptied, the arm raises, and STRIKE_REPEAT is raised and made absent; otherwise the arm is in the lift phase
of a yield. An arm that leaves WORKING or raises is moved as `MovesArm` says of one; no other tally, event or alarm moves. -/
structure State.Strikes (a : SideArm) (u t : State) : Prop where
  counted : t.bank.tallies[Tally.index (.strikes a)] = min 65535 (u.bank.tallies[Tally.index (.strikes a)] + 1)
  posted : u.postedOnce .strike t
  others : ∀ b : Arm, b ≠ a.arm → t.arm b = u.arm b
  channels : ∀ ch : Channel, ch.val < 14 → armOfChannel ch ≠ some a.arm → t.output.channels[ch] = u.output.channels[ch]
  masks : ∀ l : Link, (t.notices.events l).mask = (u.notices.events l).mask
  events : ∀ (l : Link) (k : EventKind), k ∉ [EventKind.strike, .armState, .ceilingBinding, .alarmRaised, .alarmGone] →
    (t.notices.events l).sameKind (u.notices.events l) k
  tallies : ∀ x : Tally, x ∉ [Tally.strikes a, .urgentStops, .overflows] →
    t.bank.tallies[x.index] = u.bank.tallies[x.index]
  moves : (u.arm a.arm).state = .working ∨ u.settings.arms.strikeLimit ≤ (u.strikeList a).length →
    t.armPosted a.arm ∧ t.armEntriesJudged ∧ t.barsJudged ∧ u.postedOnce .armState t
  stays : (u.arm a.arm).state = .yielding → (u.strikeList a).length < u.settings.arms.strikeLimit →
    (∀ l : Link, (t.notices.events l).sameKind (u.notices.events l) .armState) ∧ t.ceiling = u.ceiling ∧ t.spray = u.spray
  repeats : u.settings.arms.strikeLimit ≤ (u.strikeList a).length →
    (t.arm a.arm).state = .raising ∧ (t.arm a.arm).phase = none ∧ (t.arm a.arm).strikes = [] ∧
    (t.arm a.arm).timer = some (later u.now u.program.raiseTime) ∧ u.postedOnce .alarmRaised t ∧
    ∃ list : List Alarm, RaisedIn u.now .strikeRepeat a.arm.number u.notices.alarms list ∧
      t.notices.alarms = list.map (fun x =>
        if x.code = .strikeRepeat ∧ x.detail = a.arm.number then { x with present := false } else x) ∧
      ((∃ x ∈ list, x.code = .strikeRepeat ∧ x.detail = a.arm.number ∧ x.present = true) → u.postedOnce .alarmGone t)
  yields : (u.strikeList a).length < u.settings.arms.strikeLimit →
    (t.arm a.arm).state = .yielding ∧ (t.arm a.arm).phase = some .lift ∧ (t.arm a.arm).strikes = u.strikeList a ∧
    (t.arm a.arm).timer = some (later u.now u.settings.arms.yieldLift) ∧ t.notices.alarms = u.notices.alarms ∧
    (∀ (l : Link), (t.notices.events l).sameKind (u.notices.events l) .alarmRaised ∧
      (t.notices.events l).sameKind (u.notices.events l) .alarmGone) ∧
    t.bank.tallies[Tally.index .overflows] = u.bank.tallies[Tally.index .overflows]
  rest : t = { u with
    arms := t.arms, output := t.output, ceiling := t.ceiling, notices := t.notices, spray := t.spray
    bank := { u.bank with tallies := t.bank.tallies } }

/-- A detection of comparator 2 with or without a cut, from `u` to `t`, as the Output Stage and the Arm Controller take it before
the jam (R88, R105, R150, R169): without one nothing has moved; with one the latch and cut-seen are set, channel 13 is off with
setpoint 0 and no holder, whatever the state of the broom, and the rotation posted last is 0. -/
structure State.TakesBroomCut (cut : Bool) (u t : State) : Prop where
  stands : cut = false → t = u
  seen : cut = true → t.arms = { u.arms with cutSeen := true, main := { u.arms.main with rot := 0 } }
  latched : cut = true → t.output = { u.output with broomCut := true, channels := t.output.channels }
  channel : cut = true → t.output.channels[(13 : Channel)] = { u.output.channels[(13 : Channel)] with
    setpoint := 0, target := 0, holder := none, level := 0, openSince := none
    carrier := t.output.channels[(13 : Channel)].carrier }
  carrier : cut = true → Carrier.Follows 0 u.output.channels[(13 : Channel)].carrier t.output.channels[(13 : Channel)].carrier
  off : cut = true → t.output.commanded 13 = 0
  others : ∀ ch : Channel, ch ≠ 13 → t.output.channels[ch] = u.output.channels[ch]
  rest : t = { u with arms := t.arms, output := t.output }

/-- The broom's jam list after a jam (R106): the entries within the jam window, and the present time. -/
def State.jamList (u : State) : List Time :=
  u.arms.main.strikes.dropWhile (fun x => u.settings.arms.jamWindow * 1000 < since u.now x) ++ [u.now]

/-- A state with one more broom jam counted (R106). -/
def State.jamCounted (u : State) : State :=
  { u with bank := { u.bank with
    tallies := u.bank.tallies.set (Tally.index .jams) (min 65535 (u.bank.tallies[Tally.index .jams] + 1)) } }

/-- A jam of the broom (R106, R108), from `u` to `t`: it is counted and listed. Two entries or fewer hold the broom in JAMMED
with the jam hold running and hold-done clear; a third empties the list, sets the lock mark, stops the timer and raises
JAM_REPEAT, and leaves hold-done as it stood (entry 42). The broom is moved as `MovesArm` says. -/
structure State.Jams (u t : State) : Prop where
  holds : u.jamList.length < 3 →
    State.MovesArm .main { u.jamCounted with arms := { u.arms with holdDone := false } } t ∧
    t.arms.main = { u.arms.main with
      state := .jammed, phase := none, strikes := u.jamList, timer := some (later u.now u.settings.arms.jamHold), rot := 0 }
  locks : 3 ≤ u.jamList.length → ∃ v : State,
    State.MovesArm .main { u.jamCounted with arms := { u.arms with lock := true } } v ∧
    v.arms.main = { u.arms.main with state := .jammed, phase := none, strikes := [], timer := none, rot := 0 } ∧
    State.Raises .jamRepeat 2 v t ∧ v.postedOnce .alarmRaised t ∧
    (∀ l : Link, (t.notices.events l).mask = (v.notices.events l).mask) ∧
    (∀ (l : Link) (k : EventKind), k ≠ .alarmRaised → (t.notices.events l).sameKind (v.notices.events l) k) ∧
    (∀ x : Tally, x ≠ .overflows → t.bank.tallies[x.index] = v.bank.tallies[x.index]) ∧
    t = { v with notices := t.notices, bank := { v.bank with tallies := t.bank.tallies } }

/-- From `u` to `t` one judgement of the bars (R117, R119, R130): a bar that has become inactive is closed and owes nothing, one
that has become active and one that stands keep their record; the pump starts with the first bar and stops with the last. -/
def State.barsSettled (u t : State) : Prop :=
  (∀ b : Bar,
    ((t.spray.bar b).active = (u.spray.bar b).active → t.spray.bar b = u.spray.bar b) ∧
    ((u.spray.bar b).active = false → (t.spray.bar b).active = true →
      t.spray.bar b = { u.spray.bar b with active := true }) ∧
    ((u.spray.bar b).active = true → (t.spray.bar b).active = false →
      t.spray.bar b = { u.spray.bar b with active := false, pulseEnd := none, owed := 0, saturated := false, lastPulse := 0 } ∧
      ((u.spray.bar b).pulseEnd.isSome = true → t.output.channels[b.valve].setpoint = 0))) ∧
  (u.spray.anyActive = false → t.spray.anyActive = true →
    t.spray.duty = u.settings.spray.startDuty ∧ t.spray.dryCount = 0 ∧
    t.output.channels[(14 : Channel)].setpoint = u.settings.spray.startDuty) ∧
  (u.spray.anyActive = true → t.spray.anyActive = false →
    t.spray.duty = 0 ∧ t.spray.dryCount = 0 ∧ t.output.channels[(14 : Channel)].setpoint = 0) ∧
  (u.spray.anyActive = t.spray.anyActive → t.spray.duty = u.spray.duty ∧ t.spray.dryCount = u.spray.dryCount ∧
    t.output.channels[(14 : Channel)] = u.output.channels[(14 : Channel)])

/-- The unit takes a range-done that names `r`, from `u` to `t` (R7, R11, R27, R28): ENTERING becomes SWEEP with the awaited work
range, and LEAVING becomes TRANSPORT with the awaited transport range where every arm is STOWED or FAULT, with a pending swap
applied; with an arm out the reached mark is set and the awaited range stands (entry 15). Any other range-done is discarded. -/
structure State.TakesRangeDone (r : Range) (u t : State) : Prop where
  discards : u.unit.awaited ≠ some r ∨ (u.unit.mode = .entering → r ≠ .work) ∧ (u.unit.mode = .leaving → r ≠ .transport) →
    t.unit = u.unit
  starts : u.unit.awaited = some r → u.unit.mode = .entering → r = .work →
    t.unit = { u.unit with mode := .sweep, awaited := none } ∧
    (t.ceiling.entry .mode).cap = min u.program.workMax u.settings.caps.transportMax
  waits : u.unit.awaited = some r → u.unit.mode = .leaving → r = .transport →
    (∃ a : Arm, (u.arm a).state ≠ .stowed ∧ (u.arm a).state ≠ .fault) → t.unit = { u.unit with reached := true }
  returns : u.unit.awaited = some r → u.unit.mode = .leaving → r = .transport →
    (∀ a : Arm, (u.arm a).state = .stowed ∨ (u.arm a).state = .fault) →
    t.unit = { u.unit with
      mode := .transport, awaited := none, requested := false, reached := false, swap := none
      slots := t.unit.slots, active := t.unit.active } ∧
    (t.ceiling.entry .mode).cap = u.settings.caps.transportMax ∧
    (u.unit.swap = none → t.unit.slots = u.unit.slots ∧ t.unit.active = u.unit.active) ∧
    (∀ w, u.unit.swap = some w →
      t.unit.slots = u.unit.slots.set w.target (some w.record) ∧ t.unit.active = some w.target ∧
      u.postedOnce .programSwapped t ∧ (t.ceiling.entry .reverseArms).cap = w.record.reverseCap ∧
      (t.ceiling.entry .drySweep).cap = w.record.dryCap)
  changes : t.unit.mode ≠ u.unit.mode → u.postedOnce .modeChanged t ∧ t.barsJudged ∧ State.barsSettled u t
  stands : t.unit.mode = u.unit.mode → t.spray = u.spray ∧
    (∀ ch : Channel, 3 ≤ ch.val → t.output.channels[ch] = u.output.channels[ch]) ∧
    (∀ src : Source, src ≠ .rangeShift → t.ceiling.sameEntry u.ceiling src) ∧
    (∀ l : Link, (t.notices.events l).sameKind (u.notices.events l) .modeChanged)
  swaps : t.unit.swap = u.unit.swap → t.ceiling.sameEntry u.ceiling .reverseArms ∧
    t.bank.tallies[Tally.index .shortfall] = u.bank.tallies[Tally.index .shortfall] ∧
    (∀ l : Link, (t.notices.events l).sameKind (u.notices.events l) .programSwapped)
  channels : ∀ ch : Channel, 3 ≤ ch.val → ch.val < 14 → t.output.channels[ch] = u.output.channels[ch]
  entries : ∀ src : Source, src ∉ [Source.mode, .rangeShift, .reverseArms, .sprayLimit, .drySweep] →
    t.ceiling.sameEntry u.ceiling src

/-- Ground speed and the measured direction stand as formed from the wheels (R40, R41), over the direction before. -/
def Travel.Formed (was : Dir) (t : Travel) : Prop :=
  (t.sensorFault = none →
    t.ground = (if t.slipHold.isSome = true then min t.left.speed t.right.speed else (t.left.speed + t.right.speed) / 2) ∧
    t.dir = (if t.left.speed = 0 ∧ t.right.speed = 0 then was
      else if t.left.speed < t.right.speed then t.right.dir else t.left.dir)) ∧
  (∀ w, t.sensorFault = some w →
    t.ground = (t.wheel w.other).speed ∧ t.dir = if 0 < (t.wheel w.other).speed then (t.wheel w.other).dir else was)

/-- The sensor watch of `b` after a check that found the watch of `a` (R42): none is made while a fault stands; a watch is kept
while its wheel is silent and the other above 500, and one begins where none runs. -/
def Travel.WatchChecked (now : Time) (a b : Travel) : Prop :=
  let silent := fun (w : Wheel) => (b.wheel w).speed = 0 ∧ 500 < (b.wheel w.other).speed
  (b.sensorFault ≠ none → b.watch = a.watch) ∧
  (b.sensorFault = none →
    (∀ x, a.watch = some x → silent x.wheel → b.watch = some x) ∧
    ((∀ x, a.watch = some x → ¬silent x.wheel) → b.watch =
      if silent .left then some ⟨.left, now⟩ else if silent .right then some ⟨.right, now⟩ else none))

/-- Ground speed has changed to a value above 0 (R187). -/
def Travel.Rises (a b : Travel) : Prop := b.ground ≠ a.ground ∧ 0 < b.ground

/-- The restart window, from `u` to `t`, over changes of ground speed (R187): the first change to a value above 0 closes an open
one, with RESTART_LAPSED to its holder alone. The two links' records stand. -/
def State.WindowFollows (rises : Prop) (u t : State) : Prop :=
  (∀ l : Link, t.link l = u.link l) ∧
  (rises → ∀ a, u.links.window = some a →
    t.links.window = none ∧ (t.notices.events a.holder).pending.getLsbD 10 = true ∧
    (t.notices.events a.holder).counts[10] = min 15 ((u.notices.events a.holder).counts[10] + 1) ∧
    (t.notices.events a.holder.other).sameKind (u.notices.events a.holder.other) .restartLapsed) ∧
  (¬rises ∨ u.links.window = none →
    t.links = u.links ∧ ∀ l : Link, (t.notices.events l).sameKind (u.notices.events l) .restartLapsed)

/-- A channel has entered FAULT from `u` to `t` (R167), and its owner has acted (R83, R98, R120, R132, R134): the output is off,
the holder released, the alarm raised, and DRIVE_FAULT, the arm's FAULT, the bar's valve fault or the pump-dry latch stands. -/
def State.EntersFault (ch : Channel) (kind : FaultKind) (u t : State) : Prop :=
  let c := t.output.channels[ch]
  c.fault = kind ∧ c.holder = none ∧ c.level = 0 ∧ c.openSince = none ∧ c.target = 0 ∧ t.output.commanded ch = 0 ∧
  (∀ k : Channel, k ≠ ch → t.output.channels[k].fault = u.output.channels[k].fault) ∧ t.told .alarmRaised ∧
  (∃ list : List Alarm,
    RaisedIn t.now (match kind with | .shortLoad => .channelShort | _ => .channelOpen) ch.val u.notices.alarms list ∧
    (ch.val ≤ 2 ∨ 15 ≤ ch.val → t.notices.alarms = list) ∧
    (∀ a, armOfChannel ch = some a →
      ((u.arm a).state = .fault → t.notices.alarms = list) ∧
      ((u.arm a).state ≠ .fault → RaisedIn t.now .armFault a.number list t.notices.alarms)) ∧
    (ch = 14 → (u.spray.latch = true → t.notices.alarms = list) ∧
      (u.spray.latch = false → RaisedIn t.now .pumpDry 0 list t.notices.alarms))) ∧
  (ch.val ≤ 2 → (t.ceiling.entry .driveFault).active = true ∧ (t.ceiling.entry .driveFault).cap = 0 ∧
    t.arms = u.arms ∧ t.spray = u.spray) ∧
  (∀ a, armOfChannel ch = some a →
    (t.arm a).state = .fault ∧ ((u.arm a).state ≠ .fault → (t.arm a).timer = none ∧ (t.arm a).pending = false ∧
      (t.arm a).phase = none ∧ t.armPosted a ∧ t.told .armState) ∧
    (t.arm a).strikes = (u.arm a).strikes ∧ (∀ b, b ≠ a → t.arm b = u.arm b) ∧ t.arms.lock = u.arms.lock ∧
    t.arms.cutSeen = u.arms.cutSeen) ∧
  (ch = 14 → t.spray.latch = true ∧ t.arms = u.arms) ∧
  (∀ b : Bar, ch = b.valve → (t.spray.bar b).valveFault = true ∧ (t.spray.bar b).active = false ∧ t.arms = u.arms)

/-- A converter fault has begun from `u` to `t` (R154). -/
def State.FaultBegins (detail : Nat) (u t : State) : Prop :=
  t.scan.fault = true ∧ t.scan.passRun = 0 ∧ (∀ i : Fin 9, t.scan.results[i].stale = true) ∧
  (∀ c : Fin 4, t.scan.comps[c] = { u.scan.comps[c] with counter := 0 }) ∧
  (∀ k : Fin 4, t.scan.causes[k] = decide (k.val = detail)) ∧
  (t.ceiling.entry .sensorFault).active = true ∧ (t.ceiling.entry .sensorFault).cap = u.settings.caps.sensorCap ∧
  State.Raises .converterFault detail u t

/-! ### The settings (R31, R49, R65, R92, R116, R143, R148, R161) -/

/-- The settings of the groups with index 0 (R181): setting, group, item, and the two ends of its range, row by row from the
tables of R31, R49, R65, R92 and R116. -/
def settingRows : List (Setting × Nat × Nat × Int × Int) :=
  [(.pitchLeft, 1, 0, 10, 500), (.pitchRight, 1, 1, 10, 500), (.pulseTimeout, 1, 2, 200, 2000),
   (.spinLimit, 1, 3, 1000, 8000), (.slipHold, 1, 4, 500, 5000)] ++
  [(.transportMax, 2, 0, 1000, 8000), (.shiftSpeed, 2, 1, 300, 2000), (.armMove, 2, 2, 200, 2000),
   (.yieldCap, 2, 3, 200, 2000), (.slope1, 2, 4, 20, 300), (.slopeCap1, 2, 5, 200, 4000), (.slope2, 2, 6, 20, 300),
   (.slopeCap2, 2, 7, 200, 4000), (.traction, 2, 8, 200, 4000), (.oilLimit, 2, 9, 650, 1200),
   (.oilCap, 2, 10, 200, 4000), (.sensorCap, 2, 11, 200, 4000), (.crawl, 2, 12, 200, 2000)] ++
  [(.iStart, 3, 0, 0, 1000), (.iFull, 3, 1, 400, 2000), (.vFullWork, 3, 2, 500, 5000), (.vFullTransport, 3, 3, 2000, 9000),
   (.kDiv, 3, 4, 10, 500), (.trimLimit, 3, 5, 0, 500), (.stopDecel, 3, 6, 1000, 5000), (.accel, 3, 7, 100, 2000),
   (.decel, 3, 8, 100, 2500), (.settle, 3, 9, 100, 1000)] ++
  [(.yieldLift, 4, 0, 100, 1000), (.yieldSettle, 4, 1, 100, 2000), (.strikeWindow, 4, 2, 1000, 10000),
   (.strikeLimit, 4, 3, 2, 5), (.jamHold, 4, 4, 500, 5000), (.jamWindow, 4, 5, 10, 60)] ++
  [(.flowLeft, 5, 0, 10, 2550), (.flowRight, 5, 1, 10, 2550), (.flowMain, 5, 2, 10, 2550), (.mMin, 5, 3, 10, 50),
   (.setpoint, 5, 4, 10, 60), (.band, 5, 5, 1, 10), (.dutyStep, 5, 6, 5, 100), (.startDuty, 5, 7, 100, 800),
   (.dry, 5, 8, 5, 30), (.tankLow, 5, 9, 0, 500), (.tankEmpty, 5, 10, 0, 200), (.hysteresis, 5, 11, 10, 100)]

/-- The cross-checks of a setting in one of those rows against the values held (R49, R65, R116). -/
def crossHolds (x : Settings) (v : Int) (k : Setting) : Prop :=
  (k = .slope1 → v + 20 ≤ x.caps.slope2) ∧ (k = .slope2 → x.caps.slope1 + 20 ≤ v) ∧
  (k = .iStart → v ≤ x.governor.iFull) ∧ (k = .iFull → x.governor.iStart ≤ v) ∧
  (k = .tankLow → x.spray.tankEmpty < v) ∧ (k = .tankEmpty → v < x.spray.tankLow)

/-- A setting stands at an address, belongs to a link, and takes the values of which `ok` holds (R181, R182). -/
def Setting.standsAt (group index item : Nat) (link : Link) (x : Settings) (ok : Int → Prop) (k : Setting) : Prop :=
  settingAt group index item = some k ∧ k.owner = link ∧ ∀ v : Int, k.accepts x v = true ↔ ok v

/-! ### The laws of the device -/

/-- The law of the alarm list (R190): at most 16 entries, no two with the same key, each with an occurrence count from 1 to
255. -/
def State.AlarmLaw (s : State) : Prop :=
  s.notices.alarms.length ≤ 16 ∧
  (s.notices.alarms.Pairwise fun a b => ¬(a.code = b.code ∧ a.detail = b.detail)) ∧
  ∀ a ∈ s.notices.alarms, 1 ≤ a.count ∧ a.count ≤ 255

/-- The law of direct drive (R171): a channel has a direct holder only in SERVICE. -/
def State.DirectLaw (s : State) : Prop :=
  ∀ ch : Channel, s.output.channels[ch].holder.isSome = true → s.unit.mode = .service

/-- The law of the program table (R14): every slot and the pending swap hold a valid program, the active slot holds one, and
some slot is active in ENTERING, SWEEP and LEAVING. -/
def State.ProgramLaw (s : State) : Prop :=
  (∀ (i : Fin 8) (p : Program), s.unit.slots[i] = some p → p.valid = true) ∧
  (∀ w, s.unit.swap = some w → w.record.valid = true) ∧
  (∀ i, s.unit.active = some i → s.unit.slots[i].isSome = true) ∧
  (s.unit.mode.working = true → s.unit.active.isSome = true)

/-- The law of the speed reference (R71, R56): MODE is active with a cap of at most the transport max speed, and the speed
reference is at most the transport max speed. -/
def State.SpeedLaw (s : State) : Prop :=
  (s.ceiling.entry .mode).active = true ∧ (s.ceiling.entry .mode).cap ≤ s.settings.caps.transportMax ∧
    s.gov.vRef ≤ s.settings.caps.transportMax

/-- A pump coil is never held in DIRECT, and its carrier rests while its setpoint is 0 (R163, R171). -/
def ChannelRec.pumpRests (c : ChannelRec) : Prop := c.holder = none ∧ (c.setpoint = 0 → c.carrier.part = .rest)

/-- The law of the two pump coils (R74): one of them has setpoint 0 and stands at rest. -/
def State.PumpLaw (s : State) : Prop :=
  s.output.channels[(0 : Channel)].pumpRests ∧ s.output.channels[(1 : Channel)].pumpRests ∧
    (s.output.channels[(0 : Channel)].setpoint = 0 ∨ s.output.channels[(1 : Channel)].setpoint = 0)

/-- The law of the arm states (R93): in TRANSPORT and in SERVICE every arm is STOWED or FAULT. -/
def State.ArmLaw (s : State) : Prop :=
  s.unit.mode = .transport ∨ s.unit.mode = .service →
    ∀ a : Arm, (s.arm a).state = .stowed ∨ (s.arm a).state = .fault

/-- The law of the spray bars (R117): a bar is active exactly while its conditions hold, has a pulse open only while it is
active, and its owner's setpoint is on only while a pulse is open. -/
def State.BarLaw (s : State) : Prop :=
  ∀ b : Bar, (s.spray.bar b).active = s.barMayBeActive b ∧
    ((s.spray.bar b).pulseEnd.isSome = true → (s.spray.bar b).active = true) ∧
    (0 < s.output.channels[b.valve].setpoint → (s.spray.bar b).pulseEnd.isSome = true)

/-- The law of owed water (R121, R122): none is owed by an inactive bar, and at most twice the pulse capacity by an active
one. -/
def State.OwedLaw (s : State) : Prop :=
  ∀ b : Bar, ((s.spray.bar b).active = false → (s.spray.bar b).owed = 0) ∧
    ((s.spray.bar b).active = true → (s.spray.bar b).owed ≤ owedCap s.program (s.settings.spray.flow b))

/-- The law of the loaded direction (R68, R151): the direction whose input comparator 3 reads is the held direction. -/
def State.HeldLaw (s : State) : Prop := s.gov.held = s.scan.input3

/-- The target of a switched channel follows from its record (R159, R171), and a channel in FAULT has no holder (R167). -/
def ChannelRec.formed (c : ChannelRec) : Prop :=
  (c.fault ≠ .none → c.holder = none) ∧
    c.target = if c.fault ≠ .none then 0 else if c.holder.isSome = true then c.level else c.setpoint

/-- The law of the arm coils (R88, R171): the setpoints of an arm's lift and lower coils are those of its state and phase, their
targets are formed from their records, and one of the two targets is 0. -/
def State.CoilLaw (s : State) : Prop :=
  ∀ a : Arm,
    (let r := s.arm a
     let lift := s.output.channels[a.lift]
     let lower := s.output.channels[a.lower]
     let lifts := r.state = .raising ∨ (r.state = .yielding ∧ r.phase ≠ some .settle)
     let lowers := r.state = .lowering ∨ r.state = .working ∨ r.state = .jammed ∨
       (r.state = .yielding ∧ r.phase = some .settle)
     (lifts → lift.setpoint = 1) ∧ (¬lifts → lift.setpoint = 0) ∧ (lowers → lower.setpoint = 1) ∧
     (¬lowers → lower.setpoint = 0) ∧ lift.formed ∧ lower.formed ∧ (lift.target = 0 ∨ lower.target = 0))

/-- The law of the broom's cut (R88, R105): while cut-seen is set the latch stands, and the motor setpoint and the rotation
posted last are 0, whatever the state of the broom. -/
def State.BroomCutLaw (s : State) : Prop :=
  s.arms.cutSeen = true → s.output.broomCut = true ∧ s.output.channels[(13 : Channel)].setpoint = 0 ∧ s.arms.main.rot = 0

/-- The law of the counts (R44, R45, R112, R123, R125, R195, R58, R197): every remainder is below its whole and every count is
within its width. -/
def State.CountLaw (s : State) : Prop :=
  s.travel.accumulator < 200 ∧ s.travel.metreRem < 100 ∧ (∀ a : Arm, s.bank.swept a < 100) ∧
  (∀ b : Bar, (s.spray.bar b).shortfallRem < 1000 ∧ (s.spray.bar b).deliveredRem < 1000) ∧
  (∀ x : Tally, s.bank.tallies[x.index] ≤ x.limit) ∧
  (∀ (l : Link) (k : EventKind), (s.notices.events l).counts[k.index] ≤ 15) ∧
  (∀ src : Source, (s.ceiling.entry src).engagements ≤ 65535)

/-- The laws of the device together. -/
def State.Laws (s : State) : Prop :=
  s.AlarmLaw ∧ s.DirectLaw ∧ s.ProgramLaw ∧ s.SpeedLaw ∧ s.PumpLaw ∧ s.ArmLaw ∧ s.BarLaw ∧ s.OwedLaw ∧ s.HeldLaw ∧
    s.CoilLaw ∧ s.BroomCutLaw ∧ s.CountLaw

end Sys2Proof.Machine
end

