-- ==== Sys2Proof/Certificates/Slice0/Obligations.lean ====
section
/-! DEFINITION. The statements about the SW-18, for the provers. -/

open Sys2Proof Sys2Proof.Machine

/-! ### The queue and the frames -/

/-- One step takes the command at the front of the queue and is `exec` of it on the state with the queue's rest
(95_what_each_step_holds.md: each step is whole and indivisible). On an empty queue the block idles: the model's choice, entry
2 of the assumption log. -/
def Obligations.StepTakesFront : Prop :=
  ∀ (s : State),
    (∀ (c : Instr) (rest : List Instr), s.pending = c :: rest → step s = exec c { s with pending := rest }) ∧
    (s.pending = [] → step s = .next s)

/-- R174, R175, R178, R179: the sixteen bytes that a well-formed request is sent as read back as that request, with every
operand, whatever bytes follow the sixteenth. -/
def Obligations.RequestFramesReadBack : Prop :=
  ∀ (i : Instr) (h : Head) (kind : Nat) (params bytes extra : List Byte),
    i.wellFormed = true → requestParts i = some (h, kind, params) → frameOf i = some bytes →
      bytes.length = 16 ∧ readFrame h.after h.link (bytes ++ extra) = i

/-- R175, R176: a frame released before its sixteenth byte is a short frame; a complete frame whose byte 15 differs from the
CRC-8 of bytes 0 to 14 is a CRC failure with its bytes 0 and 1. -/
def Obligations.BadFramesTold : Prop :=
  ∀ (after : Nat) (l : Link) (bytes : List Byte),
    (bytes.length < 16 → readFrame after l bytes = .shortFrame after l) ∧
    (∀ (b : Vector Byte 16) (extra : List Byte), crc8 (b.toList.take 15) ≠ b[15] →
      readFrame after l (b.toList ++ extra) = .crcFailure after l b[0] b[1])

/-- R176: a change of any one byte of bytes 0 to 14 changes the CRC-8, so that no frame with one byte wrong is taken. -/
def Obligations.OneByteErrorsCaught : Prop :=
  ∀ (before after : List Byte) (b c : Byte), b ≠ c → crc8 (before ++ b :: after) ≠ crc8 (before ++ c :: after)

/-- R174 to R176, R190, R196: at the assertion of chip select the answer frame takes the answer buffer, the summary flags of
the moment, and the CRC-8, and the port is selected; a frame marked at a joint restart that was never released loses its mark,
which is the model's choice (entry 10). Nothing else changes, in the link's record or beyond it, but the passing of time. -/
def Obligations.AnswerFrameFormed : Prop :=
  ∀ (after : Nat) (l : Link) (s : State), ∃ t : State, exec (.chipSelectAssert after l) s = .next t ∧
    (let f := (t.link l).outFrame
     let a := (s.link l).answer
     let e := s.notices.events l
     f[0] = a.kind ∧ f[1] = a.tag ∧ f[2] = a.code.byte ∧ (f.toList.drop 3).take 11 = a.data.toList ∧
     f[15] = crc8 (f.toList.take 15) ∧
     (f[14].getLsbD 0 = true ↔ ∃ k : Fin 16, e.pending.getLsbD k = true ∧ e.mask.getLsbD k = true) ∧
     (f[14].getLsbD 1 = true ↔ ∃ x ∈ s.notices.alarms, x.present = true) ∧
     (f[14].getLsbD 2 = true ↔ ∃ g, s.unit.staging = some g ∧ g.holder = l) ∧
     (f[14].getLsbD 3 = true ↔ s.links.window.isSome = true) ∧
     (f[14] >>> 4).toNat =
       (match (s.link l).state with | .waiting => 0 | .live => 1 | .lost => 2 | .returned => 3) ∧
     t.link l = { s.link l with selected := true, discard := false, outFrame := f }) ∧
    t.link l.other = s.link l.other ∧ t.links.window = s.links.window ∧ t = { s.elapse after with links := t.links }

/-- R175, R176, R188: a short frame is counted in the link's short frame count, a CRC failure in its CRC failure count, and
each as a bad frame of the link; the answer buffer takes BADFRAME with the received bytes 0 and 1 and data 0 at a CRC failure,
and stands at a short frame. Nothing else changes. One marked at a joint restart is discarded without being counted. -/
def Obligations.BadFramesCounted : Prop :=
  ∀ (after : Nat) (l : Link) (kind tag : Byte) (s : State),
    (let u := s.elapse after
     let x := s.link l
     let counts := fun (c : Instr) (y : LinkRec) => ∃ t : State, exec c s = .next t ∧ t.link l.other = s.link l.other ∧
       (x.discard = false → t.link l = y ∧ t = { u.bump (.badFrames l) with links := t.links }) ∧
       (x.discard = true → t.link l = { x with selected := false, discard := false } ∧ t = { u with links := t.links })
     counts (.shortFrame after l) { x with short := x.short + 1, selected := false } ∧
     counts (.crcFailure after l kind tag) { x with
       crcFail := x.crcFail + 1, selected := false, answer := ⟨kind, tag, .badFrame, Vector.replicate 11 0⟩ })

/-! ### The gate and the links -/

/-- R180, R188: in LOST every request of a known kind is answered STATE, and in RETURNED every one but NULL, the read
requests, CLEAR_ALARM, ACK_EVENTS, SET_EVENT_MASK, RESUME and RESTART; a request answered at the gate is not executed. A frame
marked at a joint restart is discarded without being counted, refreshed or answered. -/
def Obligations.GateHoldsBack : Prop :=
  ∀ (i : Instr) (h : Head) (kind : Nat) (params : List Byte) (s : State),
    requestParts i = some (h, kind, params) →
    (kind ≤ 36 → (s.link h.link).discard = false →
      (((s.taken h).link h.link).state = .lost ∨
        (((s.taken h).link h.link).state = .returned ∧
          kind ∉ [0, 1, 2, 3, 4, 5, 6, 28, 30, 34, 29, 31, 32, 35, 36])) →
      exec i s = .next ((s.taken h).answered h kind .state [])) ∧
    ((s.link h.link).discard = true →
      ∃ t : State, exec i s = .next t ∧ t = { s.elapse h.after with links := t.links } ∧
        t.link h.link = { s.link h.link with selected := false, discard := false } ∧
        t.link h.link.other = s.link h.link.other)

/-- R180: a kind above 36 is answered UNKNOWN in every link state, and READ_STATUS with a selector above 7 is answered UNKNOWN
by the port once it has passed the gate; the request changes nothing else. -/
def Obligations.UnknownRequestAnswered : Prop :=
  ∀ (h : Head) (s : State), (s.link h.link).discard = false →
    (∀ n : Fin 219, exec (.unknownRequestKind h (.kind n)) s =
      .next ((s.taken h).answered h (37 + n.val) .unknown [])) ∧
    (∀ n : Fin 248,
      ((s.taken h).link h.link).state = .live ∨ ((s.taken h).link h.link).state = .returned →
      exec (.unknownRequestKind h (.selector n)) s = .next ((s.taken h).answered h 1 .unknown []))

/-- R177, R183, R184, R55, R58, R59: NULL carries the liveness count alone. It is counted as accepted; with a count that
differs from the last it restarts the deadline timer and moves WAITING and LIVE to LIVE, LOST and RETURNED to RETURNED; with
the same count state and timer stand; the count is kept; and the answer is DONE in LIVE and RETURNED. A link that becomes LIVE
has its loss entry deactivated, with what that change reports; otherwise nothing beyond the link changes. -/
def Obligations.NullRefreshes : Prop :=
  ∀ (h : Head) (s : State), (s.link h.link).discard = false →
    ∃ t : State, exec (.null h) s = .next t ∧
      (let x := s.link h.link
       let y := t.link h.link
       let u := { s.elapse h.after with links := t.links }
       y = { x with
         accepted := x.accepted + 1, lastCount := some h.live, selected := false, state := y.state, timer := y.timer
         answer := y.answer } ∧
       (x.lastCount = some h.live → y.state = x.state ∧ y.timer = x.timer) ∧
       (x.lastCount ≠ some h.live →
         y.timer = some (later t.now x.deadline) ∧
         (x.state = .waiting ∨ x.state = .live → y.state = .live) ∧
         (x.state = .lost ∨ x.state = .returned → y.state = .returned)) ∧
       (y.state = .live ∨ y.state = .returned → t.answerIs h 0 .done) ∧
       (y.state = .lost → t.answerIs h 0 .state) ∧
       (y.state = .live → x.state ≠ .live →
         (t.ceiling.entry (lossEntry h.link)).active = false ∧
         (t.ceiling.entry (lossEntry h.link)).cap = (s.ceiling.entry (lossEntry h.link)).cap ∧
         (t.ceiling.entry (lossEntry h.link)).since = (s.ceiling.entry (lossEntry h.link)).since ∧
         (∀ src, src ≠ lossEntry h.link → t.ceiling.sameEntry s.ceiling src) ∧
         t.ceiling.reportDir = s.ceiling.reportDir ∧ State.CeilingReports u t ∧ t.notices.alarms = s.notices.alarms ∧
         (∀ (l : Link) (k : EventKind), k ≠ .ceilingBinding →
           (t.notices.events l).sameKind (s.notices.events l) k) ∧
         (∀ l : Link, (t.notices.events l).mask = (s.notices.events l).mask) ∧
         (∀ z : Tally, z ≠ .urgentStops → t.bank.tallies[z.index] = s.bank.tallies[z.index]) ∧
         t = { u with
               ceiling := t.ceiling, notices := t.notices, bank := { u.bank with tallies := t.bank.tallies } }) ∧
       (y.state ≠ .live ∨ x.state = .live → t = u)) ∧
      t.link h.link.other = s.link h.link.other ∧ t.links.window = s.links.window

/-- R186, R58, R59: RESUME makes a RETURNED link LIVE with its deadline timer running on, deactivates the link's loss entry,
with what that change reports, and makes the condition of its loss alarm absent; the drive demand, the spray enables and the
work mode stay as they are. In LIVE it is answered NOT_ACTIVE and changes nothing. -/
def Obligations.ResumeRestoresLink : Prop :=
  ∀ (h : Head) (s : State), (s.link h.link).discard = false →
    (((s.taken h).link h.link).state = .returned →
      ∃ v t : State, exec (.resume h) s = .next t ∧
        t.link h.link = { (s.taken h).link h.link with
          state := .live, answer := ⟨35, h.tag, .done, Vector.replicate 11 0⟩ } ∧
        State.SettlesTo [lossEntry h.link] [] [] { s.taken h with links := v.links } v ∧
        State.CeilingReports { s.taken h with links := v.links } v ∧
        (v.ceiling.entry (lossEntry h.link)).active = false ∧
        State.GoesAbsent (lossAlarm h.link) 0 v t ∧
        (∀ a ∈ t.notices.alarms, a.code = lossAlarm h.link → a.detail = 0 → a.present = false) ∧
        t.notices.alarms.length = s.notices.alarms.length ∧ v.spray = s.spray ∧ v.output = s.output ∧
        t = { v with links := t.links, notices := t.notices } ∧
        t.link h.link.other = s.link h.link.other ∧ t.links.window = s.links.window ∧
        t = { s.taken h with links := t.links, ceiling := t.ceiling, notices := t.notices, bank := t.bank }) ∧
    (((s.taken h).link h.link).state = .live →
      exec (.resume h) s = .next ((s.taken h).answered h 35 .notActive []))

/-- R187: RESTART in motion is answered STATE; at standstill it opens a window for 1000 ms with its link as holder and its
tag, or is answered BUSY from the holder of an open one. At its expiry the window closes as lapsed, and RESTART_LAPSED is
posted to the holder's link alone. -/
def Obligations.RestartWindowOpensAndLapses : Prop :=
  (∀ (h : Head) (s : State), s.passes h 36 →
    (0 < s.travel.ground ∨ 0 < s.gov.vRef → exec (.restart h) s = .next ((s.taken h).answered h 36 .state [])) ∧
    (s.travel.ground = 0 → s.gov.vRef = 0 → s.links.window = none →
      exec (.restart h) s = .next
        (({ s.taken h with links := { (s.taken h).links with
            window := some ⟨h.link, h.tag, later (s.taken h).now 1000⟩ } } : State).answered h 36 .accepted [])) ∧
    (∀ w, s.travel.ground = 0 → s.gov.vRef = 0 → s.links.window = some w → w.holder = h.link →
      exec (.restart h) s = .next ((s.taken h).answered h 36 .busy []))) ∧
  (∀ (after : Nat) (s : State) (w : Window), s.links.window = some w → reached (s.elapse after).now w.expiry = true →
    ∃ t : State, exec (.restartWindowExpiry after) s = .next t ∧ t.links = { s.links with window := none } ∧
      (t.notices.events w.holder).pending = (s.notices.events w.holder).pending ||| 1024#16 ∧
      (t.notices.events w.holder).counts[10] = min 15 ((s.notices.events w.holder).counts[10] + 1) ∧
      (t.notices.events w.holder).mask = (s.notices.events w.holder).mask ∧
      t.notices.events w.holder.other = s.notices.events w.holder.other ∧ t.notices.alarms = s.notices.alarms ∧
      t = { s.elapse after with links := t.links, notices := t.notices })

/-- R188 with the joint-restart values of the chapters: the confirming RESTART sets both counters to 0, keeps the active slot,
every setting, the tallies, the snapshot records, the odometer and the alarm list (each condition absent), writes a pending
swap into its slot, leaves both links WAITING with DONE for their RESTARTs, and every other block at its reset values. The
caps of the Ceiling Table are those of the settings held, SLOPE at slope cap 1, the model's choice (entry 19); the cycle
boundary timer starts again with the active program's period and no half-cycle mark (entry 27); the dither settings are kept
with the pending ones loaded, and the measured currents are free values (entry 5). -/
def Obligations.JointRestartPerformed : Prop :=
  ∀ (h : Head) (s : State) (w : Window), s.passes h 36 → s.travel.ground = 0 → s.gov.vRef = 0 →
    s.links.window = some w → w.holder ≠ h.link →
    ∃ t : State, exec (.restart h) s = .next t ∧
      (let caps := s.settings.caps
       let capOf : Source → Nat := fun src => match src with
         | .mode => caps.transportMax | .rangeShift => caps.shiftSpeed | .armTransition => caps.armMove
         | .armYield => caps.yieldCap | .sprayLimit => 200 | .slope => caps.slopeCap1 | .traction => caps.traction
         | .oilHot => caps.oilCap | .sensorFault => caps.sensorCap | .bodyLoss => caps.crawl
         | .reverseArms | .drySweep | .driveLoss | .driveFault => 0
       let restarted := fun (l : Link) (tag : Byte) => { s.link l with
         state := .waiting, lastCount := none, timer := none, accepted := 0, short := 0, crcFail := 0
         answer := ⟨36, tag, .done, Vector.replicate 11 0⟩ }
       t.clock = ⟨0, 0, 0⟩ ∧ t.periods = State.reset.periods ∧
       t.unit = { State.reset.unit with slots := t.unit.slots, active := t.unit.active, boundary := t.unit.boundary } ∧
       (s.unit.swap = none → t.unit.slots = s.unit.slots ∧ t.unit.active = s.unit.active) ∧
       (∀ x, s.unit.swap = some x →
         t.unit.slots = s.unit.slots.set x.target (some x.record) ∧ t.unit.active = some x.target) ∧
       (t.unit.active = none → t.unit.boundary = none) ∧
       (∀ i, t.unit.active = some i → t.unit.boundary = t.unit.slots[i].map fun p => later 0 p.period) ∧
       t.travel = { State.reset.travel with odometer := s.travel.odometer } ∧
       t.ceiling.reportDir = .forward ∧ t.ceiling.lastChange = 0 ∧
       (∀ src : Source, t.ceiling.entry src =
         { active := decide (src = .mode ∨ src = .driveLoss ∨ src = .bodyLoss), cap := capOf src, since := 0
           engagements := 0 }) ∧
       t.gov = State.reset.gov ∧ t.arms = State.reset.arms ∧ t.spray = State.reset.spray ∧ t.scan = State.reset.scan ∧
       t.output.driveCut = false ∧ t.output.broomCut = false ∧
       (∀ ch : Channel,
         (let k := s.output.channels[ch].carrier
          t.output.channels[ch] = {
            carrier := { high := k.nextHigh.getD k.high, low := k.nextLow.getD k.low, amp := k.nextAmp.getD k.amp }
            measured := t.output.channels[ch].measured }) ∧
         t.output.stateOf ch = .off ∧ t.output.commanded ch = 0) ∧
       t.link h.link = { restarted h.link h.tag with selected := false, discard := false } ∧
       t.link w.holder = { restarted w.holder w.tag with discard := (s.link w.holder).selected } ∧
       t.links.window = none ∧
       t.notices.alarms = s.notices.alarms.map (fun a => { a with present := false }) ∧
       t.notices.drive = State.reset.notices.drive ∧ t.notices.body = State.reset.notices.body ∧
       t.bank = { State.reset.bank with
         tallies := (s.taken h).bank.tallies, snapDrive := s.bank.snapDrive, snapBody := s.bank.snapBody } ∧
       t.settings = s.settings ∧ t.pending = s.pending)

/-- R184, R185 with R9, R10, R13, R20, R55, R67, R118, R172 and R187: a LIVE link whose deadline timer expires is LOST. Its
loss entry becomes active with its cap, its claim lapses with CLAIM_LAPSED to it alone, every channel it holds leaves DIRECT,
its restart window closes with RESTART_LAPSED to it alone, its loss alarm is raised, PEER_LOST is posted once to both links
and its losses are counted; the other link's claim, window and channels stand. The drive link's loss drops the demand and
moves nothing else; the body link's turns every spray enable off, ends a sweep as SWEEP_END does, with the arms that are out
in RAISING, and leaves SERVICE. A RETURNED link goes back to LOST and nothing else changes. -/
def Obligations.DeadlineLosesLink : Prop :=
  ∀ (after : Nat) (l : Link) (s : State) (e : Time), (s.link l).timer = some e → reached (s.elapse after).now e = true →
    ((s.link l).state = .live →
      ∃ v t : State, exec (.deadlineExpiry after l) s = .next t ∧
        (let u := s.elapse after
         let pending := fun (k : EventKind) => (t.notices.events l).pending.getLsbD k.index = true
         let sweeps := s.unit.mode = .entering ∨ s.unit.mode = .sweep
         let serves := l = .body ∧ s.unit.mode = .service
         t.link l = { s.link l with state := .lost, timer := none } ∧ t.link l.other = s.link l.other ∧
         t.links.window = s.links.window.filter (fun w => w.holder != l) ∧
         t.unit.staging = s.unit.staging.filter (fun g => g.holder != l) ∧
         (∀ ch : Channel, t.output.channels[ch].fault = s.output.channels[ch].fault ∧
           (¬serves → t.output.channels[ch].holder = s.output.channels[ch].holder.filter (fun k => k != l)) ∧
           (serves → t.output.channels[ch].holder = none) ∧
           (¬serves → s.output.channels[ch].holder = some l.other → ch.val < 3 →
             t.output.channels[ch] = s.output.channels[ch])) ∧
         State.CeilingReports u v ∧ (v.ceiling.entry (lossEntry l)).active = true ∧
         (v.ceiling.entry (lossEntry l)).cap = (match l with | .drive => 0 | .body => s.settings.caps.crawl) ∧
         (v.ceiling.entry (lossEntry l)).since =
           (if (s.ceiling.entry (lossEntry l)).active then (s.ceiling.entry (lossEntry l)).since else u.now) ∧
         t.ceiling.sameEntry v.ceiling (lossEntry l) ∧
         State.Raises (lossAlarm l) 0 u t ∧ u.postedOnce .peerLost t ∧
         (∀ g, s.unit.staging = some g → g.holder = l → pending .claimLapsed) ∧
         (∀ w, s.links.window = some w → w.holder = l → pending .restartLapsed) ∧
         (∀ k : EventKind, k = .claimLapsed ∨ k = .restartLapsed →
           (t.notices.events l.other).sameKind (s.notices.events l.other) k) ∧
         (∀ k : Link, (t.notices.events k).mask = (s.notices.events k).mask) ∧
         t.bank.tallies[Tally.index (.linkLosses l)] = min 255 (s.bank.tallies[Tally.index (.linkLosses l)] + 1) ∧
         (∀ x : Tally, x ∉ [Tally.linkLosses l, .urgentStops, .overflows] →
           t.bank.tallies[x.index] = s.bank.tallies[x.index]) ∧
         (l = .drive → t.gov = { s.gov with demandDir := .neutral, demandMag := 0 } ∧ t.ceiling = v.ceiling ∧
           (∀ src, src ≠ .driveLoss → t.ceiling.sameEntry s.ceiling src) ∧
           (∀ k : Link, (t.notices.events k).sameKind (v.notices.events k) .ceilingBinding) ∧
           (∀ (k : Link) (x : EventKind), x ∉ [EventKind.peerLost, .alarmRaised, .claimLapsed, .restartLapsed,
             .ceilingBinding] → (t.notices.events k).sameKind (s.notices.events k) x) ∧
           (∀ ch : Channel, s.output.channels[ch].holder ≠ some .drive →
             t.output.channels[ch] = s.output.channels[ch]) ∧
           (∀ ch : Channel, s.output.channels[ch].holder = some .drive → t.output.channels[ch].level = 0 ∧
             t.output.channels[ch].setpoint = s.output.channels[ch].setpoint) ∧
           t = { u with
             unit := { s.unit with staging := t.unit.staging }, links := t.links, output := t.output
             ceiling := t.ceiling, gov := t.gov, notices := t.notices
             bank := { u.bank with tallies := t.bank.tallies } }) ∧
         (l = .body → (∀ b : Bar, (t.spray.bar b).enable = false ∧ (t.spray.bar b).active = false) ∧
           (sweeps → t.told .modeChanged ∧ t.unit = { s.unit with
               mode := .leaving, staging := t.unit.staging, reached := false, requested := t.unit.requested
               awaited := if t.unit.requested then some .transport else none } ∧
             (t.unit.requested = true ↔ ∀ a : Arm, (s.arm a).state = .stowed ∨ (s.arm a).state = .fault) ∧
             (t.unit.requested = true → t.gov.requested = some .transport) ∧
             (t.unit.requested = false → t.gov = s.gov) ∧
             ((∃ a : Arm, (s.arm a).state ∉ [ArmState.stowed, .fault, .raising]) → t.armEntriesJudged) ∧
             (∀ a : Arm,
               ((s.arm a).state = .stowed → t.arm a = { s.arm a with pending := false }) ∧
               ((s.arm a).state = .fault ∨ (s.arm a).state = .raising → t.arm a = s.arm a) ∧
               ((s.arm a).state ∉ [ArmState.stowed, .fault, .raising] →
                 t.arm a = { s.arm a with
                   state := .raising, phase := none, pending := false, rot := 0, force := (t.arm a).force
                   timer := some (later t.now s.program.raiseTime) } ∧ t.armPosted a ∧ t.told .armState))) ∧
           (¬sweeps → t.arms = s.arms ∧ t.gov = s.gov ∧ t.unit = { s.unit with
               mode := if s.unit.mode = .service then .transport else s.unit.mode, staging := t.unit.staging }) ∧
           (s.unit.mode = .service → t.told .modeChanged ∧ t.told .serviceLeft) ∧
           (¬sweeps → ¬serves → ∀ (k : Link) (x : EventKind), x ∉ [EventKind.peerLost, .alarmRaised, .claimLapsed,
             .restartLapsed, .ceilingBinding] → (t.notices.events k).sameKind (s.notices.events k) x) ∧
           t.gov = { s.gov with requested := t.gov.requested, shift := t.gov.shift, settle := t.gov.settle } ∧
           t = { u with
             unit := t.unit, links := t.links, output := t.output, ceiling := t.ceiling, gov := t.gov, arms := t.arms
             spray := t.spray, notices := t.notices, bank := { u.bank with tallies := t.bank.tallies } }))) ∧
    ((s.link l).state = .returned →
      ∃ t : State, exec (.deadlineExpiry after l) s = .next t ∧ t.links.window = s.links.window ∧
        t.link l = { s.link l with state := .lost, timer := none } ∧ t.link l.other = s.link l.other ∧
        t = { s.elapse after with links := t.links })

/-- R4, R14, R17, R26, R36, R47, R63, R87, R115, R142, R159, R183 and R190: power-on reset from any state leaves every field
but the measured currents at the value of `State.reset`, with the two deadlines that the straps give. The queue and the count
of free values go on, which is the model's choice (entries 6 and 37). -/
def Obligations.PowerOnResets : Prop :=
  ∀ (straps : Straps) (s : State), ∃ t : State, exec (.powerOnReset straps) s = .next t ∧
    t.link .drive = { State.reset.link .drive with deadline := if straps.drive then 400 else 100 } ∧
    t.link .body = { State.reset.link .body with deadline := if straps.body then 400 else 100 } ∧
    t.links.window = none ∧
    (∀ ch : Channel,
      t.output.channels[ch] = { State.reset.output.channels[ch] with measured := t.output.channels[ch].measured }) ∧
    t.output.driveCut = false ∧ t.output.broomCut = false ∧
    t = { State.reset with
          links := t.links, output := t.output, freeCount := t.freeCount, pending := s.pending }

/-! ### Reads -/

/-- R178: the fields of an answer. A two-byte and a four-byte field are sent least significant byte first, a negative value in
two's complement, none as all bits set; part p of a run is its bytes 11p to 11p + 10 with 0 beyond its end, a part that begins
beyond the end is answered UNKNOWN (entry 33), and an answer with no data carries eleven zeros (entry 45). The runs of R29,
R46, R61, R62, R85, R113, R138, R139, R157, R173, R189, R194, R196 and R199 carry their fields byte for byte in the order
their rules list them, an enumeration as its value's place in its rule's list. Widths and codings that R178 does not fix are
the model's (entry 9), and so are the order of the wheels in R46, of the arms in R113, of the bars in R138 and of the
thresholds in R157 (entry 9), the trim and coil current after a drive cut (entry 41) and a v_sat above 8000 (entry 43). -/
def Obligations.FieldsAndParts : Prop :=
  (∀ n : Nat, n < 65536 → ∃ a b, byte2 n = [a, b] ∧ a.toNat + 256 * b.toNat = n) ∧
  (∀ n : Nat, n < 4294967296 → ∃ a b c d, byte4 n = [a, b, c, d] ∧
    a.toNat + 256 * b.toNat + 65536 * c.toNat + 16777216 * d.toNat = n) ∧
  (∀ i : Int, -32768 ≤ i → i ≤ 32767 → ∃ a b, int2 i = [a, b] ∧ (word a b).toInt = i) ∧
  (∀ i : Int, -2147483648 ≤ i → i ≤ 2147483647 → ∃ a b c d, int4 i = [a, b, c, d] ∧ (d ++ c ++ b ++ a).toInt = i) ∧
  opt1 none = [0xFF] ∧ opt2 none = [0xFF, 0xFF] ∧ answerData [] = Vector.replicate 11 0 ∧
  (∀ (run : List Byte) (p : Byte), 11 * p.toNat < run.length →
    (partOf run p).code = .done ∧
      ∀ k : Fin 11, (answerData (partOf run p).data)[k] = run.getD (11 * p.toNat + k.val) 0) ∧
  (∀ (run : List Byte) (p : Byte), run.length ≤ 11 * p.toNat → partOf run p = { code := .unknown }) ∧
  (∀ s : State, s.travelRun.length = 35 ∧ s.ceilingRun.length = 15 ∧ s.governorRun.length = 24 ∧ s.armsRun.length = 43 ∧
    s.tankRun.length = 10 ∧ (∀ l, (s.linksRun l).length = 30) ∧ (∀ src, (s.entryRun src).length = 13) ∧
    (∀ ch, (s.channelRun ch).length = 20) ∧ (∀ c, (s.resultRun c).length = 10)) ∧
  (∀ x : Snapshot, (x.page 0).map List.length = some 24 ∧ (x.page 1).map List.length = some 24 ∧
    (x.page 2).map List.length = some 28 ∧ (x.page 3).map List.length = some 5) ∧
  (∀ s : State,
    (let dirs : List Dir := [.forward, .reverse]
     let drives : List DriveDir := [.neutral, .forward, .reverse]
     let ranges : List Range := [.work, .transport]
     let links : List Link := [.drive, .body]
     let bits : List Bool := [false, true]
     let until_ := fun (o : Option Time) => byte2 (remaining s.now o)
     (let t := s.travel
      let per := fun (w : WheelRec) => byte1 w.history.length ++ int4 w.accel ++ codeIn dirs w.dir
      s.travelRun = byte4 t.left.speed ++ byte4 t.right.speed ++ byte4 t.ground ++ codeIn dirs t.dir ++
        codeIn bits t.slipHold.isSome ++ codeOrNone [Wheel.left, .right] t.sensorFault ++ byte4 t.odometer.toNat ++
        byte2 t.tickCount.toNat ++ per t.left ++ per t.right ++ until_ t.slipHold) ∧
     (let c := s.ceiling
      ∃ a b : Byte, (∀ src : Source, (b ++ a : Half).getLsbD src.slot.val = (c.entry src).active) ∧
        (b ++ a : Half).getLsbD 14 = false ∧ (b ++ a : Half).getLsbD 15 = false ∧
        s.ceilingRun = codeIn dirs c.reportDir ++
          byte2 (c.effective .forward) ++ byte1 (c.binding .forward).slot.val ++ codeIn bits (c.urgent .forward) ++
          byte2 (c.effective .reverse) ++ byte1 (c.binding .reverse).slot.val ++ codeIn bits (c.urgent .reverse) ++
          [a, b] ++ byte4 c.lastChange.toNat) ∧
     (let g := s.gov
      s.governorRun = codeIn drives g.demandDir ++ byte2 g.demandMag ++ codeIn drives g.held ++ byte2 g.vRef ++
        byte2 g.target ++ int2 g.trim ++ byte2 g.coil ++ codeIn ranges g.setRange ++ codeOrNone ranges g.requested ++
        (if g.shift = .none then [0xFF] else codeIn [Shift.waiting, .settling] g.shift) ++ until_ g.settle ++
        codeIn bits g.stallHold ++ until_ g.stallTimer ++ codeIn bits g.cutSeen ++ byte2 g.ceilingRead ++
        codeIn bits g.urgentRead) ∧
     (let first := fun (a : Arm) =>
        codeIn [ArmState.stowed, .lowering, .working, .yielding, .jammed, .raising, .fault] (s.arm a).state
      let middle := fun (a : Arm) => codeIn bits (s.arm a).pending ++ until_ (s.arm a).timer ++
        byte1 (s.arm a).strikes.length ++ byte4 ((s.arm a).strikes.headD 0).toNat ++ byte2 (s.arm a).rot
      let side := fun (a : Arm) => first a ++ codeOrNone [Phase.lift, .settle] (s.arm a).phase ++ middle a ++
        byte2 (s.arm a).force
      s.armsRun = side .left ++ side .right ++ first .main ++ middle .main ++ codeIn bits s.arms.lock ++
        codeIn bits s.arms.holdDone ++ codeIn bits s.arms.cutSeen ++ codeIn bits s.arms.dryApplied) ∧
     (let bar := fun (b : Bar) (k : Nat) =>
        (let x := s.spray.bar b
         codeIn bits x.enable ++ codeIn bits x.valveFault ++ codeIn bits x.active ++ byte2 (x.owed / 10) ++
           byte2 x.lastPulse ++ until_ x.pulseEnd ++ codeIn bits x.saturated ++ byte2 (s.doseRead b k) ++
           byte2 (if x.active = true then min 8000 (s.vSat b) else 0))
      s.sprayRun = bar .left 0 ++ bar .right 1 ++ bar .main 2 ++ byte2 (s.periodRead 3) ++
        codeIn bits (s.ceiling.entry .sprayLimit).active ++ codeIn bits (s.ceiling.entry .drySweep).active) ∧
     (let y := s.spray
      s.tankRun = codeIn [Tank.normal, .low, .empty] y.tank ++ byte2 (y.level.getD 0xFFFF) ++ byte2 y.duty ++
        byte2 (y.pressure.getD 0xFFFF) ++ byte1 y.dryCount ++ codeIn bits y.latch ++
        codeIn bits (decide (s.output.channels[(14 : Channel)].fault ≠ .none))) ∧
     (let per := fun (l : Link) =>
        (let x := s.link l
         codeIn [LinkState.waiting, .live, .lost, .returned] x.state ++ byte2 x.deadline ++ until_ x.timer ++
           byte2 ((x.lastCount.map BitVec.toNat).getD 0xFFFF) ++ byte2 x.accepted.toNat ++ byte2 x.short.toNat ++
           byte2 x.crcFail.toNat)
      ∀ l : Link, s.linksRun l = codeIn links l ++ per .drive ++ per .body ++
        codeOrNone links (s.links.window.map (·.holder)) ++ until_ (s.links.window.map (·.expiry))) ∧
     (let m := s.unit
      s.modeRun = codeIn [Mode.transport, .entering, .sweep, .leaving, .service] m.mode ++
        byte1 ((m.active.map Fin.val).getD 0xFF) ++ byte1 ((m.swap.map (·.target.val)).getD 0xFF) ++
        codeOrNone links (m.staging.map (·.holder)) ++ byte1 ((m.staging.map (·.slot.val)).getD 0xFF) ++
        byte2 (s.periodRead 0) ++ (if m.boundary = none then [0xFF, 0xFF] else until_ m.boundary) ++
        byte2 (s.ceiling.entry .mode).cap ++ codeOrNone ranges m.awaited) ∧
     (∀ src : Source,
       (let e := s.ceiling.entry src
        let forward := s.ceiling.binding .forward = src
        let reverse := s.ceiling.binding .reverse = src
        s.entryRun src = byte1 src.slot.val ++ codeIn bits e.active ++ byte2 e.cap ++
          codeIn [Scope.forward, .reverse, .both] (if src = .reverseArms then .reverse else .both) ++ codeIn bits (decide (src = .driveLoss ∨ src = .driveFault)) ++
          byte4 e.since.toNat ++ byte2 e.engagements ++
          byte1 (if forward ∧ reverse then 2 else if forward then 0 else if reverse then 1 else 3))) ∧
     (∀ ch : Channel,
       (let c := s.output.channels[ch]
        let k := c.carrier
        s.channelRun ch = codeIn [ChannelKind.prop, .switch, .duty, .pulse]
          (if ch = 14 then .duty else if 15 ≤ ch.val then .pulse else if isPropChannel ch then .prop else .switch) ++
          codeIn [ChannelState.off, .driven, .cut, .direct, .fault] (s.output.stateOf ch) ++ byte2 c.setpoint ++
          byte2 c.target ++ byte2 (s.output.commanded ch) ++
          byte2 (if isPropChannel ch then min 4000 c.measured.toNat else 0xFFFF) ++
          (if c.fault = .none then [0xFF] else codeIn [FaultKind.openLoad, .shortLoad] c.fault) ++
          codeIn [none, some Link.drive, some .body] c.holder ++ byte2 c.level ++ codeIn bits (s.output.cutFlag ch) ++
          codeIn [CarrierPart.rest, .high, .low] k.part ++ byte1 k.pos ++
          codeIn bits (k.nextHigh.isSome || k.nextLow.isSome || k.nextAmp.isSome) ++
          byte2 (match c.openSince with | none => 0xFFFF | some e => min 200 (since s.nowUs e / 1000)))) ∧
     (∀ c : Fin 9,
       (let r := s.scan.results[c]
        s.resultRun c = int2 r.value ++ byte2 r.raw ++ codeIn bits r.stale ++ byte4 r.time.toNat ++
          byte1 s.settings.scan[c].count)) ∧
     (∀ f : Reference,
       (let r := s.scan.ref f
        s.refRun f = byte2 r.raw ++ codeIn bits r.fail ++ byte4 r.time.toNat)) ∧
     (∀ c : Fin 4,
       (let x := s.scan.comps[c]
        let set := s.settings.comps[c]
        s.compRun c = codeIn bits x.detected ++ byte1 x.counter ++
          (if c.val < 3 then byte1 (c.val + 2) else if s.scan.input3 = .neutral then [0xFF]
            else codeIn [DriveDir.forward, .reverse] s.scan.input3) ++
          codeIn [CompMode.above, .below, .outside] set.mode ++ byte2 set.low ++ byte2 set.high ++ byte1 set.filter ++
          codeIn bits set.cut)) ∧
     (let x := s.scan
      s.converterRun = codeIn bits x.fault ++ byte1 x.passRun ++ codeIn [Reference.low, .mid, .high] x.nextRef ++
        codeIn bits x.fast.isSome ++ codeOrNone [SlowItem.a6, .a7, .a8, .reference] (x.slow.map (·.item)) ++
        byte1 (match x.slow with
          | none => 0xFF | some ⟨_, .settling _⟩ => 0 | some ⟨_, .converting⟩ => 1 | some ⟨_, .waiting⟩ => 2)) ∧
     (∀ l : Link,
       (let e := s.notices.events l
        s.eventsRun l = byte2 e.pending.toNat ++ byte2 e.mask.toNat ++ e.counts.toList.flatMap byte1)))) ∧
  (∀ a : Alarm, alarmRun (some a) = byte1 a.code.number ++ byte1 a.detail ++ byte4 a.first.toNat ++ byte4 a.last.toNat ++
    byte1 a.count ++ codeIn [false, true] a.present) ∧
  alarmRun none = List.replicate 12 0 ∧
  (∀ p : Program,
    (let curve := fun (c : Curve) => byte1 c.count ++ c.points.toList.flatMap (fun x => byte2 x.speed ++ byte2 x.rot)
     p.page 0 = some (p.label.toList ++ byte2 p.workMax) ∧
     p.page 1 = some (byte2 p.accel ++ byte2 p.decel ++ byte2 p.reverseCap ++ byte2 p.dryCap ++ byte2 p.period ++
       byte2 (p.doseLeft.getD 0) ++ byte2 (p.doseRight.getD 0) ++ byte2 (p.doseMain.getD 0) ++
       codeIn [false, true] p.holdsSpeed ++ byte2 p.economy) ∧
     p.page 2 = some (curve p.side) ∧
     p.page 3 = some (curve p.main ++ byte2 p.forceLeft ++ byte2 p.forceRight ++ byte2 p.lowerTime ++ byte2 p.raiseTime ++
       byte2 p.dryFrac))) ∧
  (∀ x : Snapshot,
    (let tally := fun (k : Fin 19) => byte4 x.tallies[k]
     x.page 0 = some (([0, 1, 2, 3, 4, 5] : List (Fin 19)).flatMap tally) ∧
     x.page 1 = some (([6, 7, 8, 9, 10, 11] : List (Fin 19)).flatMap tally) ∧
     x.page 2 = some (([12, 13, 14, 15, 16, 17, 18] : List (Fin 19)).flatMap tally) ∧
     x.page 3 = some (byte4 x.taken.toNat ++ byte1 x.clear)))

/-- R29, R46, R62, R85, R113, R138, R139, R189, R178: the READ_STATUS requests answer the part of their run as the state
stands, and change nothing else but, where P of the program in force is read, the model's count of free values (entries 6 and
8); codings and places of fields that R178 does not fix are the model's (entry 9). With a program in force the mode status carries its P; with one in force and the tank not EMPTY the spray status carries P
and each bar's effective dose. -/
def Obligations.StatusReadsAnswer : Prop :=
  ∀ (h : Head) (p : Byte) (s : State), s.passes h 1 →
    (let r := fun (run : List Byte) =>
        Host.Outcome.next (φ := Fault) (ρ := Refusal) ((s.taken h).putAnswer h.link 1 h.tag (partOf run p))
     let drawn := fun (n : Nat) (run : List Byte) =>
        Host.Outcome.next (φ := Fault) (ρ := Refusal)
          ({ s.taken h with freeCount := (s.taken h).freeCount + n }.putAnswer h.link 1 h.tag (partOf run p))
     exec (.readStatusTravel h p) s = r (s.taken h).travelRun ∧
     exec (.readStatusCeilingSummary h p) s = r (s.taken h).ceilingRun ∧
     exec (.readStatusGovernor h p) s = r (s.taken h).governorRun ∧
     exec (.readStatusArms h p) s = r (s.taken h).armsRun ∧
     exec (.readStatusTankAndPump h p) s = r (s.taken h).tankRun ∧
     exec (.readStatusLinks h p) s = r ((s.taken h).linksRun h.link) ∧
     exec (.readStatusModeAndProgram h p) s = drawn 1 (s.taken h).modeRun ∧
     exec (.readStatusSpray h p) s = drawn 4 (s.taken h).sprayRun) ∧
    (∀ q, s.inForce = some q →
      (∀ k, (s.taken h).periodRead k = q.period) ∧
      (s.spray.tank ≠ .empty → ∀ b k, (s.taken h).doseRead b k = (effectiveDose s.spray.tank q b).getD 0))

/-- R29, R61, R157, R173, R182, R194, R196, R199: the other read requests answer the part of their run as the state stands,
UNKNOWN for a slot, channel, item, address, position or page that does not exist, EMPTY for an empty slot and NOT_ACTIVE for a
free staging record, and change nothing else. That a page that does not exist is told before an empty slot, and that a setting
is read as two signed bytes and its pending mark as one, are the model's (entries 9 and 46). -/
def Obligations.RecordReadsAnswer : Prop :=
  ∀ (h : Head) (x y z p : Byte) (s : State),
    (let r := fun (kind : Nat) (reply : Reply) =>
        Host.Outcome.next (φ := Fault) (ρ := Refusal)
          ((s.taken h).putAnswer h.link (BitVec.ofNat 8 kind) h.tag reply)
     let u := s.taken h
     (s.passes h 2 →
       (∀ src : Source, src.slot.val = x.toNat → exec (.readCeilingEntry h x p) s = r 2 (partOf (u.entryRun src) p)) ∧
       (14 ≤ x.toNat → exec (.readCeilingEntry h x p) s = r 2 { code := .unknown })) ∧
     (s.passes h 3 →
       (∀ ch : Channel, ch.val = x.toNat → exec (.readChannel h x p) s = r 3 (partOf (u.channelRun ch) p)) ∧
       (18 ≤ x.toNat → exec (.readChannel h x p) s = r 3 { code := .unknown })) ∧
     (s.passes h 4 →
       (∀ c : Fin 9, c.val = x.toNat → exec (.readScan h x p) s = r 4 (partOf (u.resultRun c) p)) ∧
       (∀ c : Fin 4, 12 + c.val = x.toNat → exec (.readScan h x p) s = r 4 (partOf (u.compRun c) p)) ∧
       (x.toNat = 9 → exec (.readScan h x p) s = r 4 (partOf (u.refRun .low) p)) ∧
       (x.toNat = 10 → exec (.readScan h x p) s = r 4 (partOf (u.refRun .mid) p)) ∧
       (x.toNat = 11 → exec (.readScan h x p) s = r 4 (partOf (u.refRun .high) p)) ∧
       (x.toNat = 16 → exec (.readScan h x p) s = r 4 (partOf u.converterRun p)) ∧
       (17 ≤ x.toNat → exec (.readScan h x p) s = r 4 { code := .unknown })) ∧
     (s.passes h 5 →
       (∀ (i : Fin 8) (q : Program) (run : List Byte), i.val = x.toNat → s.unit.slots[i] = some q →
         q.page y.toNat = some run → exec (.readProgram h x y p) s = r 5 (partOf run p)) ∧
       (∀ i : Fin 8, i.val = x.toNat → y.toNat ≤ 3 → s.unit.slots[i] = none →
         exec (.readProgram h x y p) s = r 5 { code := .empty }) ∧
       (∀ (g : Staging) (run : List Byte), x.toNat = 8 → s.unit.staging = some g →
         g.record.page y.toNat = some run → exec (.readProgram h x y p) s = r 5 (partOf run p)) ∧
       (x.toNat = 8 → y.toNat ≤ 3 → s.unit.staging = none →
         exec (.readProgram h x y p) s = r 5 { code := .notActive }) ∧
       (8 < x.toNat ∨ 3 < y.toNat → exec (.readProgram h x y p) s = r 5 { code := .unknown })) ∧
     (s.passes h 6 →
       (∀ k, settingAt x.toNat y.toNat z.toNat = some k →
         exec (.readSetting h x y z p) s = r 6 (partOf (int2 (u.settingValue k) ++ bool1 (u.settingPending k)) p)) ∧
       (settingAt x.toNat y.toNat z.toNat = none → exec (.readSetting h x y z p) s = r 6 { code := .unknown })) ∧
     (s.passes h 28 →
       (x.toNat ≤ 15 → exec (.readAlarm h x p) s =
         r 28 (partOf (byte1 s.notices.alarms.length ++ byte4 u.bank.tallies[(18 : Fin 19)] ++
           alarmRun s.notices.alarms[x.toNat]?) p)) ∧
       (16 ≤ x.toNat → exec (.readAlarm h x p) s = r 28 { code := .unknown })) ∧
     (s.passes h 30 → exec (.readEvents h p) s = r 30 (partOf (u.eventsRun h.link) p)) ∧
     (s.passes h 34 →
       (∀ run, (s.bank.snap h.link).page x.toNat = some run → exec (.readSnapshot h x p) s = r 34 (partOf run p)) ∧
       (4 ≤ x.toNat → exec (.readSnapshot h x p) s = r 34 { code := .unknown })))

/-! ### Settings -/

/-- R31, R49, R65, R92, R116, R143, R148, R161, R164, R181, R182: WRITE_SETTING. The refusals come in their order and change
nothing but the answer. A write of an existing setting from its settings link, in TRANSPORT or SERVICE with ground speed and
speed reference 0, and of a value that its range and cross-check accept, is answered DONE: the setting then reads as that value
and every other setting reads as before. Beside, a written comparator keeps its state and has its counter at 0; a dither value
stands as pending, or is loaded with the others by a carrier at rest; a cap setting changes its own entry's cap, with what the
change reports; and nothing else moves. The addresses that exist, their links, ranges and cross-checks are those of the tables. -/
def Obligations.SettingsAreWritten : Prop :=
  (∀ (h : Head) (group index item : Byte) (value : Half) (s : State), s.passes h 7 →
    (let reply := fun (c : Code) =>
        exec (.writeSetting h group index item value) s = .next ((s.taken h).answered h 7 c [])
     let at? := settingAt group.toNat index.toNat item.toNat
     (at? = none → reply .unknown) ∧
     (∀ k, at? = some k → k.owner ≠ h.link → reply .denied) ∧
     (∀ k, at? = some k → k.owner = h.link →
       (s.unit.mode ≠ .transport ∧ s.unit.mode ≠ .service) ∨ 0 < s.travel.ground ∨ 0 < s.gov.vRef → reply .state) ∧
     (∀ k, at? = some k → k.owner = h.link → s.unit.mode = .transport ∨ s.unit.mode = .service →
       s.travel.ground = 0 → s.gov.vRef = 0 →
       (k.accepts s.settings value.toInt = false → reply .range) ∧
       (k.accepts s.settings value.toInt = true →
         ∃ t : State, exec (.writeSetting h group index item value) s = .next (t.answered h 7 .done []) ∧
           t.settingValue k = value.toInt ∧ (∀ j : Setting, j ≠ k → t.settingValue j = s.settingValue j) ∧
           (let ofComp := fun (c : Fin 4) => k = .mode c ∨ k = .low c ∨ k = .high c ∨ k = .filter c ∨ k = .cut c
            let ofDither := fun (ch : Channel) => k = .ditherHigh ch ∨ k = .ditherLow ch ∨ k = .amplitude ch
            (∀ c, ofComp c → t.scan = { s.scan with
              comps := s.scan.comps.set c { s.scan.comps[c] with counter := 0 } }) ∧
            ((∀ c, ¬ofComp c) → t.scan = s.scan) ∧
            (∀ ch, ¬ofDither ch → t.output.channels[ch] = s.output.channels[ch]) ∧
            (∀ ch, ofDither ch →
              (let x := s.output.channels[ch].carrier
               let y := t.output.channels[ch].carrier
               let asked := fun (j : Setting) (loaded : Nat) (was : Option Nat) =>
                 if j = k then (if (loaded : Int) = value.toInt then none else some value.toNat) else was
               t.output.channels[ch] = { s.output.channels[ch] with carrier := y } ∧
               (x.part = .rest → y = { x with
                 high := y.high, low := y.low, amp := y.amp, nextHigh := none, nextLow := none, nextAmp := none }) ∧
               (x.part ≠ .rest → y = { x with
                 nextHigh := asked (.ditherHigh ch) x.high x.nextHigh
                 nextLow := asked (.ditherLow ch) x.low x.nextLow
                 nextAmp := asked (.amplitude ch) x.amp x.nextAmp })))) ∧
           (∀ src : Source, (t.ceiling.entry src).active = (s.ceiling.entry src).active ∧
             (t.ceiling.entry src).since = (s.ceiling.entry src).since ∧
             ((k, src) ∉ ([(.transportMax, .mode), (.shiftSpeed, .rangeShift), (.armMove, .armTransition),
                 (.yieldCap, .armYield), (.slopeCap1, .slope), (.slopeCap2, .slope), (.traction, .traction),
                 (.oilCap, .oilHot), (.sensorCap, .sensorFault), (.crawl, .bodyLoss)] : List (Setting × Source)) →
               (t.ceiling.entry src).cap = (s.ceiling.entry src).cap)) ∧
           State.CeilingReports (s.taken h) t ∧ t.ceiling.reportDir = s.ceiling.reportDir ∧
           t.notices.alarms = s.notices.alarms ∧
           (∀ l : Link, (t.notices.events l).mask = (s.notices.events l).mask ∧ ∀ e : EventKind, e ≠ .ceilingBinding →
             (t.notices.events l).sameKind (s.notices.events l) e) ∧
           t = { s.taken h with
                 settings := t.settings, ceiling := t.ceiling, notices := t.notices, scan := t.scan
                 output := { s.output with channels := t.output.channels } })))) ∧
  (∀ x : Settings,
    (∀ r ∈ settingRows, r.1.standsAt r.2.1 0 r.2.2.1 (if r.2.1 ≤ 3 then .drive else .body) x
      fun v => r.2.2.2.1 ≤ v ∧ v ≤ r.2.2.2.2 ∧ crossHolds x v r.1) ∧
    (∀ ch : Fin 9,
      (let link : Link := if ch ∈ ([0, 1, 7, 8] : List (Fin 9)) then .drive else .body
       (Setting.count ch).standsAt 6 ch 0 link x (fun v => v = 1 ∨ v = 2 ∨ v = 4 ∨ v = 8) ∧
       (Setting.offset ch).standsAt 6 ch 1 link x (fun v => -2000 ≤ v ∧ v ≤ 2000) ∧
       (Setting.span ch).standsAt 6 ch 2 link x (fun v => 1 ≤ v ∧ v ≤ 6000))) ∧
    (∀ c : Fin 4,
      (let link : Link := if c = 3 then .drive else .body
       let top : Int := if c = 3 then 5000 else 3000
       (Setting.mode c).standsAt 7 c 0 link x (fun v => v = 0 ∨ v = 1 ∨ v = 2) ∧
       (Setting.low c).standsAt 7 c 1 link x (fun v => 0 ≤ v ∧ v ≤ top ∧ v ≤ x.comps[c].high) ∧
       (Setting.high c).standsAt 7 c 2 link x (fun v => 0 ≤ v ∧ v ≤ top ∧ x.comps[c].low ≤ v) ∧
       (Setting.filter c).standsAt 7 c 3 link x (fun v => 1 ≤ v ∧ v ≤ 15) ∧
       (2 ≤ c.val → (Setting.cut c).standsAt 7 c 4 link x (fun v => v = 0 ∨ v = 1)))) ∧
    (∀ ch : Channel,
      (let link : Link := if ch.val ≤ 1 then .drive else .body
       (ch ∈ ([5, 6, 9, 10, 13] : List Channel) →
         (Setting.iLow ch).standsAt 8 ch 0 link x (fun v => 0 ≤ v ∧ v ≤ 2000 ∧ v ≤ x.ranges[ch].high) ∧
         (Setting.iHigh ch).standsAt 8 ch 1 link x (fun v => 0 ≤ v ∧ v ≤ 2000 ∧ x.ranges[ch].low ≤ v)) ∧
       (ch ∈ ([0, 1, 5, 6, 9, 10, 13] : List Channel) →
         (Setting.ditherHigh ch).standsAt 8 ch 2 link x (fun v => 1 ≤ v ∧ v ≤ 40) ∧
         (Setting.ditherLow ch).standsAt 8 ch 3 link x (fun v => 1 ≤ v ∧ v ≤ 40) ∧
         (Setting.amplitude ch).standsAt 8 ch 4 link x (fun v => 0 ≤ v ∧ v ≤ 200)))) ∧
    (∀ g i n : Nat, (settingAt g i n).isSome = true →
      (i = 0 ∧ ∃ r ∈ settingRows, r.2.1 = g ∧ r.2.2.1 = n) ∨ (g = 6 ∧ i ≤ 8 ∧ n ≤ 2) ∨
      (g = 7 ∧ i ≤ 3 ∧ (n ≤ 3 ∨ (n = 4 ∧ 2 ≤ i))) ∨
      (g = 8 ∧ n ≤ 4 ∧ (i ∈ [5, 6, 9, 10, 13] ∨ (i ∈ [0, 1] ∧ 2 ≤ n)))))

/-- R49, R51, R54, R55: a taken cap setting is posted to its entry at once, whether the entry is active or not; transport max
gives the MODE cap of the mode; and SLOPE takes the cap of its level while that is 1 or 2. -/
def Obligations.CapSettingsPosted : Prop :=
  ∀ (h : Head) (item : Byte) (value : Half) (s t : State) (k : Setting), s.passes h 7 →
    settingAt 2 0 item.toNat = some k → exec (.writeSetting h 2 0 item value) s = .next t → t.answerIs h 7 .done →
    s.settingsOpen = true → h.link = .drive → k.accepts s.settings value.toInt = true →
    (k = .shiftSpeed → (t.ceiling.entry .rangeShift).cap = value.toNat) ∧
    (k = .armMove → (t.ceiling.entry .armTransition).cap = value.toNat) ∧
    (k = .yieldCap → (t.ceiling.entry .armYield).cap = value.toNat) ∧
    (k = .traction → (t.ceiling.entry .traction).cap = value.toNat) ∧
    (k = .oilCap → (t.ceiling.entry .oilHot).cap = value.toNat) ∧
    (k = .sensorCap → (t.ceiling.entry .sensorFault).cap = value.toNat) ∧
    (k = .crawl → (t.ceiling.entry .bodyLoss).cap = value.toNat) ∧
    (k = .transportMax → (t.ceiling.entry .mode).cap = if s.unit.mode = .service then 0 else value.toNat) ∧
    (k = .slopeCap1 → s.scan.slope = .one → (t.ceiling.entry .slope).cap = value.toNat) ∧
    (k = .slopeCap2 → s.scan.slope = .two → (t.ceiling.entry .slope).cap = value.toNat) ∧
    (k = .slopeCap1 ∨ k = .slopeCap2 → s.scan.slope = .zero → (t.ceiling.entry .slope).cap = (s.ceiling.entry .slope).cap) ∧
    (∀ src, (t.ceiling.entry src).active = ((s.taken h).ceiling.entry src).active)

/-! ### Work modes and sweep programs -/

/-- R6, R8, R10, R75, R88, R96, R97, R110, R111, R117, R119: SWEEP_START and SWEEP_END. From the drive link both are answered
DENIED. From the body link the first condition of the table that holds gives the answer. The taken start makes the mode
ENTERING, asks the governor for the work range, which the unit awaits, and activates RANGE_SHIFT with the shift speed. The taken
end makes the mode LEAVING with MODE_CHANGED to both links; with the three arms STOWED or FAULT it asks the governor for the
transport range in the same moment, with RANGE_SHIFT, and otherwise leaves the governor as it stood. Every arm that is not
STOWED, not FAULT and not already RAISING raises with the full raise time, its coils posted; a lower-pending mark is cleared; a
raise of the main broom clears hold-done, also from WORKING and LOWERING (entry 39); the arm entries and the bars are judged, and
no bar is active. Nothing else moves. That a request for the range already set waits with shift state none is entry 28. -/
def Obligations.SweepStartsAndEnds : Prop :=
  ∀ (h : Head) (s : State),
    (s.passes h 8 →
      (let reply := fun (c : Code) => exec (.sweepStart h) s = .next ((s.taken h).answered h 8 c [])
       (h.link = .drive → reply .denied) ∧
       (h.link = .body → s.unit.mode = .service ∨ s.unit.mode = .leaving → reply .state) ∧
       (h.link = .body → s.unit.mode = .entering ∨ s.unit.mode = .sweep → reply .done) ∧
       (h.link = .body → s.unit.mode = .transport → s.unit.active = none → reply .empty) ∧
       (h.link = .body → s.unit.mode = .transport → s.unit.active.isSome = true →
         (∃ l, ((s.taken h).link l).state ≠ .live) → reply .state)) ∧
      (h.link = .body → s.unit.mode = .transport → s.unit.active.isSome = true →
        (∀ l, ((s.taken h).link l).state = .live) →
        ∃ t : State, exec (.sweepStart h) s = .next (t.answered h 8 .accepted []) ∧
          State.SettlesTo [.mode, .rangeShift] [.modeChanged] []
            { s.taken h with unit := { s.unit with mode := .entering, awaited := some .work }, gov := t.gov } t ∧
          (t.ceiling.entry .mode).cap = s.settings.caps.transportMax ∧
          (t.ceiling.entry .rangeShift).active = true ∧
          (t.ceiling.entry .rangeShift).cap = s.settings.caps.shiftSpeed ∧
          t.gov = { s.gov with requested := some .work, shift := t.gov.shift, settle := t.gov.settle } ∧
          (s.gov.setRange = .transport → t.gov.shift = .waiting ∧ t.gov.settle = none) ∧
          (s.gov.setRange = .work → t.gov.settle = s.gov.settle ∧
            t.gov.shift = if s.gov.settle.isSome = true then s.gov.shift else .none))) ∧
    (s.passes h 9 →
      (let reply := fun (c : Code) => exec (.sweepEnd h) s = .next ((s.taken h).answered h 9 c [])
       (h.link = .drive → reply .denied) ∧
       (h.link = .body → s.unit.mode = .leaving → reply .done) ∧
       (h.link = .body → s.unit.mode = .transport ∨ s.unit.mode = .service → reply .state)) ∧
      (h.link = .body → s.unit.mode = .entering ∨ s.unit.mode = .sweep →
        ∃ t : State, exec (.sweepEnd h) s = .next (t.answered h 9 .accepted []) ∧
          (let u := s.taken h
           let down := fun (a : Arm) => (s.arm a).state = .stowed ∨ (s.arm a).state = .fault
           let moves := fun (a : Arm) => ¬down a ∧ (s.arm a).state ≠ .raising
           let acts := ∃ a : Arm, moves a ∨ ((s.arm a).state = .stowed ∧ (s.arm a).pending = true)
           t.unit = { s.unit with
             mode := .leaving, awaited := if t.unit.requested then some .transport else none
             requested := t.unit.requested, reached := false } ∧
           (t.unit.requested = true ↔ ∀ a : Arm, down a) ∧
           (t.unit.requested = true →
             t.gov = { s.gov with requested := some .transport, shift := t.gov.shift, settle := t.gov.settle } ∧
             (s.gov.setRange = .work → t.gov.shift = .waiting ∧ t.gov.settle = none) ∧
             (s.gov.setRange = .transport → t.gov.settle = s.gov.settle ∧
               t.gov.shift = if s.gov.settle.isSome = true then s.gov.shift else .none) ∧
             (t.ceiling.entry .rangeShift).active = true ∧ (t.ceiling.entry .rangeShift).cap = s.settings.caps.shiftSpeed) ∧
           (t.unit.requested = false → t.gov = s.gov ∧ t.ceiling.sameEntry s.ceiling .rangeShift) ∧
           (∀ a : Arm, moves a → t.armPosted a ∧ t.arm a = { s.arm a with
             state := .raising, phase := none, pending := false, timer := some (later t.now s.program.raiseTime), rot := 0
             force := (t.arm a).force }) ∧
           (∀ a : Arm, (s.arm a).state = .stowed → t.arm a = { s.arm a with pending := false }) ∧
           (∀ a : Arm, (s.arm a).state = .fault ∨ (s.arm a).state = .raising → t.arm a = s.arm a) ∧
           t.arms = { s.arms with
             left := t.arms.left, right := t.arms.right, main := t.arms.main, holdDone := t.arms.holdDone } ∧
           (moves .main → t.arms.holdDone = false) ∧ (¬moves .main → t.arms.holdDone = s.arms.holdDone) ∧
           (acts → t.armEntriesJudged ∧ t.told .armState) ∧
           (¬acts → (∀ src ∈ [Source.armTransition, .armYield, .reverseArms], t.ceiling.sameEntry s.ceiling src) ∧
             ∀ l : Link, (t.notices.events l).sameKind (u.notices.events l) .armState) ∧
           (∀ b : Bar, (t.spray.bar b).active = false) ∧ t.barsJudged ∧ State.barsSettled u t ∧
           t.spray = { s.spray with
             left := t.spray.left, right := t.spray.right, main := t.spray.main, duty := t.spray.duty
             dryCount := t.spray.dryCount } ∧
           (∀ ch : Channel, ch.val < 3 → t.output.channels[ch] = s.output.channels[ch]) ∧
           (∀ (a : Arm) (ch : Channel), ¬moves a → armOfChannel ch = some a →
             t.output.channels[ch] = s.output.channels[ch]) ∧
           (∀ ch : Channel, t.output.channels[ch].fault = s.output.channels[ch].fault ∧
             t.output.channels[ch].holder = s.output.channels[ch].holder ∧
             t.output.channels[ch].level = s.output.channels[ch].level) ∧
           (t.ceiling.entry .mode).cap = min s.program.workMax s.settings.caps.transportMax ∧
           (∀ src : Source, src ∉ [Source.mode, .rangeShift, .armTransition, .armYield, .reverseArms, .sprayLimit,
             .drySweep] → t.ceiling.sameEntry s.ceiling src) ∧
           u.postedOnce .modeChanged t ∧
           (∀ (l : Link) (k : EventKind), k ∉ [EventKind.modeChanged, .armState, .ceilingBinding] →
             (t.notices.events l).sameKind (u.notices.events l) k) ∧
           (∀ l : Link, (t.notices.events l).mask = (u.notices.events l).mask) ∧ t.notices.alarms = s.notices.alarms ∧
           (∀ x : Tally, x ≠ .urgentStops → t.bank.tallies[x.index] = u.bank.tallies[x.index]) ∧
           t = { u with
                 unit := t.unit, gov := t.gov, ceiling := t.ceiling, arms := t.arms, spray := t.spray
                 output := { s.output with channels := t.output.channels }, notices := t.notices
                 bank := { u.bank with tallies := t.bank.tallies } })))

/-- R12, R13, R172: SERVICE_ENTER is taken in TRANSPORT at standstill with no demand, and SERVICE_LEAVE in SERVICE; the other
cases are answered by the mode. Leaving posts MODE_CHANGED and SERVICE_LEFT to both links and ends DIRECT on every channel. -/
def Obligations.ServiceEnteredAndLeft : Prop :=
  ∀ (h : Head) (s : State),
    (s.passes h 10 →
      (let reply := fun (c : Code) => exec (.serviceEnter h) s = .next ((s.taken h).answered h 10 c [])
       (s.unit.mode = .service → reply .done) ∧
       (s.unit.mode = .entering ∨ s.unit.mode = .sweep ∨ s.unit.mode = .leaving → reply .state) ∧
       (s.unit.mode = .transport → 0 < s.travel.ground ∨ 0 < s.gov.vRef ∨ 0 < s.gov.demandMag → reply .state)) ∧
      (s.unit.mode = .transport → s.travel.ground = 0 → s.gov.vRef = 0 → s.gov.demandMag = 0 →
        ∃ t : State, exec (.serviceEnter h) s = .next (t.answered h 10 .done []) ∧
          State.SettlesTo [.mode] [.modeChanged] [] { s.taken h with unit := { s.unit with mode := .service } } t ∧
          (t.ceiling.entry .mode).cap = 0 ∧ t.barsJudged)) ∧
    (s.passes h 11 →
      (s.unit.mode ≠ .service → exec (.serviceLeave h) s = .next ((s.taken h).answered h 11 .notActive [])) ∧
      (s.unit.mode = .service →
        ∃ t : State, exec (.serviceLeave h) s = .next (t.answered h 11 .done []) ∧
          (s.taken h).LeavesService t))

/-- R18, R21: OPEN_EDIT and ABANDON_EDIT, with every answer in the order of its checks. An opened slot is copied to the
staging record, an empty one as the defaults of R15, with 2000 ms on the claim idle timer; an abandon frees the record and
posts nothing. Nothing else changes. -/
def Obligations.EditOpensAndIsAbandoned : Prop :=
  ∀ (h : Head) (slot : Byte) (s : State),
    (s.passes h 12 →
      (let reply := fun (c : Code) => exec (.openEdit h slot) s = .next ((s.taken h).answered h 12 c [])
       (7 < slot.toNat → reply .unknown) ∧
       (∀ g, slot.toNat ≤ 7 → s.unit.staging = some g → g.holder ≠ h.link → reply .held) ∧
       (∀ g, slot.toNat ≤ 7 → s.unit.staging = some g → g.holder = h.link → reply .busy) ∧
       (slot.toNat ≤ 7 → s.unit.staging = none → s.unit.swap.isSome = true → reply .busy)) ∧
      (∀ i : Fin 8, slot.toNat = i.val → s.unit.staging = none → s.unit.swap = none →
        exec (.openEdit h slot) s = .next
          (({ s.taken h with unit := { s.unit with
              staging := some ⟨h.link, i, s.unit.slots[i].getD {}, later (s.taken h).now 2000⟩ } } : State).answered
            h 12 .done []))) ∧
    (s.passes h 15 →
      (s.unit.staging = none → exec (.abandonEdit h) s = .next ((s.taken h).answered h 15 .notActive [])) ∧
      (∀ g, s.unit.staging = some g → g.holder ≠ h.link →
        exec (.abandonEdit h) s = .next ((s.taken h).answered h 15 .held [])) ∧
      (∀ g, s.unit.staging = some g → g.holder = h.link →
        exec (.abandonEdit h) s =
          .next (({ s.taken h with unit := { s.unit with staging := none } } : State).answered h 15 .done [])))

/-- R15, R19, R20: WRITE_FIELD. The refusals come in the order of the table and change nothing. An accepted write changes its
own field of the staging record alone and restarts the claim idle timer at 2000 ms; its expiry frees the record and posts
CLAIM_LAPSED to the former holder's link alone. The accepted values are those of R15 for the work max speed, P, a dose, a
curve point and the label; the other fields are covered by `fieldAccepts` as the model has it. -/
def Obligations.FieldWritesAndLapse : Prop :=
  (∀ (h : Head) (field place : Byte) (value : FieldValue) (s : State), s.passes h 13 →
    (let reply := fun (c : Code) => exec (.writeField h field place value) s = .next ((s.taken h).answered h 13 c [])
     let known := 1 ≤ field.toNat ∧ field.toNat ≤ 21 ∧
       (field.toNat = 14 ∨ field.toNat = 16 → place.toNat ≤ 5)
     let mine := h.link = (if 2 ≤ field.toNat ∧ field.toNat ≤ 6 then .drive else .body)
     (s.unit.staging = none → reply .state) ∧
     (∀ g, s.unit.staging = some g →
       (g.holder ≠ h.link → reply .held) ∧
       (g.holder = h.link → ¬known → reply .unknown) ∧
       (g.holder = h.link → known → ¬mine → reply .denied) ∧
       (g.holder = h.link → known → mine → fieldAccepts field.toNat value = false → reply .range) ∧
       (g.holder = h.link → known → mine → fieldAccepts field.toNat value = true →
         exec (.writeField h field place value) s = .next
           (({ s.taken h with unit := { s.unit with
               staging := some { g with
                 record := g.record.setField field.toNat place.toNat value
                 idle := later (s.taken h).now 2000 } } } : State).answered h 13 .done []))))) ∧
  (∀ v : Half, (fieldAccepts 2 (.word v) = true ↔ 300 ≤ v.toNat ∧ v.toNat ≤ 4000) ∧
    (fieldAccepts 7 (.word v) = true ↔ 100 ≤ v.toNat ∧ v.toNat ≤ 1000 ∧ v.toNat % 10 = 0) ∧
    (fieldAccepts 9 (.word v) = true ↔ v = 0 ∨ (10 ≤ v.toNat ∧ v.toNat ≤ 500))) ∧
  (∀ sp rot : Half, fieldAccepts 14 (.point sp rot) = true ↔ sp.toNat ≤ 4000 ∧ rot.toNat ≤ 1000) ∧
  (∀ cs : Vector Byte 8, fieldAccepts 1 (.label cs) = true ↔ ∀ i : Fin 8, 32 ≤ cs[i].toNat ∧ cs[i].toNat ≤ 126) ∧
  (∀ (p : Program) (v : Half), (p.setField 7 0 (.word v)) = { p with period := v.toNat } ∧
    (p.setField 9 0 (.word v)) = { p with doseRight := if v = 0 then none else some v.toNat }) ∧
  (∀ (p : Program) (k : Fin 6) (sp rot : Half), p.setField 16 k.val (.point sp rot) =
    { p with main := { p.main with points := p.main.points.set k ⟨sp.toNat, rot.toNat⟩ } }) ∧
  (∀ (after : Nat) (s : State) (g : Staging), s.unit.staging = some g → reached (s.elapse after).now g.idle = true →
    ∃ t : State, exec (.claimIdleTimerExpiry after) s = .next t ∧ t.unit = { s.unit with staging := none } ∧
      (t.notices.events g.holder).pending = (s.notices.events g.holder).pending ||| 512#16 ∧
      (t.notices.events g.holder).counts[9] = min 15 ((s.notices.events g.holder).counts[9] + 1) ∧
      t.notices.events g.holder.other = s.notices.events g.holder.other ∧ t.notices.alarms = s.notices.alarms ∧
      t = { s.elapse after with unit := t.unit, notices := t.notices })

/-- R22, R23: COMMIT_EDIT. The claim and the table are checked first, then the record, whose two curves must rise. A record
for the active slot in a working mode waits as the pending swap; another is written at once, and into the active slot as the
program in force from then on. -/
def Obligations.EditIsCommitted : Prop :=
  ∀ (h : Head) (s : State), s.passes h 14 →
    (let reply := fun (c : Code) => exec (.commitEdit h) s = .next ((s.taken h).answered h 14 c [])
     (s.unit.staging = none → reply .notActive) ∧
     (∀ g, s.unit.staging = some g →
       (g.holder ≠ h.link → reply .held) ∧
       (g.holder = h.link → s.unit.swap.isSome = true → reply .busy) ∧
       (g.holder = h.link → s.unit.swap = none → ¬(g.record.side.Rising ∧ g.record.main.Rising) → reply .invalid))) ∧
    (∀ g, s.unit.staging = some g → g.holder = h.link → s.unit.swap = none →
      g.record.side.Rising → g.record.main.Rising →
      (s.unit.active = some g.slot → s.unit.mode.working = true →
        exec (.commitEdit h) s = .next
          (({ s.taken h with unit := { s.unit with
              staging := none, swap := some ⟨g.slot, g.record⟩ } } : State).answered h 14 .accepted [])) ∧
      (s.unit.active ≠ some g.slot →
        exec (.commitEdit h) s = .next
          (({ s.taken h with unit := { s.unit with
              staging := none, slots := s.unit.slots.set g.slot (some g.record) } } : State).answered h 14 .done [])) ∧
      (s.unit.active = some g.slot → s.unit.mode.working = false →
        ∃ t : State, exec (.commitEdit h) s = .next (t.answered h 14 .done []) ∧
          State.SettlesTo [.mode, .reverseArms] [] [.shortfall]
            { s.taken h with unit := { s.unit with
                staging := none, slots := s.unit.slots.set g.slot (some g.record) } } t ∧
          (t.ceiling.entry .reverseArms).cap = g.record.reverseCap ∧ (t.ceiling.entry .drySweep).cap = g.record.dryCap ∧
          (t.ceiling.entry .mode).cap = (if s.unit.mode = .service then 0 else s.settings.caps.transportMax)))

/-- R24: ERASE_PROGRAM, every answer in the order of its checks; a taken erase empties its slot and changes nothing else. -/
def Obligations.ProgramIsErased : Prop :=
  ∀ (h : Head) (slot : Byte) (s : State), s.passes h 16 →
    (7 < slot.toNat → exec (.eraseProgram h slot) s = .next ((s.taken h).answered h 16 .unknown [])) ∧
    (∀ i : Fin 8, slot.toNat = i.val →
      (let reply := fun (c : Code) => exec (.eraseProgram h slot) s = .next ((s.taken h).answered h 16 c [])
       let claimedBy := fun (l : Link) => ∃ g, s.unit.staging = some g ∧ g.slot = i ∧ g.holder = l
       let swapped := ∃ w, s.unit.swap = some w ∧ w.target = i
       if s.unit.active = some i then reply .state
       else (claimedBy h.link.other → reply .held) ∧ (claimedBy h.link → reply .busy) ∧
         (¬claimedBy .drive → ¬claimedBy .body →
           (swapped → reply .busy) ∧
           (¬swapped → s.unit.slots[i] = none → reply .empty) ∧
           (¬swapped → s.unit.slots[i].isSome = true →
             exec (.eraseProgram h slot) s = .next
               (({ s.taken h with unit := { s.unit with slots := s.unit.slots.set i none } } : State).answered
                 h 16 .done [])))))

/-- R25, R26: SELECT_PROGRAM. In TRANSPORT and SERVICE the slot becomes active at once, and the cycle boundary timer starts if
none was active, with the caps that MODE, REVERSE_ARMS and DRY_SWEEP then have (R5, R110, R137); in a working mode it waits as
the pending swap. -/
def Obligations.ProgramIsSelected : Prop :=
  ∀ (h : Head) (slot : Byte) (s : State), s.passes h 17 →
    (7 < slot.toNat → exec (.selectProgram h slot) s = .next ((s.taken h).answered h 17 .unknown [])) ∧
    (∀ i : Fin 8, slot.toNat = i.val →
      (s.unit.slots[i] = none → exec (.selectProgram h slot) s = .next ((s.taken h).answered h 17 .empty [])) ∧
      (∀ p, s.unit.slots[i] = some p →
        (s.unit.swap.isSome = true → exec (.selectProgram h slot) s = .next ((s.taken h).answered h 17 .busy [])) ∧
        (s.unit.swap = none → s.unit.active = some i →
          exec (.selectProgram h slot) s = .next ((s.taken h).answered h 17 .done [])) ∧
        (s.unit.swap = none → s.unit.active ≠ some i → s.unit.mode.working = true →
          exec (.selectProgram h slot) s = .next
            (({ s.taken h with unit := { s.unit with swap := some ⟨i, p⟩ } } : State).answered h 17 .accepted [])) ∧
        (s.unit.swap = none → s.unit.active ≠ some i → s.unit.mode.working = false →
          ∃ t : State, exec (.selectProgram h slot) s = .next (t.answered h 17 .done []) ∧
            State.SettlesTo [.mode, .reverseArms] [] [.shortfall]
              { s.taken h with unit := { s.unit with
                  active := some i
                  boundary := if s.unit.active = none then some (later (s.taken h).now p.period) else s.unit.boundary
                  halfMark := if s.unit.active = none then none else s.unit.halfMark } } t ∧
            (t.ceiling.entry .reverseArms).cap = p.reverseCap ∧ (t.ceiling.entry .drySweep).cap = p.dryCap ∧
            (t.ceiling.entry .mode).cap = (if s.unit.mode = .service then 0 else s.settings.caps.transportMax))))

/-- R26, R27, R125, R127, R128: a cycle boundary. A pending swap is applied first: its record is in its slot, which is active,
PROGRAM_SWAPPED is posted to both links, the caps take the new program's values, the bars are judged, and the owed water of a
bar that is active then is held to the new cap, with what lies beyond it counted as shortfall. The next period and the
half-cycle mark take the P now in force, from the expiry that has come. The left and main bars then take their cycle start
under the program in force, with SPRAY_SATURATED where a bar becomes saturated; at the half-cycle mark the right bar takes its
own. -/
def Obligations.CyclesBegin : Prop :=
  ∀ (after : Nat) (s : State) (e : Time),
    (s.unit.boundary = some e → reached (s.elapse after).now e = true →
      ∃ v w t : State, exec (.cycleBoundary after) s = .next t ∧
        (let u := s.elapse after
         let unit := { s.unit with
           boundary := some (later e t.program.period), halfMark := some (later e (t.program.period / 2)) }
         (s.unit.swap = none → v = { u with unit := unit }) ∧
         (∀ x, s.unit.swap = some x →
           State.SettlesTo [.mode, .reverseArms] [.programSwapped] [.shortfall]
             { u with unit := { unit with
                 slots := s.unit.slots.set x.target (some x.record), active := some x.target, swap := none } } v ∧
           v.barsJudged ∧ (v.ceiling.entry .reverseArms).cap = x.record.reverseCap ∧
           (v.ceiling.entry .drySweep).cap = x.record.dryCap ∧
           (v.ceiling.entry .mode).cap = (match s.unit.mode with
             | .transport | .entering => s.settings.caps.transportMax | .service => 0
             | .sweep | .leaving => min x.record.workMax s.settings.caps.transportMax) ∧
           (let cap := fun (b : Bar) => owedCap x.record (s.settings.spray.flow b)
            let lost := fun (b : Bar) => if (v.spray.bar b).active = true then (s.spray.bar b).owed - cap b else 0
            let rem := fun (b : Bar) => (s.spray.bar b).shortfallRem + lost b
            (∀ b : Bar,
              ((v.spray.bar b).active = true → v.spray.bar b = { s.spray.bar b with
                active := true, owed := min (cap b) (s.spray.bar b).owed
                shortfallRem := (v.spray.bar b).shortfallRem }) ∧
              ((v.spray.bar b).active = false → (s.spray.bar b).active = true → v.spray.bar b = { s.spray.bar b with
                active := false, pulseEnd := none, owed := 0, saturated := false, lastPulse := 0 }) ∧
              ((v.spray.bar b).active = false → (s.spray.bar b).active = false →
                v.spray.bar b = s.spray.bar b)) ∧
            (s.CountLaw → (∀ b : Bar, (v.spray.bar b).shortfallRem = rem b % 1000) ∧
              v.bank.tallies[Tally.index .shortfall] = min 16777215 (s.bank.tallies[Tally.index .shortfall] +
                (rem .left / 1000 + rem .right / 1000 + rem .main / 1000))))) ∧
         v.StartsCycle .left w ∧ w.StartsCycle .main t ∧ t.unit = v.unit ∧
         (∀ ch : Channel, ch.val < 14 → t.output.channels[ch] = s.output.channels[ch]) ∧
         t = { u with
               unit := t.unit, ceiling := t.ceiling, notices := t.notices, spray := t.spray, output := t.output
               bank := { u.bank with tallies := t.bank.tallies } })) ∧
    (s.unit.halfMark = some e → reached (s.elapse after).now e = true →
      ∃ t : State, exec (.halfCycleMark after) s = .next t ∧
        State.StartsCycle .right { s.elapse after with unit := { s.unit with halfMark := none } } t)

/-! ### Travel -/

/-- R30, R32, R33, R37 to R45, R112, R121 to R123, R187, R13: a wheel edge less than 100 µs after the last accepted one of its
wheel changes nothing. An accepted edge is stamped on its wheel's record; a first edge and a reversal clear history and speed
(a reversal keeps its time as the last edge: entry 39), another gives a period, the speed and edge speed of the mean of the
last four periods, and the acceleration of the spin test. A spin, or a standing other wheel silent for 300 ms while this one
has moved as long (a wheel with no edge yet silent since the reset: entry 30), starts or restarts slip hold, with TRACTION,
SLIP and its tally at a start. A watch of this wheel ends, and the watch is checked where the speed changed. A fault of this
wheel ends with its alarm. Ground speed and direction are formed again, and a change of ground speed to a value above 0 lapses
the restart window. The edge adds its pitch to the distance, twice it in a fault of the other wheel or for the slower wheel in
slip hold and nothing for the faster one; each 200 units are a tick, with the odometer, the swept distances and the owed
water. The order of these within the edge is the model's (entry 17). SERVICE is left last. The other wheel's record stands. -/
def Obligations.WheelEdgesTaken : Prop :=
  ∀ (after : Nat) (w : Wheel) (dir : Dir) (s : State),
    (let u := s.elapse after
     let x := s.travel.wheel w
     let z := s.travel.wheel w.other
     let pitch := s.settings.travel.pitch w
     (∀ e, x.lastEdge = some e → since u.nowUs e < 100 → exec (.wheelEdge after w dir) s = .next u) ∧
     ((∀ e, x.lastEdge = some e → 100 ≤ since u.nowUs e) →
       ∃ v t : State, exec (.wheelEdge after w dir) s = .next t ∧
         (let y := v.travel.wheel w
          let was := s.travel
          let is := v.travel
          let events := fun (r : State) (k : EventKind) => ∀ l : Link,
            (v.notices.events l).sameKind (r.notices.events l) k
          let tally := fun (r : State) (i : Tally) => v.bank.tallies[i.index] = r.bank.tallies[i.index]
          let spins := ∃ e prev, x.lastEdge = some e ∧ x.dir = dir ∧ x.edgeSpeed = some prev ∧
            (s.settings.travel.spinLimit : Int) < (((y.speed : Int) - prev) * 1000000).tdiv (since u.nowUs e)
          let still := x.lastEdge.isSome = true ∧ x.dir = dir ∧ was.sensorFault = none ∧ z.speed = 0 ∧
            300 ≤ since u.now (z.lastEdgeTime.getD 0) ∧ ∃ m, y.movingSince = some m ∧ 300 ≤ since u.now m
          let slips := spins ∨ still
          y.lastEdge = some u.nowUs ∧ y.lastEdgeTime = some u.now ∧ y.dir = dir ∧
          y.timeout = some (later u.now s.settings.travel.pulseTimeout) ∧
          (x.lastEdge = none ∨ x.dir ≠ dir →
            y.history = [] ∧ y.edgeSpeed = none ∧ y.speed = 0 ∧ y.movingSince = none ∧ y.accel = x.accel) ∧
          (∀ e, x.lastEdge = some e → x.dir = dir →
            (let p := since u.nowUs e
             y.history = (x.history ++ [p]).drop (x.history.length + 1 - 4) ∧
             y.speed = pitch * 100000 / (y.history.sum / y.history.length) ∧ y.edgeSpeed = some y.speed ∧
             y.movingSince = (if x.speed = 0 ∧ 0 < y.speed then some u.now else x.movingSince) ∧
             (x.edgeSpeed = none → y.accel = x.accel) ∧
             (∀ prev, x.edgeSpeed = some prev →
               y.accel = max (-2147483648) (min 2147483647 ((((y.speed : Int) - prev) * 1000000).tdiv p))))) ∧
          v.travel.wheel w.other = z ∧
          (slips → is.slipHold = some (later u.now s.settings.travel.slipHold)) ∧
          (slips → was.slipHold = none → u.postedOnce .slip v ∧
            v.bank.tallies[Tally.index .slips] = min 65535 (s.bank.tallies[Tally.index .slips] + 1) ∧
            (v.ceiling.entry .traction).active = true ∧
            (v.ceiling.entry .traction).cap = s.settings.caps.traction ∧
            (∀ src, src ≠ .traction → v.ceiling.sameEntry s.ceiling src) ∧
            ∃ r : State, State.CeilingReports u r ∧ v.ceiling = r.ceiling ∧ events r .ceilingBinding ∧
              tally r .urgentStops) ∧
          (¬slips → is.slipHold = was.slipHold) ∧
          (¬slips ∨ was.slipHold.isSome = true → v.ceiling = s.ceiling ∧ events s .slip ∧ events s .ceilingBinding ∧
            tally s .slips ∧ tally s .urgentStops) ∧
          is.sensorFault = (if was.sensorFault = some w then none else was.sensorFault) ∧
          (was.sensorFault = some w → State.GoesAbsent .wheelSensor (match w with | .left => 0 | .right => 1) u v) ∧
          (was.sensorFault ≠ some w → v.notices.alarms = s.notices.alarms ∧ events s .alarmGone) ∧
          (let kept := was.watch.filter fun a => a.wheel != w
           let holds := fun (a : Wheel) => (is.wheel a).speed = 0 ∧ 500 < (is.wheel a.other).speed
           let checked := was.sensorFault = some w ∨ (was.sensorFault = none ∧ y.speed ≠ x.speed)
           (¬checked → is.watch = kept) ∧
           (checked → (∀ a, kept = some a → holds a.wheel → is.watch = some a) ∧
             ((∀ a, kept = some a → ¬holds a.wheel) → is.watch =
               (if holds .left then some ⟨.left, u.now⟩ else if holds .right then some ⟨.right, u.now⟩ else none)))) ∧
          (is.sensorFault = none → is.ground = (if is.slipHold.isSome = true then min is.left.speed is.right.speed
              else (is.left.speed + is.right.speed) / 2) ∧
            is.dir = (if is.left.speed = 0 ∧ is.right.speed = 0 then was.dir
              else if is.left.speed < is.right.speed then is.right.dir else is.left.dir)) ∧
          (is.sensorFault ≠ none → is.ground = y.speed ∧ is.dir = if 0 < y.speed then dir else was.dir) ∧
          (is.ground ≠ was.ground → 0 < is.ground → v.links.window = none ∧
            ∀ a, s.links.window = some a → (v.notices.events a.holder).pending.getLsbD 10 = true) ∧
          (¬slips → was.sensorFault ≠ some w → is.ground = was.ground ∨ is.ground = 0 →
            v.links = s.links ∧ events s .restartLapsed) ∧
          (∀ l, v.link l = s.link l) ∧
          (let d := if is.sensorFault ≠ none then 2 * pitch else if is.slipHold = none then pitch
             else if y.speed < z.speed then 2 * pitch else if z.speed < y.speed then 0 else pitch
           is.accumulator = (was.accumulator + d) % 200 ∧
           (s.CountLaw → State.TicksTaken ((was.accumulator + d) / 200) u v)) ∧
          (∀ (l : Link) (k : EventKind), k ∉ [EventKind.slip, .ceilingBinding, .alarmGone, .restartLapsed] →
            (v.notices.events l).sameKind (s.notices.events l) k) ∧
          (∀ l : Link, (v.notices.events l).mask = (s.notices.events l).mask) ∧
          (∀ i : Tally, i ∉ [Tally.slips, .urgentStops, .shortfall] → (∀ a, i ≠ .swept a) → tally s i) ∧
          v = { u with
            travel := v.travel, ceiling := v.ceiling, links := v.links, notices := v.notices
            spray := { s.spray with left := v.spray.left, right := v.spray.right, main := v.spray.main }
            bank := { u.bank with
              tallies := v.bank.tallies, sweptLeft := v.bank.sweptLeft, sweptRight := v.bank.sweptRight
              sweptMain := v.bank.sweptMain } } ∧
          (s.unit.mode ≠ .service → t = v) ∧ (s.unit.mode = .service → State.LeavesService v t))))

/-- R34, R35, R39 to R43, R187: the timed events of the travel unit. The travel update decays the speed of each wheel with a
history to that of the longer of its mean period and the time since its last edge; where a speed changes, ground speed and
direction are formed again and the watch is checked, for the left wheel first (entry 40). A watch that then stands and has run
3000 ms becomes the wheel-sensor fault (entry 18): its alarm is raised with its detail, slip hold ends with TRACTION, and ground
speed and direction are the working wheel's. A pulse timeout clears its wheel's history and speed, keeps the direction, and
checks the watch where the speed was above 0. Slip hold ends with TRACTION. Each change of ground speed to a value above 0 lapses
the restart window. Nothing else moves: no alarm, tally, event or entry but those of a fault that begins and of TRACTION. -/
def Obligations.TravelTimersAct : Prop :=
  ∀ (after : Nat) (s : State),
    (let u := s.elapse after
     let only := fun (kinds : List EventKind) (t : State) =>
       (∀ l : Link, (t.notices.events l).mask = (s.notices.events l).mask ∧
         ∀ k : EventKind, k ∉ kinds → (t.notices.events l).sameKind (s.notices.events l) k) ∧
       t = { u with
             travel := t.travel, periods := t.periods, ceiling := t.ceiling, links := t.links, notices := t.notices
             bank := { u.bank with tallies := t.bank.tallies } }
     let quiet := fun (t : State) =>
       t.ceiling = s.ceiling ∧ t.notices.alarms = s.notices.alarms ∧ t.bank = u.bank ∧ only [.restartLapsed] t
     let released := fun (t : State) => (t.ceiling.entry .traction).active = false ∧
       (∀ src, src ≠ .traction → t.ceiling.sameEntry s.ceiling src) ∧
       ∃ r : State, State.CeilingReports u r ∧ t.ceiling = r.ceiling ∧
         t.bank.tallies[Tally.index .urgentStops] = r.bank.tallies[Tally.index .urgentStops] ∧
         ∀ l : Link, (t.notices.events l).sameKind (r.notices.events l) .ceilingBinding
     let decays := fun (w : Wheel) (a b : Travel) =>
       (let x := a.wheel w
        let y := b.wheel w
        b = { a with left := b.left, right := b.right, watch := b.watch, ground := b.ground, dir := b.dir } ∧
        b.wheel w.other = a.wheel w.other ∧
        y = { x with
          speed := y.speed, movingSince := if x.speed = 0 ∧ 0 < y.speed then some u.now else x.movingSince } ∧
        (x.history = [] → y.speed = x.speed) ∧
        (x.history ≠ [] → ∀ e, x.lastEdge = some e → y.speed =
          s.settings.travel.pitch w * 100000 / max (x.history.sum / x.history.length) (since u.nowUs e)) ∧
        (y.speed = x.speed → b = a) ∧ (y.speed ≠ x.speed → b.Formed a.dir ∧ Travel.WatchChecked u.now a b))
     (reached u.now s.periods.travel = true →
       ∃ (m n : Travel) (t : State), exec (.travelUpdateExpiry after) s = .next t ∧
         t.periods = { s.periods with travel := later s.periods.travel 10 } ∧
         decays .left s.travel m ∧ decays .right m n ∧
         (n.sensorFault ≠ none ∨ (∀ x, n.watch = some x → since u.now x.since < 3000) → t.travel = n ∧ quiet t) ∧
         (n.sensorFault = none → ∀ x, n.watch = some x → 3000 ≤ since u.now x.since →
           t.travel = { n with
             watch := none, sensorFault := some x.wheel, slipHold := none, ground := t.travel.ground
             dir := t.travel.dir } ∧
           t.travel.Formed n.dir ∧ State.Raises .wheelSensor (match x.wheel with | .left => 0 | .right => 1) u t ∧
           (n.slipHold.isSome = true → released t) ∧
           (n.slipHold = none → t.ceiling = s.ceiling ∧
             t.bank.tallies[Tally.index .urgentStops] = u.bank.tallies[Tally.index .urgentStops] ∧
             ∀ l : Link, (t.notices.events l).sameKind (s.notices.events l) .ceilingBinding) ∧
           (∀ i : Tally, i ≠ .urgentStops → i ≠ .overflows → t.bank.tallies[i.index] = u.bank.tallies[i.index]) ∧
           only [.alarmRaised, .ceilingBinding, .restartLapsed] t) ∧
         State.WindowFollows (Travel.Rises s.travel m ∨ Travel.Rises m n ∨ Travel.Rises n t.travel) u t) ∧
     (∀ (w : Wheel) (e : Time), (s.travel.wheel w).timeout = some e → reached u.now e = true →
       ∃ t : State, exec (.pulseTimeoutExpiry after w) s = .next t ∧
         t.travel.wheel w = { s.travel.wheel w with
           history := [], lastEdge := none, edgeSpeed := none, speed := 0, movingSince := none, timeout := none } ∧
         t.travel.wheel w.other = s.travel.wheel w.other ∧
         t.travel = { s.travel with
           left := t.travel.left, right := t.travel.right, watch := t.travel.watch, ground := t.travel.ground
           dir := t.travel.dir } ∧
         t.travel.Formed s.travel.dir ∧ ((s.travel.wheel w).speed = 0 → t.travel.watch = s.travel.watch) ∧
         ((s.travel.wheel w).speed ≠ 0 → Travel.WatchChecked u.now s.travel t.travel) ∧
         State.WindowFollows (Travel.Rises s.travel t.travel) u t ∧ t.periods = s.periods ∧ quiet t) ∧
     (∀ e : Time, s.travel.slipHold = some e → reached u.now e = true →
       ∃ t : State, exec (.slipHoldExpiry after) s = .next t ∧
         t.travel = { s.travel with slipHold := none, ground := t.travel.ground, dir := t.travel.dir } ∧
         t.travel.Formed s.travel.dir ∧ released t ∧ t.notices.alarms = s.notices.alarms ∧
         (∀ i : Tally, i ≠ .urgentStops → t.bank.tallies[i.index] = u.bank.tallies[i.index]) ∧
         State.WindowFollows (Travel.Rises s.travel t.travel) u t ∧ t.periods = s.periods ∧
         only [.ceilingBinding, .restartLapsed] t))

/-! ### The ceiling and the governor -/

/-- R56, R62, R48, R57, R58, R59: with MODE active, the effective ceiling of a direction is the lowest cap among the active
entries whose scope includes it, the binding source is the lowest of the slots that hold that cap there, and urgent is the
class of that source. The three posts and a report of the held direction change what they name and no other entry, and report
a change of binding: CEILING_BINDING to both links, one engagement of the new source, the time, and an urgent stop where
urgent comes to apply with the speed reference above 0. After reset the report direction is forward and both ceilings are 0
with DRIVE_LOSS binding and urgent. -/
def Obligations.CeilingIsLowestCap : Prop :=
  (∀ (c : CeilingTable) (d : Dir), (c.entry .mode).active = true →
    (let inScope := fun (src : Source) => (c.entry src).active = true ∧ (src = .reverseArms → d = .reverse)
     inScope (c.binding d) ∧ c.effective d = (c.entry (c.binding d)).cap ∧
     (∀ src, inScope src → c.effective d ≤ (c.entry src).cap) ∧
     (∀ src, inScope src → (c.entry src).cap = c.effective d → (c.binding d).slot ≤ src.slot) ∧
     (c.urgent d = true ↔ c.binding d = .driveLoss ∨ c.binding d = .driveFault))) ∧
  (∀ (src : Source) (cap : Nat) (s : State),
    (let a := s.ceiling.entry src
     let only := fun (t : State) => State.CeilingReports s t ∧ (∀ x, x ≠ src → t.ceiling.sameEntry s.ceiling x) ∧
       t.notices.alarms = s.notices.alarms ∧
       (∀ l : Link, (t.notices.events l).mask = (s.notices.events l).mask ∧
         ∀ k : EventKind, k ≠ .ceilingBinding → (t.notices.events l).sameKind (s.notices.events l) k) ∧
       (∀ x : Tally, x ≠ .urgentStops → t.bank.tallies[x.index] = s.bank.tallies[x.index]) ∧
       t = { s with
         ceiling := t.ceiling, notices := t.notices, bank := { s.bank with tallies := t.bank.tallies } }
     (let e := (s.activate src cap).ceiling.entry src
      e.active = true ∧ e.cap = cap ∧ e.since = (if a.active = true then a.since else s.now) ∧
      only (s.activate src cap) ∧ (s.activate src cap).ceiling.reportDir = s.ceiling.reportDir) ∧
     (let e := (s.updateCap src cap).ceiling.entry src
      e.active = a.active ∧ e.cap = cap ∧ e.since = a.since ∧
      only (s.updateCap src cap) ∧ (s.updateCap src cap).ceiling.reportDir = s.ceiling.reportDir) ∧
     (let e := (s.deactivate src).ceiling.entry src
      e.active = false ∧ e.cap = a.cap ∧ e.since = a.since ∧
      only (s.deactivate src) ∧ (s.deactivate src).ceiling.reportDir = s.ceiling.reportDir) ∧
     s.reportHeld .neutral = s ∧
     (∀ d : Dir,
       (let t := s.reportHeld (match d with | .forward => .forward | .reverse => .reverse)
        only t ∧ t.ceiling.sameEntry s.ceiling src ∧ t.ceiling.reportDir = d)))) ∧
  (let c := State.reset.ceiling
   c.reportDir = .forward ∧ c.effective .forward = 0 ∧ c.effective .reverse = 0 ∧ c.binding .forward = .driveLoss ∧
   c.binding .reverse = .driveLoss ∧ c.urgent .forward = true ∧ c.urgent .reverse = true ∧ c.lastChange = 0 ∧
   (∀ src, (c.entry src).active = true ↔ src = .mode ∨ src = .driveLoss ∨ src = .bodyLoss))

/-- R66, R13: DRIVE_DEMAND is the drive link's; a code above 2 is UNKNOWN. A taken demand is held with its magnitude clamped
to 1000, and one above 0 leaves SERVICE; otherwise nothing else changes. -/
def Obligations.DemandIsHeld : Prop :=
  ∀ (h : Head) (dir : Byte) (magnitude : Half) (s : State), s.passes h 18 →
    (let reply := fun (c : Code) => exec (.driveDemand h dir magnitude) s = .next ((s.taken h).answered h 18 c [])
     (h.link = .body → reply .denied) ∧ (h.link = .drive → 2 < dir.toNat → reply .unknown)) ∧
    (∀ d : DriveDir, h.link = .drive → dir.toNat = (match d with | .neutral => 0 | .forward => 1 | .reverse => 2) →
      (let u := { s.taken h with gov := { s.gov with demandDir := d, demandMag := min 1000 magnitude.toNat } }
       (s.unit.mode ≠ .service ∨ magnitude = 0 →
         exec (.driveDemand h dir magnitude) s = .next (State.answered h 18 .done [] u)) ∧
       (s.unit.mode = .service → magnitude ≠ 0 →
         ∃ t : State, exec (.driveDemand h dir magnitude) s = .next (t.answered h 18 .done []) ∧
           State.LeavesService u t)))

/-- R64 to R77, R82, R7, R11, R151: a drive period expiry. The held direction is taken up at a reference of 0 with cut-seen clear; the target
is formed from the ceiling, the MODE cap and ground speed as they stood; the reference moves one ramp step; the trim and the
coil current follow, both by stall hold as the expiry finds it: a return to CLEAR at a direction change in this expiry lets
the reference rise from the next one (entry 21); the coil of the held direction alone has a setpoint above 0; a waiting range
shift switches at or below the shift speed; and a cut is released with comparator 3 CLEAR. A request that found its range set with
no settle timer running completes here, before the direction is taken up: the unit takes the range-done, which names the set
range (the awaited range beside the reached mark: entry 15; its shift state none: entry 28). Beside that completion no tally moves
and only what a change of the held direction reports is posted: CEILING_BINDING, and ALARM_GONE at the end of a raised stall. -/
def Obligations.DrivePeriodRuns : Prop :=
  ∀ (after : Nat) (s : State), reached (s.elapse after).now s.periods.drive = true →
    ∃ t : State, exec (.drivePeriodExpiry after) s = .next t ∧
      (let u := s.elapse after
       let g := s.gov
       let k := t.gov
       let set := s.settings.governor
       let p := s.program
       let dirOf := fun (d : DriveDir) => match d with
         | .neutral => (none : Option Dir) | .forward => some .forward | .reverse => some .reverse
       let ceil := (dirOf k.held).map s.ceiling.effective
       let working := s.unit.mode == .entering || s.unit.mode == .sweep || s.unit.mode == .leaving
       let up := max 1 ((if working then p.accel else set.accel) / 100)
       let stop := (dirOf k.held).map s.ceiling.urgent == some true && ceil == some k.target
       let down := max 1 ((if stop then set.stopDecel else if working then p.decel else set.decel) / 100)
       t.periods = { s.periods with drive := later s.periods.drive 10 } ∧
       k.demandDir = g.demandDir ∧ k.demandMag = g.demandMag ∧
       k.held = (if g.vRef = 0 ∧ g.cutSeen = false then g.demandDir else g.held) ∧
       k.target = (if g.cutSeen = true ∨ k.held = .neutral ∨ g.demandDir ≠ k.held then 0
         else min (g.demandMag * (s.ceiling.entry .mode).cap / 1000) (ceil.getD 0)) ∧
       (k.target ≤ g.vRef → k.vRef = g.vRef - min down (g.vRef - k.target)) ∧
       (g.vRef < k.target → k.vRef =
         (if g.stallHold = true ∨ k.settle.isSome = true ∨ ceil.getD 0 ≤ g.vRef then g.vRef
          else g.vRef + min up (k.target - g.vRef))) ∧
       k.trim = (if k.vRef = 0 then 0
         else if s.travel.slipHold.isSome = true ∨ g.stallHold = true ∨ g.cutSeen = true then g.trim
         else max (-(set.trimLimit : Int)) (min set.trimLimit
           (g.trim + ((k.vRef : Int) - s.travel.ground).tdiv set.kDiv))) ∧
       (k.coil : Int) = (if k.vRef = 0 then 0
         else max 0 (min (set.iFull : Int) ((set.iStart : Int) +
           ((k.vRef * (set.iFull - set.iStart) /
             (if k.setRange = .work then set.vFullWork else set.vFullTransport) : Nat) : Int) + k.trim))) ∧
       t.output.channels[(0 : Channel)].setpoint = (if g.cutSeen = false ∧ k.held = .forward then k.coil else 0) ∧
       t.output.channels[(1 : Channel)].setpoint = (if g.cutSeen = false ∧ k.held = .reverse then k.coil else 0) ∧
       (∀ c, ceil = some c → k.ceilingRead = c ∧ some k.urgentRead = (dirOf k.held).map s.ceiling.urgent) ∧
       (g.cutSeen = true → s.scan.comps[(3 : Fin 4)].detected = false →
         k.cutSeen = false ∧ t.output.driveCut = false) ∧
       (g.cutSeen = true → s.scan.comps[(3 : Fin 4)].detected = true →
         k.cutSeen = true ∧ t.output.driveCut = s.output.driveCut) ∧
       (g.shift = .waiting → s.travel.ground ≤ s.settings.caps.shiftSpeed → k.shift = .settling ∧
         k.setRange = g.requested.getD g.setRange ∧ k.settle = some (later t.now set.settle) ∧
         t.output.channels[(2 : Channel)].setpoint = (if k.setRange = .work then 1 else 0)) ∧
       ((g.shift = .waiting ∧ s.settings.caps.shiftSpeed < s.travel.ground) ∨ g.shift = .settling ∨
         (g.shift = .none ∧ g.requested = none) →
         k.shift = g.shift ∧ k.setRange = g.setRange ∧ k.settle = g.settle ∧ k.requested = g.requested ∧
           t.output.channels[(2 : Channel)] = s.output.channels[(2 : Channel)]) ∧
       (g.shift = .none → g.requested.isSome = true →
         k.requested = none ∧ k.shift = .none ∧ k.settle = none ∧ k.setRange = g.setRange ∧
           t.output.channels[(2 : Channel)] = s.output.channels[(2 : Channel)] ∧
           (t.ceiling.entry .rangeShift).active = false ∧ State.TakesRangeDone g.setRange u t) ∧
       (g.shift ≠ .none ∨ g.requested = none →
         (∀ ch : Channel, 3 ≤ ch.val → t.output.channels[ch] = s.output.channels[ch]) ∧ t.unit = s.unit ∧
         t.spray = s.spray ∧ (∀ src, t.ceiling.sameEntry s.ceiling src) ∧ t.bank = u.bank ∧
         (∀ (l : Link) (e : EventKind), e ≠ .alarmGone → e ≠ .ceilingBinding →
           (t.notices.events l).sameKind (s.notices.events l) e) ∧
         (k.held = g.held → t.ceiling = s.ceiling ∧ t.notices = s.notices) ∧
         (k.held ≠ g.held → ∃ r : State, State.CeilingReports u r ∧ t.ceiling = r.ceiling ∧
           ∀ l : Link, (t.notices.events l).sameKind (r.notices.events l) .ceilingBinding)) ∧
       (∀ (l : Link) (e : EventKind), e ∉ [EventKind.modeChanged, .programSwapped, .alarmGone, .ceilingBinding] →
         (t.notices.events l).sameKind (s.notices.events l) e) ∧
       (∀ l : Link, (t.notices.events l).mask = (s.notices.events l).mask) ∧
       (∀ x : Tally, x ≠ .urgentStops → x ≠ .shortfall → t.bank.tallies[x.index] = u.bank.tallies[x.index]) ∧
       t.scan = { s.scan with input3 := t.scan.input3, comps := t.scan.comps } ∧
       (k.held = g.held → t.scan = s.scan) ∧ (k.held ≠ g.held → t.scan.input3 = k.held) ∧
       (∀ d, dirOf k.held = some d → k.held ≠ g.held → t.ceiling.reportDir = d) ∧
       (k.held = g.held ∨ (s.HeldLaw ∧ s.scan.comps[(3 : Fin 4)].detected = false) →
         k.stallHold = g.stallHold ∧ k.stallTimer = g.stallTimer ∧ k.stallRaised = g.stallRaised ∧
         t.notices.alarms = s.notices.alarms ∧
         ∀ l : Link, (t.notices.events l).sameKind (s.notices.events l) .alarmGone) ∧
       (k.held ≠ g.held → s.HeldLaw → t.scan.comps = s.scan.comps.set 3 {} ∧
         (s.scan.comps[(3 : Fin 4)].detected = true →
           k.stallHold = false ∧ k.stallTimer = none ∧ k.stallRaised = false ∧
           (g.stallRaised = true → State.GoesAbsent .driveStall (Dir.detail g.stallDir) u t) ∧
           (g.stallRaised = false → t.notices.alarms = s.notices.alarms ∧
             ∀ l : Link, (t.notices.events l).sameKind (s.notices.events l) .alarmGone))) ∧
       k.stallDir = g.stallDir ∧ (g.cutSeen = false → t.output.driveCut = s.output.driveCut) ∧
       t.output.broomCut = s.output.broomCut ∧
       (∀ ch : Channel, t.output.channels[ch].fault = s.output.channels[ch].fault ∧
         t.output.channels[ch].holder = s.output.channels[ch].holder ∧
         t.output.channels[ch].level = s.output.channels[ch].level) ∧
       t = { u with
             periods := t.periods, unit := t.unit, gov := t.gov, ceiling := t.ceiling, output := t.output, spray := t.spray
             notices := t.notices, scan := t.scan, bank := { u.bank with tallies := t.bank.tallies }
             freeCount := t.freeCount })

/-- R7, R11, R28, R77, R80: the settle expiry completes the range request: request, shift state and RANGE_SHIFT end, and the unit
takes range-done only when it names the awaited range: ENTERING becomes SWEEP with the work range, LEAVING becomes TRANSPORT
with the transport range once every arm is STOWED or FAULT, and otherwise keeps the reached mark, with the awaited range still
standing, which is the model's reading (entry 15). The stall timer's expiry raises DRIVE_STALL while stall hold is set. -/
def Obligations.ShiftAndStallEnd : Prop :=
  ∀ (after : Nat) (s : State) (e : Time), reached (s.elapse after).now e = true →
    (s.gov.settle = some e →
      ∃ t : State, exec (.settleExpiry after) s = .next t ∧
        (let u := s.elapse after
         t.gov = { s.gov with requested := none, shift := .none, settle := none } ∧
         (t.ceiling.entry .rangeShift).active = false ∧ State.TakesRangeDone s.gov.setRange u t ∧
         (∀ ch : Channel, ch.val < 3 → t.output.channels[ch] = s.output.channels[ch]) ∧
         t.notices.alarms = s.notices.alarms ∧
         (∀ (l : Link) (k : EventKind), k ∉ [EventKind.modeChanged, .programSwapped, .ceilingBinding] →
           (t.notices.events l).sameKind (s.notices.events l) k) ∧
         (∀ l : Link, (t.notices.events l).mask = (s.notices.events l).mask) ∧
         (∀ x : Tally, x ≠ .urgentStops → x ≠ .shortfall → t.bank.tallies[x.index] = u.bank.tallies[x.index]) ∧
         t = { u with
               unit := t.unit, gov := t.gov, ceiling := t.ceiling, notices := t.notices, spray := t.spray
               output := { s.output with channels := t.output.channels }
               bank := { u.bank with tallies := t.bank.tallies } })) ∧
    (s.gov.stallTimer = some e →
      ∃ t : State, exec (.stallTimerExpiry after) s = .next t ∧
        (s.gov.stallHold = true →
          State.Raises .driveStall (match s.gov.stallDir with | .forward => 0 | .reverse => 1) (s.elapse after) t ∧
          t = { s.elapse after with
                gov := { s.gov with stallTimer := none, stallRaised := true }, notices := t.notices, bank := t.bank }) ∧
        (s.gov.stallHold = false →
          t = { s.elapse after with gov := { s.gov with stallTimer := none } }))

/-! ### Alarms, events and tallies -/

/-- R193, R196: CLEAR_ALARM answers UNKNOWN, NOT_ACTIVE or ACTIVE, or removes the one entry with its key. ACK_EVENTS clears
the flags and counts of its kinds in the requesting link's set, and SET_EVENT_MASK replaces that link's mask. Nothing else
changes. -/
def Obligations.NoticesAreHandled : Prop :=
  ∀ (h : Head) (code detail : Byte) (kinds : Half) (s : State),
    (s.passes h 29 →
      (let reply := fun (c : Code) => exec (.clearAlarm h code detail) s = .next ((s.taken h).answered h 29 c [])
       let keyed := fun (a : Alarm) => a.code.number = code.toNat ∧ a.detail = detail.toNat
       (code.toNat = 0 ∨ 13 < code.toNat → reply .unknown) ∧
       (1 ≤ code.toNat → code.toNat ≤ 13 → (∀ a ∈ s.notices.alarms, ¬keyed a) → reply .notActive) ∧
       (∀ (l r : List Alarm) (a : Alarm), 1 ≤ code.toNat → code.toNat ≤ 13 → s.notices.alarms = l ++ a :: r →
         keyed a → (∀ x ∈ l, ¬keyed x) →
         (a.present = true → reply .active) ∧
         (a.present = false → ∃ t : State, exec (.clearAlarm h code detail) s = .next (t.answered h 29 .done []) ∧
           t = { s.taken h with notices := { (s.taken h).notices with alarms := l ++ r } })))) ∧
    (s.passes h 31 →
      ∃ t : State, exec (.ackEvents h kinds) s = .next (t.answered h 31 .done []) ∧
        (let u := (s.taken h).notices.events h.link
         let v := t.notices.events h.link
         (∀ k : Fin 16,
           v.pending.getLsbD k = (u.pending.getLsbD k && !kinds.getLsbD k) ∧
           v.counts[k] = if kinds.getLsbD k then 0 else u.counts[k]) ∧
         v.mask = u.mask) ∧
        t.notices.events h.link.other = (s.taken h).notices.events h.link.other ∧
        t.notices.alarms = s.notices.alarms ∧ t = { s.taken h with notices := t.notices }) ∧
    (s.passes h 32 →
      ∃ t : State, exec (.setEventMask h kinds) s = .next (t.answered h 32 .done []) ∧
        t.notices.events h.link = { (s.taken h).notices.events h.link with mask := kinds } ∧
        t.notices.events h.link.other = (s.taken h).notices.events h.link.other ∧
        t.notices.alarms = s.notices.alarms ∧ t = { s.taken h with notices := t.notices })

/-- R197, R198: TAKE_SNAPSHOT copies the tallies into the requesting link's record with the time and the clear flag, posts
SNAPSHOT_TAKEN to that link alone, and with the clear flag sets every tally to 0 and posts TALLIES_CLEARED to both links; a
flag above 1 is UNKNOWN. The remainders, the swept tick counts and the masks stand. Each full second of the sweep time
remainder counts one second of sweep time; that the remainder grows before a command by the milliseconds since the one before,
and that it may stand above a second until SWEEP_SECOND is taken, are the model's choices (entries 1 and 32). -/
def Obligations.TalliesAreKept : Prop :=
  (∀ (h : Head) (clear : Byte) (s : State), s.passes h 33 →
    (1 < clear.toNat → exec (.takeSnapshot h clear) s = .next ((s.taken h).answered h 33 .unknown [])) ∧
    (clear.toNat ≤ 1 →
      ∃ t : State, exec (.takeSnapshot h clear) s = .next (t.answered h 33 .done []) ∧
        t.bank.snap h.link = ⟨(s.taken h).bank.tallies, t.now, clear.toNat⟩ ∧
        t.bank.snap h.link.other = s.bank.snap h.link.other ∧
        t.bank = { (s.taken h).bank with
          tallies := if clear = 1 then Vector.replicate 19 0 else (s.taken h).bank.tallies
          snapDrive := t.bank.snapDrive, snapBody := t.bank.snapBody } ∧
        (t.notices.events h.link).pending.getLsbD 15 = true ∧
        (t.notices.events h.link).counts[15] = min 15 (((s.taken h).notices.events h.link).counts[15] + 1) ∧
        (clear = 1 → (s.taken h).postedOnce .talliesCleared t) ∧
        (∀ l : Link, (t.notices.events l).mask = (s.notices.events l).mask) ∧
        (∀ (l : Link) (k : EventKind), k ≠ .talliesCleared → (k ≠ .snapshotTaken ∨ l ≠ h.link) →
          (t.notices.events l).sameKind ((s.taken h).notices.events l) k) ∧
        (clear = 0 → ∀ l : Link,
          (t.notices.events l).sameKind ((s.taken h).notices.events l) .talliesCleared) ∧
        t.notices.alarms = s.notices.alarms ∧ t = { s.taken h with bank := t.bank, notices := t.notices })) ∧
  (∀ (after : Nat) (s : State),
    (let u := s.elapse after
     (1000 ≤ u.bank.sweepRem → exec (.sweepSecond after) s = .next
       { u with bank := { u.bank with
          sweepRem := u.bank.sweepRem - 1000
          tallies := u.bank.tallies.set 16 (min 16777215 (u.bank.tallies[16] + 1)) } }) ∧
     u.bank.sweepRem = (if s.unit.mode = .sweep then s.bank.sweepRem + (s.clock.frac + after) / 1000
       else s.bank.sweepRem)))

/-! ### Brush arms and main broom -/

/-- R93, R94, R95, R88: ARM_LOWER, by the table of its conditions, and the end of a lowering, at which the arm works, or, for
a side arm whose comparator stands DETECTED, takes a strike. -/
def Obligations.ArmsAreLowered : Prop :=
  (∀ (h : Head) (n : Byte) (s : State), s.passes h 19 →
    (let reply := fun (c : Code) => exec (.armLower h n) s = .next ((s.taken h).answered h 19 c [])
     (h.link = .drive → reply .denied) ∧ (h.link = .body → 2 < n.toNat → reply .unknown) ∧
     (∀ a : Arm, h.link = .body → n.toNat = a.number →
       (s.unit.mode ≠ .sweep → reply .state) ∧
       (s.unit.mode = .sweep → a = .main → s.arms.lock = true → reply .state) ∧
       (s.unit.mode = .sweep → ¬(a = .main ∧ s.arms.lock = true) →
         ((s.arm a).state = .stowed → (s.arm a).pending = true → reply .accepted) ∧
         ((s.arm a).state = .lowering ∨ (s.arm a).state = .working ∨ (s.arm a).state = .yielding ∨
           (s.arm a).state = .jammed → reply .done) ∧
         ((s.arm a).state = .raising ∨ (s.arm a).state = .fault → reply .state) ∧
         ((s.arm a).state = .stowed → (s.arm a).pending = false → s.travel.ground ≤ s.settings.caps.armMove →
           ∃ t : State, exec (.armLower h n) s = .next (t.answered h 19 .accepted []) ∧
             State.MovesArm a (s.taken h) t ∧
             t.arm a = { s.arm a with
               state := .lowering, phase := none, pending := false
               timer := some (later t.now s.program.lowerTime), rot := (t.arm a).rot, force := (t.arm a).force }) ∧
         ((s.arm a).state = .stowed → (s.arm a).pending = false → s.settings.caps.armMove < s.travel.ground →
           ∃ t : State, exec (.armLower h n) s = .next (t.answered h 19 .accepted []) ∧
             t.arm a = { s.arm a with pending := true } ∧ (∀ b, b ≠ a → t.arm b = s.arm b) ∧ t.armEntriesJudged ∧
             State.SettlesTo [.armTransition, .armYield, .reverseArms] [.armState] []
               { s.taken h with arms := t.arms } t))))) ∧
  (∀ (after : Nat) (a : Arm) (s : State) (e : Time),
    (s.arm a).state = .lowering → (s.arm a).phase = none → (s.arm a).timer = some e →
    reached (s.elapse after).now e = true →
    ∃ t : State, exec (.lowerExpiry after a) s = .next t ∧
      (let w := fun (v : State) => State.MovesArm a (s.elapse after) v ∧
        v.arm a = { s.arm a with state := .working, timer := none, rot := (v.arm a).rot, force := (v.arm a).force }
       (a = .main ∨ s.scan.comps[a.comparator].detected = false → w t) ∧
       (∀ b : SideArm, a = b.arm → s.scan.comps[a.comparator].detected = true → ∃ v : State, w v ∧ State.Strikes b v t)))

/-- R96 to R99, R10, R11: ARM_RAISE and the end of a raising, and ARM_CLEAR. A raise starts with the full raise time from
every moving or working state; in LEAVING the arm that reaches STOWED last brings the request for the transport range, or with
the range already reached the return to TRANSPORT. An arm is cleared from FAULT once none of its channels is in FAULT. A raise
of the main broom clears its hold-done flag, also from WORKING and LOWERING, which is the model's reading (entry 39). -/
def Obligations.ArmsAreRaised : Prop :=
  (∀ (h : Head) (n : Byte) (s : State),
    (s.passes h 20 →
      (let reply := fun (c : Code) => exec (.armRaise h n) s = .next ((s.taken h).answered h 20 c [])
       (h.link = .drive → reply .denied) ∧ (h.link = .body → 2 < n.toNat → reply .unknown) ∧
       (∀ a : Arm, h.link = .body → n.toNat = a.number →
         ((s.arm a).state = .fault → reply .state) ∧
         ((s.arm a).state = .raising ∨ ((s.arm a).state = .stowed ∧ (s.arm a).pending = false) → reply .done) ∧
         ((s.arm a).state = .stowed → (s.arm a).pending = true →
           ∃ t : State, exec (.armRaise h n) s = .next (t.answered h 20 .done []) ∧ t.told .armState ∧
             t.arm a = { s.arm a with pending := false } ∧ (∀ b, b ≠ a → t.arm b = s.arm b) ∧ t.armEntriesJudged ∧
             (s.unit.mode ≠ .leaving → State.SettlesTo [.armTransition, .armYield, .reverseArms] [.armState] []
               { s.taken h with arms := t.arms } t)) ∧
         ((s.arm a).state = .lowering ∨ (s.arm a).state = .working ∨ (s.arm a).state = .yielding ∨
           (s.arm a).state = .jammed →
           ∃ t : State, exec (.armRaise h n) s = .next (t.answered h 20 .accepted []) ∧
             State.MovesArm a { s.taken h with arms := { s.arms with
               holdDone := if a = .main then false else s.arms.holdDone } } t ∧
             t.arm a = { s.arm a with
               state := .raising, phase := none, pending := false
               timer := some (later t.now s.program.raiseTime), rot := 0, force := (t.arm a).force })))) ∧
    (s.passes h 21 →
      (let reply := fun (c : Code) => exec (.armClear h n) s = .next ((s.taken h).answered h 21 c [])
       (h.link = .drive → reply .denied) ∧ (h.link = .body → 2 < n.toNat → reply .unknown) ∧
       (∀ a : Arm, h.link = .body → n.toNat = a.number →
         ((s.arm a).state ≠ .fault → reply .state) ∧
         ((s.arm a).state = .fault →
           (∃ ch : Channel, armOfChannel ch = some a ∧ s.output.channels[ch].fault ≠ .none) → reply .state) ∧
         ((s.arm a).state = .fault →
           (∀ ch : Channel, armOfChannel ch = some a → s.output.channels[ch].fault = .none) →
           ∃ v t : State, exec (.armClear h n) s = .next (t.answered h 21 (if s.unit.mode.working then .accepted else .done) []) ∧
             (s.unit.mode.working = true → State.MovesArm a { s.taken h with arms := { s.arms with
               holdDone := if a = .main then false else s.arms.holdDone } } v ∧
               (v.arm a).state = .raising ∧ (v.arm a).timer = some (later t.now s.program.raiseTime)) ∧
             (s.unit.mode.working = false → State.MovesArm a (s.taken h) v ∧
               (v.arm a).state = .stowed ∧ (v.arm a).timer = none) ∧
             State.GoesAbsent .armFault a.number v t ∧ t = { v with notices := t.notices }))))) ∧
  (∀ (after : Nat) (a : Arm) (s : State) (e : Time),
    (s.arm a).state = .raising → (s.arm a).phase = none → (s.arm a).timer = some e →
    reached (s.elapse after).now e = true →
    ∃ t : State, exec (.raiseExpiry after a) s = .next t ∧ State.MovesArm a (s.elapse after) t ∧
      t.arm a = { s.arm a with state := .stowed, timer := none, rot := 0, force := (t.arm a).force } ∧
      (s.unit.mode = .leaving → (∀ b, b ≠ a → (s.arm b).state = .stowed ∨ (s.arm b).state = .fault) →
        (s.unit.reached = true → t.unit.mode = .transport ∧ t.unit.swap = none) ∧
        (s.unit.reached = false → s.unit.requested = false →
          t.unit = { s.unit with requested := true, awaited := some .transport } ∧
          t.gov.requested = some .transport ∧ (t.ceiling.entry .rangeShift).active = true)))

/-- R103, R88: the lift phase of a yield passes to the settle phase with its coils and its time and posts nothing; the settle
phase ends in WORKING with the comparator CLEAR, and starts again with it DETECTED. -/
def Obligations.YieldsEnd : Prop :=
  ∀ (after : Nat) (b : SideArm) (s : State) (e : Time),
    (s.arm b.arm).state = .yielding → (s.arm b.arm).timer = some e → reached (s.elapse after).now e = true →
    ((s.arm b.arm).phase = some .lift →
      ∃ t : State, exec (.yieldLiftExpiry after b) s = .next t ∧
        t.arm b.arm = { s.arm b.arm with
          phase := some .settle, timer := some (later t.now s.settings.arms.yieldSettle)
          rot := (t.arm b.arm).rot, force := 0 } ∧
        t.armPosted b.arm ∧ (∀ a, a ≠ b.arm → t.arm a = s.arm a) ∧
        (∀ ch : Channel, armOfChannel ch ≠ some b.arm → t.output.channels[ch] = s.output.channels[ch]) ∧
        t = { s.elapse after with arms := t.arms, output := t.output }) ∧
    ((s.arm b.arm).phase = some .settle →
      (s.scan.comps[b.arm.comparator].detected = true →
        ∃ t : State, exec (.yieldSettleExpiry after b) s = .next t ∧
          t.arm b.arm = { s.arm b.arm with timer := some (later t.now s.settings.arms.yieldSettle) } ∧
          (∀ a, a ≠ b.arm → t.arm a = s.arm a) ∧ t = { s.elapse after with arms := t.arms }) ∧
      (s.scan.comps[b.arm.comparator].detected = false →
        ∃ t : State, exec (.yieldSettleExpiry after b) s = .next t ∧ State.MovesArm b.arm (s.elapse after) t ∧
          t.arm b.arm = { s.arm b.arm with
            state := .working, phase := none, timer := none
            rot := (t.arm b.arm).rot, force := (t.arm b.arm).force }))

/-- R107, R109, R105: BROOM_CLEAR_JAM, by the table of its conditions, and the end of the jam hold. A locked broom returns to
WORKING with its lock and its cut cleared; a held broom returns at the end of the hold if its comparator is CLEAR and no cut
stands, and otherwise waits with hold-done set. A broom that returns keeps hold-done set, which is the model's reading
(entries 39 and 42). -/
def Obligations.BroomIsFreed : Prop :=
  (∀ (h : Head) (s : State), s.passes h 22 →
    (let reply := fun (c : Code) => exec (.broomClearJam h) s = .next ((s.taken h).answered h 22 c [])
     (h.link = .drive → reply .denied) ∧ (h.link = .body → s.arms.lock = false → reply .notActive) ∧
     (h.link = .body → s.arms.lock = true → s.arms.main.state = .jammed →
       s.scan.comps[(2 : Fin 4)].detected = true → reply .state) ∧
     (h.link = .body → s.arms.lock = true → s.arms.main.state ≠ .jammed →
       ∃ t : State, exec (.broomClearJam h) s = .next (t.answered h 22 .done []) ∧
         State.GoesAbsent .jamRepeat 2 (s.taken h) t ∧
         t = { s.taken h with arms := { s.arms with lock := false }, notices := t.notices }) ∧
     (h.link = .body → s.arms.lock = true → s.arms.main.state = .jammed →
       s.scan.comps[(2 : Fin 4)].detected = false →
       ∃ v t : State, exec (.broomClearJam h) s = .next (t.answered h 22 .done []) ∧
         State.GoesAbsent .jamRepeat 2 (s.taken h) v ∧ State.MovesArm .main v t ∧
         v.arms = { s.arms with lock := false, cutSeen := false } ∧
         v.output.broomCut = (s.output.broomCut && !s.arms.cutSeen) ∧
         v = { s.taken h with arms := v.arms, output := v.output, notices := v.notices } ∧
         (∀ ch : Channel, ch ≠ 13 → v.output.channels[ch] = s.output.channels[ch]) ∧
         v.output.channels[(13 : Channel)].setpoint = s.output.channels[(13 : Channel)].setpoint ∧
         t.arms.main = { s.arms.main with state := .working, phase := none, timer := none
                                          rot := t.arms.main.rot }))) ∧
  (∀ (after : Nat) (s : State) (e : Time),
    s.arms.main.state = .jammed → s.arms.main.phase = none → s.arms.main.timer = some e →
    reached (s.elapse after).now e = true →
    (let u := { s.elapse after with arms := { s.arms with holdDone := true, main := { s.arms.main with timer := none } } }
     (s.scan.comps[(2 : Fin 4)].detected = true ∨ s.arms.cutSeen = true → exec (.jamHoldExpiry after) s = .next u) ∧
     (s.scan.comps[(2 : Fin 4)].detected = false → s.arms.cutSeen = false →
       ∃ t : State, exec (.jamHoldExpiry after) s = .next t ∧ State.MovesArm .main u t ∧
         t.arms.main = { s.arms.main with state := .working, phase := none, timer := none, rot := t.arms.main.rot })))

/-- R88 to R91, R94, R105, R107, R110, R111, R117: an arm period expiry. A stowed arm with its mark enters LOWERING in SWEEP at or
below the arm move cap; the rotation of every turning arm, which for the broom is 0 while its cut-seen flag is set, and the force
of every pressed side arm are posted again; a cut of the broom with comparator 2 CLEAR is released after those posts, so that
its motor turns again from the next expiry; a held broom whose hold is done returns to WORKING where no cut stood before the
expiry (entry 20), with hold-done still set, which is the model's reading (entry 39). With an arm moved the arm entries and the
bars are judged; with none, no entry, event, tally or bar changes. The rotation is the value of the brush curve at ground speed:
constant outside its points, truncated on each segment, and reduced while dry rotation applies. -/
def Obligations.ArmPeriodRuns : Prop :=
  (∀ (after : Nat) (s : State), reached (s.elapse after).now s.periods.arm = true →
    ∃ t : State, exec (.armPeriodExpiry after) s = .next t ∧
      t.periods = { s.periods with arm := later s.periods.arm 20 } ∧
      (let u := s.elapse after
       let dry := decide (s.spray.tank = .empty) || s.spray.latch
       let lowers := fun (a : Arm) => (s.arm a).state = .stowed ∧ (s.arm a).pending = true ∧ s.unit.mode = .sweep ∧
         s.travel.ground ≤ s.settings.caps.armMove
       let works := s.arms.main.state = .jammed ∧ s.arms.lock = false ∧ s.arms.holdDone = true ∧
         s.scan.comps[(2 : Fin 4)].detected = false ∧ s.arms.cutSeen = false
       t.arms.dryApplied = dry ∧
       (∀ a, lowers a → (t.arm a).state = .lowering ∧ (t.arm a).pending = false ∧
         (t.arm a).timer = some (later t.now s.program.lowerTime) ∧ t.told .armState) ∧
       (∀ a, ¬lowers a → ¬(a = .main ∧ works) →
         t.arm a = { s.arm a with rot := (t.arm a).rot, force := (t.arm a).force }) ∧
       (works → t.arms.main.state = .working ∧ t.arms.main.timer = none ∧ t.armPosted .main ∧ t.told .armState) ∧
       (∀ b : SideArm,
         (let v := s.program.side.at s.travel.ground
          let set := fun (ch : Channel) => t.output.channels[ch].setpoint
          let st := (t.arm b.arm).state
          let rot := if dry then v * s.program.dryFrac / 1000 else v
          (st = .lowering ∨ st = .working ∨ st = .yielding → set b.arm.motor = rot ∧ (t.arm b.arm).rot = rot) ∧
          (st = .lowering ∨ st = .working → (t.arm b.arm).force = s.program.forceOf b.arm ∧
            ∀ ch, b.arm.force = some ch → set ch = s.program.forceOf b.arm))) ∧
       ((t.arm .main).state ∈ [ArmState.lowering, .working, .yielding] →
         (let v := s.program.main.at s.travel.ground
          let rot := if s.arms.cutSeen = true then 0 else if dry then v * s.program.dryFrac / 1000 else v
          t.output.channels[(13 : Channel)].setpoint = rot ∧ t.arms.main.rot = rot)) ∧
       ((t.arm .main).state ∉ [ArmState.lowering, .working, .yielding] →
         t.output.channels[(13 : Channel)].setpoint = s.output.channels[(13 : Channel)].setpoint ∧
         t.arms.main.rot = s.arms.main.rot) ∧
       (∀ (a : Arm) (ch : Channel), armOfChannel ch = some a → ¬lowers a → ¬(a = .main ∧ works) →
         (ch = a.lift ∨ ch = a.lower → t.output.channels[ch] = s.output.channels[ch]) ∧
         ((s.arm a).state ∉ [ArmState.lowering, .working, .yielding] → a ≠ .main →
           t.output.channels[ch] = s.output.channels[ch] ∧ t.arm a = s.arm a)) ∧
       (let moved := works ∨ ∃ a, lowers a
        (moved → t.armEntriesJudged ∧ t.barsJudged ∧ State.barsSettled u t) ∧
        (¬moved → t.ceiling = s.ceiling ∧ t.spray = s.spray ∧ t.notices = s.notices ∧ t.bank = u.bank ∧
          ∀ ch : Channel, 14 ≤ ch.val → t.output.channels[ch] = s.output.channels[ch])) ∧
       (∀ src : Source, src ∉ [Source.armTransition, .armYield, .reverseArms, .sprayLimit, .drySweep] →
         t.ceiling.sameEntry s.ceiling src) ∧
       t.spray = { s.spray with
         left := t.spray.left, right := t.spray.right, main := t.spray.main, duty := t.spray.duty
         dryCount := t.spray.dryCount } ∧
       (∀ (l : Link) (k : EventKind), k ≠ .armState → k ≠ .ceilingBinding →
         (t.notices.events l).sameKind (s.notices.events l) k) ∧
       (∀ l : Link, (t.notices.events l).mask = (s.notices.events l).mask) ∧
       (∀ x : Tally, x ≠ .urgentStops → t.bank.tallies[x.index] = u.bank.tallies[x.index]) ∧
       (∀ ch : Channel, t.output.channels[ch].fault = s.output.channels[ch].fault ∧
         t.output.channels[ch].holder = s.output.channels[ch].holder ∧
         t.output.channels[ch].level = s.output.channels[ch].level) ∧ t.output.driveCut = s.output.driveCut ∧
       (s.arms.cutSeen = true → s.scan.comps[(2 : Fin 4)].detected = false →
         t.arms.cutSeen = false ∧ t.output.broomCut = false) ∧
       (s.arms.cutSeen = false ∨ s.scan.comps[(2 : Fin 4)].detected = true →
         t.arms.cutSeen = s.arms.cutSeen ∧ t.output.broomCut = s.output.broomCut) ∧
       t.arms.lock = s.arms.lock ∧ t.arms.holdDone = s.arms.holdDone ∧
       (∀ ch : Channel, ch.val < 3 → t.output.channels[ch] = s.output.channels[ch]) ∧
       t.notices.alarms = s.notices.alarms ∧
       t = { u with
             periods := t.periods, arms := t.arms, output := t.output, ceiling := t.ceiling, spray := t.spray
             notices := t.notices, bank := { u.bank with tallies := t.bank.tallies } })) ∧
  (∀ (c : Curve) (v : Nat), 2 ≤ c.count → c.count ≤ 6 → c.Rising →
    (v ≤ c.points[0].speed → c.at v = c.points[0].rot) ∧
    (∀ (k : Nat) (hk : k < 6), k + 1 = c.count → c.points[k].speed ≤ v → c.at v = c.points[k].rot) ∧
    (∀ (k : Nat) (hk : k + 1 < 6), k + 1 < c.count → c.points[k].speed ≤ v → v < c.points[k + 1].speed →
      (c.at v : Int) = c.points[k].rot + (((v : Int) - c.points[k].speed) *
        ((c.points[k + 1].rot : Int) - c.points[k].rot)).tdiv ((c.points[k + 1].speed : Int) - c.points[k].speed)))

/-! ### Water spraying -/

/-- R117 to R119, R130, R132, R133: SPRAY_ENABLE and CLEAR_SPRAY_FAULT are the body link's. A taken enable takes its value,
and a taken clear clears the pump-dry latch with its alarm; the bars are then judged, the pump with them, and the two entries.
-/
def Obligations.SprayRequestsTaken : Prop :=
  ∀ (h : Head) (n on : Byte) (s : State),
    (s.passes h 23 →
      (let reply := fun (c : Code) => exec (.sprayEnable h n on) s = .next ((s.taken h).answered h 23 c [])
       (h.link = .drive → reply .denied) ∧ (h.link = .body → 2 < n.toNat ∨ 1 < on.toNat → reply .unknown)) ∧
      (∀ b : Bar, h.link = .body → n.toNat = (match b with | .left => 0 | .right => 1 | .main => 2) → on.toNat ≤ 1 →
        ∃ u t : State, exec (.sprayEnable h n on) s = .next (t.answered h 23 .done []) ∧
          (u.spray.bar b) = { s.spray.bar b with enable := on.toNat == 1 } ∧
          (∀ k, k ≠ b → u.spray.bar k = s.spray.bar k) ∧
          u = { s.taken h with spray := { s.spray with
                left := u.spray.left, right := u.spray.right, main := u.spray.main } } ∧
          State.SettlesTo [] [] [] u t ∧ State.barsSettled u t ∧ t.barsJudged)) ∧
    (s.passes h 24 →
      (let reply := fun (c : Code) => exec (.clearSprayFault h) s = .next ((s.taken h).answered h 24 c [])
       (h.link = .drive → reply .denied) ∧ (h.link = .body → s.spray.latch = false → reply .notActive) ∧
       (h.link = .body → s.spray.latch = true → s.output.channels[(14 : Channel)].fault ≠ .none → reply .state)) ∧
      (h.link = .body → s.spray.latch = true → s.output.channels[(14 : Channel)].fault = .none →
        ∃ u t : State, exec (.clearSprayFault h) s = .next (t.answered h 24 .done []) ∧
          State.GoesAbsent .pumpDry 0 (s.taken h) u ∧
          u = { s.taken h with spray := { s.spray with latch := false }, notices := u.notices } ∧
          State.SettlesTo [] [] [] u t ∧ State.barsSettled u t ∧ t.barsJudged))

/-- R126, R130 to R132: a spray pump period expiry with a bar active steps the duty by the pressure, holds it to 100 to 1000,
posts it, and counts the dry expiries, of which the 30th in a row sets the pump-dry latch; with no bar active it does nothing.
A pulse end closes its valve. -/
def Obligations.SprayTimersAct : Prop :=
  ∀ (after : Nat) (s : State),
    (let u := s.elapse after
     (reached u.now s.periods.pump = true →
       (let v := { u with periods := { s.periods with pump := later s.periods.pump 100 } }
        (s.spray.anyActive = false → exec (.sprayPumpPeriodExpiry after) s = .next v) ∧
        (s.spray.anyActive = true →
          (let r := s.scan.results[(5 : Fin 9)]
           let set := s.settings.spray
           let stepped := if r.stale = true then s.spray.duty
             else if r.value < (set.setpoint : Int) - set.band then s.spray.duty + set.dutyStep
             else if (set.setpoint : Int) + set.band < r.value then s.spray.duty - set.dutyStep
             else s.spray.duty
           let duty := max 100 (min 1000 stepped)
           let dry := if r.stale = true then s.spray.dryCount
             else if duty = 1000 ∧ r.value < (set.dry : Int) then s.spray.dryCount + 1 else 0
           ∃ t : State, exec (.sprayPumpPeriodExpiry after) s = .next t ∧
             (dry < 30 →
               t.spray = { s.spray with duty := duty, dryCount := dry, pressure := t.spray.pressure } ∧
               t.output.channels[(14 : Channel)].setpoint = duty ∧
               (∀ ch : Channel, ch ≠ 14 → t.output.channels[ch] = s.output.channels[ch]) ∧
               t = { v with spray := t.spray, output := t.output }) ∧
             (30 ≤ dry → s.spray.latch = false →
               t.spray.latch = true ∧ (∀ b : Bar, (t.spray.bar b).active = false) ∧ t.spray.duty = 0 ∧
               t.spray.dryCount = 0 ∧ t.output.channels[(14 : Channel)].setpoint = 0 ∧
               (t.ceiling.entry .drySweep).active = decide (s.unit.mode = .sweep) ∧
               State.Raises .pumpDry 0 u t ∧ t.unit = s.unit ∧ t.gov = s.gov ∧ t.arms = s.arms))))) ∧
     (∀ (b : Bar) (e : Time), (s.spray.bar b).pulseEnd = some e → reached u.now e = true →
       ∃ t : State, exec (.pulseEnd after b) s = .next t ∧ t.spray.bar b = { s.spray.bar b with pulseEnd := none } ∧
         (∀ k, k ≠ b → t.spray.bar k = s.spray.bar k) ∧ t.output.channels[b.valve].setpoint = 0 ∧
         (∀ ch : Channel, ch ≠ b.valve → t.output.channels[ch] = s.output.channels[ch]) ∧
         t = { u with output := t.output, spray := { s.spray with
               left := t.spray.left, right := t.spray.right, main := t.spray.main } }))

/-! ### Valve output channels -/

/-- R165, R167, R168: CLEAR_CHANNEL_FAULT, by the table of its conditions, and the expiry of an open timer, at 200 ms for a
PROP channel and 10 ms for a PULSE channel, which puts its channel in FAULT. A cleared channel takes CUT or the state its
setpoint gives, its alarm's condition goes absent, and the owner is told. -/
def Obligations.ChannelFaultsComeAndGo : Prop :=
  (∀ (h : Head) (n : Byte) (s : State), s.passes h 25 →
    (let reply := fun (c : Code) => exec (.clearChannelFault h n) s = .next ((s.taken h).answered h 25 c [])
     (17 < n.toNat → reply .unknown) ∧
     (∀ ch : Channel, n.toNat = ch.val →
       (let mine := h.link = (if ch.val ≤ 2 then .drive else .body)
        let c := s.output.channels[ch]
        (¬mine → reply .denied) ∧ (mine → c.fault = .none → reply .notActive) ∧
        (mine → c.fault ≠ .none → 0 < c.setpoint → reply .state) ∧
        (mine → c.fault ≠ .none → c.setpoint = 0 →
          ∃ t : State, exec (.clearChannelFault h n) s = .next (t.answered h 25 .done []) ∧
            t.output.channels[ch].fault = .none ∧ t.output.channels[ch].setpoint = 0 ∧
            (c.holder = none → t.output.stateOf ch = (if t.output.cutFlag ch then .cut else .off) ∧
              t.output.commanded ch = 0) ∧
            State.GoesAbsent (match c.fault with | .shortLoad => .channelShort | _ => .channelOpen) ch.val (s.taken h) t ∧
            (∀ k : Channel, k ≠ ch → k.val < 14 → t.output.channels[k] = s.output.channels[k]) ∧
            ((t.ceiling.entry .driveFault).active = true ↔ (s.ceiling.entry .driveFault).active = true ∧
              (ch.val ≤ 2 → ∃ k : Channel, k.val ≤ 2 ∧ t.output.channels[k].fault ≠ .none)) ∧
            (∀ b : Bar, ch = b.valve → (t.spray.bar b).valveFault = false ∧ t.barsJudged) ∧
            (ch.val < 15 → t.spray = s.spray) ∧ t.arms = s.arms ∧
            t = { s.taken h with
                  output := t.output, notices := t.notices, ceiling := t.ceiling, spray := t.spray
                  bank := { (s.taken h).bank with tallies := t.bank.tallies } }))))) ∧
  (∀ (after : Nat) (ch : Channel) (s : State) (e : Micros), s.output.channels[ch].openSince = some e →
    (if 15 ≤ ch.val then 10000 else 200000) ≤ since (s.elapse after).nowUs e →
    ∃ t : State, exec (.openTimerExpiry after ch) s = .next t ∧ State.EntersFault ch .openLoad (s.elapse after) t)

/-- R159, R160, R163 to R165, R171, R172: DIRECT_DRIVE and DIRECT_RELEASE, by the order of their checks. A taken drive makes
the link the holder with the level clamped to the kind's range, which is the channel's target; a taken release returns the
channel to its owner's setpoint, with the target formed from it. The carrier of a PROP channel follows its target, and the
open timer stops where a PULSE valve closes or the channel leaves DRIVEN and DIRECT. The rest of the channel's record, every
other channel, the two cut latches and everything beyond the Output Stage stand. -/
def Obligations.ChannelsAreHeld : Prop :=
  ∀ (h : Head) (n : Byte) (level : Half) (s : State),
    (s.passes h 26 →
      (let reply := fun (c : Code) => exec (.directDrive h n level) s = .next ((s.taken h).answered h 26 c [])
       (17 < n.toNat → reply .unknown) ∧
       (∀ ch : Channel, n.toNat = ch.val →
         (let c := s.output.channels[ch]
          let v := if ch.val = 14 then min 1000 level.toNat
            else if ch ∈ ([5, 6, 9, 10, 13] : List Channel) then min 2000 level.toNat else min 1 level.toNat
          let blocked := 0 < v ∧ ∃ k : Channel, (ch, k) ∈ ([(3, 4), (4, 3), (7, 8), (8, 7), (11, 12), (12, 11)] :
            List (Channel × Channel)) ∧ 0 < s.output.commanded k
          (ch.val < 2 → reply .denied) ∧
          (2 ≤ ch.val → s.unit.mode ≠ .service → reply .state) ∧
          (2 ≤ ch.val → s.unit.mode = .service →
            (c.holder = some h.link.other → reply .held) ∧
            (c.holder ≠ some h.link.other →
              (c.fault ≠ .none ∨ s.output.cutFlag ch = true → reply .state) ∧
              (c.fault = .none → s.output.cutFlag ch = false → blocked → reply .state) ∧
              (c.fault = .none → s.output.cutFlag ch = false → ¬blocked →
                ∃ t : State, exec (.directDrive h n level) s = .next (t.answered h 26 .done []) ∧
                  (let d := t.output.channels[ch]
                   d = { c with
                     holder := some h.link, level := v, target := v, carrier := d.carrier
                     openSince := if 15 ≤ ch.val ∧ v = 0 then none else c.openSince } ∧
                   (isPropChannel ch = true → Carrier.Follows v c.carrier d.carrier) ∧
                   (isPropChannel ch = false → d.carrier = c.carrier)) ∧
                  t.output.stateOf ch = .direct ∧ (v = 0 → t.output.commanded ch = 0) ∧
                  (¬isPropChannel ch → t.output.commanded ch = v) ∧
                  (∀ k : Channel, k ≠ ch → t.output.channels[k] = s.output.channels[k]) ∧
                  t = { s.taken h with output := { s.output with channels := t.output.channels } }))))))) ∧
    (s.passes h 27 →
      (let reply := fun (c : Code) => exec (.directRelease h n) s = .next ((s.taken h).answered h 27 c [])
       (17 < n.toNat → reply .unknown) ∧
       (∀ ch : Channel, n.toNat = ch.val →
         (let c := s.output.channels[ch]
          let runs := c.fault = .none ∧ s.output.cutFlag ch = false ∧ 0 < c.setpoint
          let range := s.settings.ranges[ch]
          let v := if ¬runs then 0
            else if isPropChannel ch = true ∧ 2 ≤ ch.val then range.low + c.setpoint * (range.high - range.low) / 1000
            else c.setpoint
          (ch.val < 2 → reply .denied) ∧
          (2 ≤ ch.val → c.holder = none → reply .notActive) ∧
          (2 ≤ ch.val → c.holder = some h.link.other → reply .held) ∧
          (2 ≤ ch.val → c.holder = some h.link →
            ∃ t : State, exec (.directRelease h n) s = .next (t.answered h 27 .done []) ∧
              (let d := t.output.channels[ch]
               d = { c with
                 holder := none, level := 0, target := v, carrier := d.carrier
                 openSince := if runs then c.openSince else none } ∧
               (isPropChannel ch = true → Carrier.Follows v c.carrier d.carrier) ∧
               (isPropChannel ch = false → d.carrier = c.carrier)) ∧
              (c.fault = .none → s.output.cutFlag ch = false →
                t.output.stateOf ch = (if 0 < c.setpoint then .driven else .off)) ∧
              (∀ k : Channel, k ≠ ch → t.output.channels[k] = s.output.channels[k]) ∧
              t = { s.taken h with output := { s.output with channels := t.output.channels } })))))

/-- R162 to R166: a 0.5 ms sample records the current of every PROP channel. With no short judged, it moves the carriers and
starts, keeps or stops each open timer of a channel in DRIVEN or DIRECT, and changes nothing else; the lowest channel judged
short enters FAULT. At the end of its part a carrier passes from high to low, and from low, with the pending values loaded, to
high again. That one sample covers all channels in their order, that it moves the carriers, and that a carrier stands at the
end of its part until DITHER_PART_END are the model's choices (entries 12 and 13). -/
def Obligations.SamplesAreTaken : Prop :=
  (∀ (after : Nat) (x : Samples) (s : State), reached (s.elapse after).nowUs s.periods.sample = true →
    (let u := s.elapse after
     let judged := fun (ch : Channel) => s.output.stateOf ch = .driven ∨ s.output.stateOf ch = .direct
     let short := fun (ch : Channel) => judged ch ∧
       (if isPropChannel ch then 2500 < x.current[ch].toNat else ch.val < 15 ∧ x.report.getLsbD ch.val = true)
     let opened := fun (ch : Channel) =>
       (isPropChannel ch = true ∧ 200 ≤ s.output.channels[ch].target ∧
         x.current[ch].toNat < s.output.channels[ch].target / 2) ∨
       (15 ≤ ch.val ∧ 0 < s.output.channels[ch].target ∧ x.report.getLsbD ch.val = true)
     ∃ t : State, exec (.currentSample after x) s = .next t ∧
       t.periods = { s.periods with sample := later s.periods.sample 500 } ∧
       (∀ ch : Channel, isPropChannel ch = true → t.output.channels[ch].measured = x.current[ch]) ∧
       ((∀ ch, ¬short ch) →
         (∀ ch : Channel,
           (let c := s.output.channels[ch]
            let d := t.output.channels[ch]
            (¬judged ch → d.openSince = c.openSince) ∧ (judged ch → ¬opened ch → d.openSince = none) ∧
            (judged ch → opened ch → d.openSince = some (c.openSince.getD u.nowUs)) ∧
            d = { c with
              measured := if isPropChannel ch then x.current[ch] else c.measured
              carrier := { c.carrier with pos := d.carrier.pos }, openSince := d.openSince } ∧
            (isPropChannel ch = true → d.carrier.pos = min (match c.carrier.part with
              | .rest => 0 | .high => c.carrier.high | .low => c.carrier.low) (c.carrier.pos + 1)))) ∧
         t = { u with periods := t.periods, output := { s.output with channels := t.output.channels } }) ∧
       (∀ ch, short ch → (∀ k : Channel, k.val < ch.val → ¬short k) →
         t.output.channels[ch].fault = .shortLoad ∧ t.output.channels[ch].holder = none ∧ t.told .alarmRaised))) ∧
  (∀ (after : Nat) (ch : Channel) (s : State),
    (let k := s.output.channels[ch].carrier
     ∃ t : State, exec (.ditherPartEnd after ch) s = .next t ∧
       (let j := t.output.channels[ch].carrier
        (k.part = .rest → j = k) ∧
        (k.part = .high → k.high ≤ k.pos → j = { k with part := .low, pos := 0 }) ∧
        (k.part = .high → k.pos < k.high → j = k) ∧
        (k.part = .low → k.pos < k.low → j = k) ∧
        (k.part = .low → k.low ≤ k.pos → j = {
          part := .high, pos := 0, high := k.nextHigh.getD k.high, low := k.nextLow.getD k.low
          amp := k.nextAmp.getD k.amp })) ∧
       (isPropChannel ch = true → t.output.channels[ch].carrier.part = .high →
         t.output.commanded ch = s.output.channels[ch].target + t.output.channels[ch].carrier.amp) ∧
       (isPropChannel ch = true → t.output.channels[ch].carrier.part = .low →
         t.output.commanded ch = s.output.channels[ch].target - t.output.channels[ch].carrier.amp) ∧
       t.output.channels[ch] = { s.output.channels[ch] with carrier := t.output.channels[ch].carrier } ∧
       (∀ i : Channel, i ≠ ch → t.output.channels[i] = s.output.channels[i]) ∧
       t = { s.elapse after with output := { s.output with channels := t.output.channels } }))

/-! ### Sensor scanning and comparators -/

/-- R144 to R146: the triggers of the two groups and the settle of a slow item. A fast trigger starts the fast group at A0 and
stops a slow conversion, whose item waits; a slow trigger switches the slow selector to A6 and starts its settle; a trigger
that finds its group running is skipped and counted as an overrun. A settled item converts at once while no fast group runs,
and waits otherwise; a reference is converted with an addition count of 4. -/
def Obligations.ScanTriggersTaken : Prop :=
  ∀ (after : Nat) (s : State),
    (let u := s.elapse after
     let x := s.scan
     let begun := fun (ch : Fin 9) =>
       ({ count := s.settings.scan[ch].count, offset := s.settings.scan[ch].offset
          span := s.settings.scan[ch].span } : Sequence)
     (reached u.now s.periods.fast = true →
       (let p := { s.periods with fast := later s.periods.fast 5 }
        (x.fast = none → exec (.fastScanTrigger after) s = .next { u with
          periods := p
          scan := { x with
            fast := some 0, seq := some (begun 0), convStart := some u.nowUs
            slow := match x.slow with | some ⟨i, .converting⟩ => some ⟨i, .waiting⟩ | y => y } }) ∧
        (x.fast ≠ none → exec (.fastScanTrigger after) s = .next { u.bump .overruns with periods := p }))) ∧
     (reached u.now s.periods.slow = true →
       (let p := { s.periods with slow := later s.periods.slow 100 }
        (x.slow = none → exec (.slowScanTrigger after) s = .next { u with
          periods := p, scan := { x with slow := some ⟨.a6, .settling (later u.nowUs 1600)⟩ } }) ∧
        (x.slow ≠ none → exec (.slowScanTrigger after) s = .next { u.bump .overruns with periods := p }))) ∧
     (∀ (i : SlowItem) (till : Micros), x.slow = some ⟨i, .settling till⟩ → reached u.nowUs till = true →
       (x.fast ≠ none → exec (.slowSettleEnd after) s = .next { u with
         scan := { x with slow := some ⟨i, .waiting⟩ } }) ∧
       (x.fast = none → ∃ q : Sequence, q.sum = 0 ∧ q.done = 0 ∧ (i = .reference → q.count = 4) ∧
         (∀ ch, (i, ch) ∈ ([(.a6, 6), (.a7, 7), (.a8, 8)] : List (SlowItem × Fin 9)) → q = begun ch) ∧
         exec (.slowSettleEnd after) s = .next { u with
           scan := { x with slow := some ⟨i, .converting⟩, seq := some q, convStart := some u.nowUs } })))

/-- R140, R142 to R145: the end of a conversion, 10 µs or more after its start (an end before is that of a stopped conversion:
entry 47). Its code is added; before the last conversion of the sequence the next one starts, and at the last the result of
the channel is formed from the truncated average, scaled and clamped, and is stale exactly while a converter fault stands. A
fast group goes on to the next channel with its settings, or ends with A5 and gives the converter to a slow item that waits; a
slow channel passes the selector to the next item. No other result changes. -/
def Obligations.ConversionsFormResults : Prop :=
  ∀ (after : Nat) (code : BitVec 12) (s : State) (q : Sequence) (e : Micros),
    s.scan.seq = some q → s.scan.convStart = some e → 10 ≤ since (s.elapse after).nowUs e →
    (let u := s.elapse after
     let x := s.scan
     let begun := fun (ch : Fin 9) =>
       ({ count := s.settings.scan[ch].count, offset := s.settings.scan[ch].offset
          span := s.settings.scan[ch].span } : Sequence)
     let raw := (q.sum + code.toNat) / q.count
     let formed := fun (ch : Fin 9) (t : State) =>
       (let range : Int × Int := match ch.val with
          | 0 | 1 => (0, 5000) | 2 | 3 | 4 => (0, 3000) | 5 | 6 => (0, 1000) | 7 => (-400, 1500) | _ => (-450, 450)
        t.scan.results[ch] = {
          value := max range.1 (min range.2 (q.offset + (raw * q.span / 4095 : Nat))), raw := raw, stale := x.fault
          time := u.now } ∧
        ∀ k : Fin 9, k ≠ ch → t.scan.results[k] = x.results[k])
     (q.done + 1 < q.count → exec (.conversionEnd after code) s = .next { u with
       scan := { x with
         seq := some { q with sum := q.sum + code.toNat, done := q.done + 1 }, convStart := some u.nowUs } }) ∧
     (q.count ≤ q.done + 1 →
       (∀ ch : Fin 6, x.fast = some ch →
         ∃ t : State, exec (.conversionEnd after code) s = .next t ∧ formed (ch.castLE (by decide)) t ∧
           (∀ next : Fin 6, next.val = ch.val + 1 →
             t.scan.fast = some next ∧ t.scan.seq = some (begun (next.castLE (by decide))) ∧
             t.scan.convStart = some u.nowUs ∧ t.scan.slow = x.slow) ∧
           (ch = 5 → t.scan.fast = none ∧ t.scan.comps = x.comps ∧ t = { u with scan := t.scan } ∧
             (∀ i, x.slow = some ⟨i, .waiting⟩ → t.scan.slow = some ⟨i, .converting⟩ ∧ t.scan.convStart = some u.nowUs) ∧
             ((∀ i, x.slow ≠ some ⟨i, .waiting⟩) →
               t.scan.slow = x.slow ∧ t.scan.seq = none ∧ t.scan.convStart = none)) ∧
           t.scan.passRun = x.passRun ∧ t.scan.fault = x.fault ∧ t.scan.nextRef = x.nextRef ∧
           t.scan.slope = x.slope ∧ t.settings = s.settings ∧ t.travel = s.travel ∧ (∀ l, t.link l = s.link l)) ∧
       (∀ (i next : SlowItem) (ch : Fin 9), x.fast = none → x.slow = some ⟨i, .converting⟩ →
         (i, ch, next) ∈ ([(.a6, 6, .a7), (.a7, 7, .a8), (.a8, 8, .reference)] : List (SlowItem × Fin 9 × SlowItem)) →
         ∃ t : State, exec (.conversionEnd after code) s = .next t ∧ formed ch t ∧
           t = { u with scan := { x with
                 results := t.scan.results, seq := none, convStart := none
                 slow := some ⟨next, .settling (later u.nowUs 1600)⟩ } })))

/-- R149 to R151 with R78, R80, R81, R88, R101, R105, R106, R108: the evaluation of a comparator at a result of its input,
formed at the last conversion of that fast channel (one that ends 10 µs or more after its start: entry 47). None is evaluated
while a converter fault stands. The held direction is the one loaded for comparator 3, which every step keeps
(`State.HeldLaw`). A result of the other side counts up, and the change comes at N in a row; a result of the same side zeroes
the counter. A detection strikes a side arm that works or yields, jams the working broom, sets stall hold, and with cut enable
on sets the latch of channel 13, whose motor setpoint is then 0 in every state of the broom, or of channels 0 and 1, which get
output 0; a return to CLEAR ends a stall and leaves the latches. A jam counts, lists, and holds or locks the broom; the lock
leaves hold-done as it stood, which is the model's choice (entry 42), and is one posting of ARM_STATE, JAMMED and lock together,
which is the model's reading (entry 16). -/
def Obligations.ComparatorsDetect : Prop :=
  ∀ (after : Nat) (code : BitVec 12) (s : State) (q : Sequence) (e : Micros) (ch : Fin 6) (i : Fin 4),
    s.scan.seq = some q → s.scan.convStart = some e → 10 ≤ since (s.elapse after).nowUs e → q.count ≤ q.done + 1 →
    s.scan.fast = some ch → s.HeldLaw →
    (ch.val, i.val) ∈ ([(2, 0), (3, 1), (4, 2)] : List (Nat × Nat)) ∨ (ch.val = 0 ∧ i.val = 3 ∧ s.gov.held = .forward) ∨
      (ch.val = 1 ∧ i.val = 3 ∧ s.gov.held = .reverse) →
    ∃ t : State, exec (.conversionEnd after code) s = .next t ∧
      (let u := s.elapse after
       let c := s.scan.comps[i]
       let set := s.settings.comps[i]
       let v := t.scan.results[(ch.castLE (by decide) : Fin 9)].value
       let low := decide (v < set.low)
       let high := decide ((set.high : Int) < v)
       let side := match set.mode with | .above => high | .below => low | .outside => low || high
       let alone := t = { u with scan := t.scan }
       (∀ k : Fin 4, k ≠ i → t.scan.comps[k] = s.scan.comps[k]) ∧
       (s.scan.fault = true → t.scan.comps = s.scan.comps ∧ alone) ∧
       (s.scan.fault = false →
         (side = c.detected → t.scan.comps[i] = { c with counter := 0 } ∧ alone) ∧
         (side ≠ c.detected → c.counter + 1 < set.filter →
           t.scan.comps[i] = { c with counter := c.counter + 1 } ∧ alone) ∧
         (side ≠ c.detected → set.filter ≤ c.counter + 1 →
           t.scan.comps[i] = { detected := !c.detected, counter := 0 } ∧
           (c.detected = true → i ≠ 3 → alone) ∧
           (c.detected = true → i = 3 →
             t.gov = { s.gov with stallHold := false, stallTimer := none, stallRaised := false } ∧
             (s.gov.stallRaised = false → t.notices = s.notices) ∧
             (s.gov.stallRaised = true → State.GoesAbsent .driveStall (Dir.detail s.gov.stallDir) u t) ∧
             t = { u with scan := t.scan, gov := t.gov, notices := t.notices }) ∧
           (c.detected = false →
             (∀ a : SideArm, i = a.arm.comparator →
               ((s.arm a.arm).state = .working ∨ (s.arm a.arm).state = .yielding →
                 State.Strikes a { u with scan := t.scan } t) ∧
               ((s.arm a.arm).state ≠ .working → (s.arm a.arm).state ≠ .yielding → alone)) ∧
             (i = 2 → ∃ w : State, State.TakesBroomCut set.cut { u with scan := t.scan } w ∧
               (let r := w.arms.main
                (r.state = .working → State.Jams w t) ∧
                (r.state = .jammed → w.arms.lock = false → t = { w with arms := { w.arms with
                  holdDone := false, main := { r with timer := some (later u.now s.settings.arms.jamHold) } } }) ∧
                (r.state = .jammed → w.arms.lock = true → t = w) ∧
                (r.state ≠ .working → r.state ≠ .jammed → t = w))) ∧
             (i = 3 →
               (let d : Dir := if s.gov.held = .forward then .forward else .reverse
                (set.cut = true →
                  t.gov = { s.gov with
                    cutSeen := true, vRef := 0, trim := 0, coil := 0, stallDir := d, stallRaised := true } ∧
                  t.output.driveCut = true ∧
                  (∀ k : Channel, k.val < 2 → t.output.channels[k].setpoint = 0 ∧ t.output.commanded k = 0) ∧
                  (∀ k : Channel, 2 ≤ k.val → t.output.channels[k] = s.output.channels[k]) ∧
                  State.Raises .driveStall (Dir.detail d) u t) ∧
                (set.cut = false →
                  t.gov = { s.gov with
                    stallHold := true, stallTimer := some (later u.now 3000), stallDir := d, stallRaised := false } ∧
                  t = { u with scan := t.scan, gov := t.gov })))))))

/-- R140, R153, R154: a conversion that has not ended 120 µs after its start is abandoned. A converter fault begins, or the
one that stands takes detail 3 as a further cause, raised once in the fault; the pass run is 0; then the code 0 is added to
the sum, the fault before the code being the model's order (entry 14). The sequence goes on; or it is complete, with a stale
result and no comparator evaluated for a fast channel, a stale result and the settle of the next item for A6 to A8, and the
reference judged at the end of the pass, from which stale results move nothing. -/
def Obligations.ConversionsAbandoned : Prop :=
  ∀ (after : Nat) (s : State) (e : Micros), s.scan.convStart = some e → 120 ≤ since (s.elapse after).nowUs e →
    ∃ w t : State, exec (.conversionTimeout after) s = .next t ∧
      (let u := s.elapse after
       w.scan.passRun = 0 ∧ w.scan.fault = true ∧
       w = { u with scan := w.scan, ceiling := w.ceiling, notices := w.notices, bank := w.bank } ∧
       (s.scan.fault = false → State.FaultBegins 3 u w) ∧
       (s.scan.fault = true → s.scan.causes[(3 : Fin 4)] = true → w = { u with scan := { s.scan with passRun := 0 } }) ∧
       (s.scan.fault = true → s.scan.causes[(3 : Fin 4)] = false →
         w.scan = { s.scan with passRun := 0, causes := s.scan.causes.set 3 true } ∧ w.ceiling = s.ceiling ∧
         State.Raises .converterFault 3 u w) ∧
       (s.scan.seq = none → t = w) ∧
       (∀ q, s.scan.seq = some q → q.done + 1 < q.count →
         t = { w with scan := { w.scan with seq := some { q with done := q.done + 1 }, convStart := some u.nowUs } }) ∧
       (let formed := fun (q : Sequence) (ch : Fin 9) =>
          (let range : Int × Int := match ch.val with
             | 0 | 1 => (0, 5000) | 2 | 3 | 4 => (0, 3000) | 5 | 6 => (0, 1000) | 7 => (-400, 1500) | _ => (-450, 450)
           let raw := q.sum / q.count
           t.scan.results = w.scan.results.set ch
             ⟨max range.1 (min range.2 (q.offset + (raw * q.span / 4095 : Nat))), raw, true, u.now⟩)
        (∀ (q : Sequence) (ch : Fin 6), s.scan.seq = some q → q.count ≤ q.done + 1 → s.scan.fast = some ch →
          formed q (ch.castLE (by decide)) ∧ t.scan.comps = w.scan.comps ∧
          (∀ next : Fin 6, next.val = ch.val + 1 → t.scan.fast = some next) ∧ (ch = 5 → t.scan.fast = none) ∧
          t = { w with scan := t.scan }) ∧
        (∀ (q : Sequence) (i next : SlowItem) (ch : Fin 9), s.scan.seq = some q → q.count ≤ q.done + 1 →
          s.scan.fast = none → s.scan.slow = some ⟨i, .converting⟩ →
          (i, ch, next) ∈ ([(.a6, 6, .a7), (.a7, 7, .a8), (.a8, 8, .reference)] : List (SlowItem × Fin 9 × SlowItem)) →
          formed q ch ∧ t = { w with scan := { w.scan with
            results := t.scan.results, seq := none, convStart := none
            slow := some ⟨next, .settling (later u.nowUs 1600)⟩ } })) ∧
       (∀ q : Sequence, s.scan.seq = some q → q.count ≤ q.done + 1 → s.scan.fast = none →
         s.scan.slow = some ⟨.reference, .converting⟩ →
         (let x := w.scan
          let y := t.scan
          let raw := q.sum / q.count
          let refOf := fun (z : Scan) => match x.nextRef with | .low => z.low | .mid => z.mid | .high => z.high
          let expected := match x.nextRef with | .low => 410 | .mid => 2048 | .high => 3686
          let detail : Fin 4 := match x.nextRef with | .low => 0 | .mid => 1 | .high => 2
          let good := expected ≤ raw + 24 ∧ raw ≤ expected + 24
          y.slow = none ∧ y.seq = none ∧ y.convStart = none ∧ y.fast = none ∧ y.fault = true ∧ y.comps = x.comps ∧
          y.results = x.results ∧ y.nextRef = (match x.nextRef with | .low => .mid | .mid => .high | .high => .low) ∧
          refOf y = ⟨decide (¬good), raw, u.now⟩ ∧ y.passRun = (if good then 1 else 0) ∧
          (good ∨ (refOf x).fail = false → y.causes = x.causes) ∧
          (¬good → (refOf x).fail = true → y.causes = x.causes.set detail true ∧
            (x.causes[detail] = false → t.told .alarmRaised)) ∧
          ((∀ k : Fin 9, x.results[k].stale = true) → y.slope = x.slope ∧ t.ceiling = w.ceiling ∧
            t = { w with scan := y, notices := t.notices, bank := t.bank }))))

/-- R145, R147, R153 to R156, with R53, R54, R135, R136: the end of a slow pass. The reference is judged against its expected code
within 24: a passing check clears its mark and counts up the pass run to 6, which ends a standing fault; a failing one sets
the mark, zeroes the run, and where the mark was set is a cause of fault. The rotation advances. The A6, A7 and A8 results,
where they are then fresh, move the tank state, OIL_HOT and the SLOPE level, and where they are stale move nothing. TANK_EMPTY is
raised at the change to EMPTY and absent at the change out of it, and the OIL_HOT alarm with its entry, each with ALARM_RAISED or
ALARM_GONE. Nothing else moves. The last conversion ends 10 µs or more after its start (entry 47). -/
def Obligations.PassesComplete : Prop :=
  ∀ (after : Nat) (code : BitVec 12) (s : State) (q : Sequence) (e : Micros),
    s.scan.seq = some q → s.scan.convStart = some e → 10 ≤ since (s.elapse after).nowUs e → q.count ≤ q.done + 1 →
    s.scan.fast = none → s.scan.slow = some ⟨.reference, .converting⟩ →
    ∃ t : State, exec (.conversionEnd after code) s = .next t ∧
      (let u := s.elapse after
       let x := s.scan
       let y := t.scan
       let raw := (q.sum + code.toNat) / q.count
       let refOf := fun (z : Scan) => match x.nextRef with | .low => z.low | .mid => z.mid | .high => z.high
       let expected := match x.nextRef with | .low => 410 | .mid => 2048 | .high => 3686
       let detail : Fin 4 := match x.nextRef with | .low => 0 | .mid => 1 | .high => 2
       let good := expected ≤ raw + 24 ∧ raw ≤ expected + 24
       let again := (refOf x).fail = true
       let stands := y.fault = x.fault ∧ y.causes = x.causes ∧ y.comps = x.comps ∧ y.results = x.results ∧
         (t.ceiling.entry .sensorFault).active = (s.ceiling.entry .sensorFault).active
       y.slow = none ∧ y.seq = none ∧ y.convStart = none ∧ y.fast = none ∧ y.input3 = x.input3 ∧
       y.nextRef = (match x.nextRef with | .low => .mid | .mid => .high | .high => .low) ∧
       (refOf y).raw = raw ∧ (refOf y).time = u.now ∧
       (good → (refOf y).fail = false ∧ y.passRun = min 6 (x.passRun + 1) ∧
         (x.fault = false ∨ x.passRun < 5 → stands) ∧
         (x.fault = true → 5 ≤ x.passRun →
           y.fault = false ∧ (∀ k : Fin 9, y.results[k] = { x.results[k] with stale := false }) ∧
           (∀ k : Fin 4, y.comps[k] = { x.comps[k] with counter := 0 } ∧ y.causes[k] = false) ∧
           (t.ceiling.entry .sensorFault).active = false ∧
           (∀ d : Fin 4, x.causes[d] = true → ∀ a ∈ t.notices.alarms, a.code = .converterFault → a.detail = d.val →
             a.present = false) ∧
           ((∃ d : Fin 4, x.causes[d] = true ∧ ∃ a ∈ s.notices.alarms, a.code = .converterFault ∧ a.detail = d.val ∧
             a.present = true) → t.told .alarmGone))) ∧
       (¬good → (refOf y).fail = true ∧ y.passRun = 0 ∧
         (¬again → stands) ∧ (again → x.fault = false → State.FaultBegins detail.val u t) ∧
         (again → x.fault = true → y.fault = true ∧ y.causes = x.causes.set detail true ∧ y.comps = x.comps ∧
           (x.causes[detail] = false → t.told .alarmRaised))) ∧
       (let r := y.results[(6 : Fin 9)]
        let set := s.settings.spray
        let level := r.value.toNat
        (r.stale = true → t.spray = s.spray) ∧
        (r.stale = false → t.spray.level = some level ∧
          (s.spray.tank = .normal → t.spray.tank =
            (if level < set.tankEmpty then .empty else if level < set.tankLow then .low else .normal)) ∧
          (s.spray.tank = .low → t.spray.tank =
            (if set.tankLow + set.hysteresis < level then .normal
             else if level < set.tankEmpty then .empty else .low)) ∧
          (s.spray.tank = .empty → t.spray.tank =
            (if set.tankLow + set.hysteresis < level then .normal
             else if set.tankEmpty + set.hysteresis < level then .low else .empty)) ∧
          (t.spray.tank = s.spray.tank → t.spray = { s.spray with level := some level }) ∧
          (t.spray.tank ≠ s.spray.tank → t.told .tankState ∧ t.barsJudged ∧
            (t.spray.tank = .empty → t.told .alarmRaised)))) ∧
       (let r := y.results[(7 : Fin 9)]
        let was := (s.ceiling.entry .oilHot).active
        let is := (t.ceiling.entry .oilHot).active
        let set := s.settings.caps
        (r.stale = true → is = was) ∧
        (r.stale = false → was = false → is = decide ((set.oilLimit : Int) ≤ r.value)) ∧
        (r.stale = false → was = true → is = !decide (r.value < (set.oilLimit : Int) - 50)) ∧
        (was = false → is = true → (t.ceiling.entry .oilHot).cap = set.oilCap ∧ t.told .alarmRaised)) ∧
       (let r := y.results[(8 : Fin 9)]
        let p := r.value.natAbs
        let set := s.settings.caps
        (r.stale = true → y.slope = x.slope) ∧
        (r.stale = false → x.slope = .zero → y.slope =
          (if set.slope2 ≤ p then .two else if set.slope1 ≤ p then .one else .zero)) ∧
        (r.stale = false → x.slope = .one → y.slope =
          (if set.slope2 ≤ p then .two else if p + 10 < set.slope1 then .zero else .one)) ∧
        (r.stale = false → x.slope = .two → y.slope =
          (if p + 10 < set.slope1 then .zero else if p + 10 < set.slope2 then .one else .two)) ∧
        (y.slope ≠ x.slope →
          (y.slope = .zero → (t.ceiling.entry .slope).active = false) ∧
          (x.slope = .zero → (t.ceiling.entry .slope).active = true) ∧
          (y.slope = .one → (t.ceiling.entry .slope).cap = set.slopeCap1) ∧
          (y.slope = .two → (t.ceiling.entry .slope).cap = set.slopeCap2))) ∧
       (let gone := fun (code : AlarmCode) (list : List Alarm) => list.map fun a =>
          if a.code = code ∧ a.detail = 0 then { a with present := false } else a
        let stood := fun (code : AlarmCode) => ∃ a ∈ s.notices.alarms, a.code = code ∧ a.detail = 0 ∧ a.present = true
        let was := (s.ceiling.entry .oilHot).active
        let is := (t.ceiling.entry .oilHot).active
        ∃ checked levelled : List Alarm,
          (good → x.fault = false ∨ x.passRun < 5 → checked = s.notices.alarms) ∧
          (good → x.fault = true → 5 ≤ x.passRun → checked = s.notices.alarms.map fun a =>
            if a.code = .converterFault ∧ ∃ d : Fin 4, x.causes[d] = true ∧ a.detail = d.val then
              { a with present := false } else a) ∧
          (¬good → ¬again ∨ (x.fault = true ∧ x.causes[detail] = true) → checked = s.notices.alarms) ∧
          (¬good → again → x.fault = false ∨ x.causes[detail] = false →
            RaisedIn u.now .converterFault detail.val s.notices.alarms checked) ∧
          (t.spray.tank = s.spray.tank ∨ (s.spray.tank ≠ .empty ∧ t.spray.tank ≠ .empty) → levelled = checked) ∧
          (s.spray.tank ≠ .empty → t.spray.tank = .empty → RaisedIn u.now .tankEmpty 0 checked levelled) ∧
          (s.spray.tank = .empty → t.spray.tank ≠ .empty →
            levelled = gone .tankEmpty checked ∧ (stood .tankEmpty → t.told .alarmGone)) ∧
          (is = was → t.notices.alarms = levelled) ∧
          (was = false → is = true → RaisedIn u.now .oilHot 0 levelled t.notices.alarms) ∧
          (was = true → is = false →
            t.notices.alarms = gone .oilHot levelled ∧ (stood .oilHot → t.told .alarmGone))) ∧
       (∀ (l : Link) (k : EventKind), k ∉ [EventKind.alarmRaised, .alarmGone, .ceilingBinding, .tankState] →
         (t.notices.events l).sameKind (s.notices.events l) k) ∧
       (∀ l : Link, (t.notices.events l).mask = (s.notices.events l).mask) ∧
       (∀ i : Tally, i ≠ .urgentStops → i ≠ .overflows → t.bank.tallies[i.index] = u.bank.tallies[i.index]) ∧
       (∀ src : Source, src ∉ [Source.sensorFault, .oilHot, .slope, .drySweep, .sprayLimit] →
         t.ceiling.sameEntry s.ceiling src) ∧
       (∀ ch : Channel, ch.val < 14 → t.output.channels[ch] = s.output.channels[ch]) ∧
       t = { u with
             scan := t.scan, spray := t.spray, ceiling := t.ceiling, notices := t.notices, output := t.output
             bank := { u.bank with tallies := t.bank.tallies } })

/-! ### Time -/

/-- R2, R30, R197 and the model's entries 1, 3 and 47: how time passes before a command, and that the command of a timer whose
time has not come, of a stopped timer, and of a conversion that does not run or started less than 10 µs ago, does nothing
beside. -/
def Obligations.EarlyTimersDoNothing : Prop :=
  ∀ (after : Nat) (s : State),
    (let u := s.elapse after
     let early := fun (o : Option Time) => ∀ e, o = some e → reached u.now e = false
     u.nowUs = s.nowUs + BitVec.ofNat 32 after ∧
     u.now = s.now + BitVec.ofNat 32 ((s.clock.frac + after) / 1000) ∧
     u.clock.frac = (s.clock.frac + after) % 1000 ∧
     u = { s with clock := u.clock, bank := { s.bank with sweepRem := u.bank.sweepRem } } ∧
     (∀ l, early (s.link l).timer → exec (.deadlineExpiry after l) s = .next u) ∧
     (early (s.links.window.map (·.expiry)) → exec (.restartWindowExpiry after) s = .next u) ∧
     (reached u.now s.periods.travel = false → exec (.travelUpdateExpiry after) s = .next u) ∧
     (∀ w, early (s.travel.wheel w).timeout → exec (.pulseTimeoutExpiry after w) s = .next u) ∧
     (early s.travel.slipHold → exec (.slipHoldExpiry after) s = .next u) ∧
     (early s.unit.boundary → exec (.cycleBoundary after) s = .next u) ∧
     (early s.unit.halfMark → exec (.halfCycleMark after) s = .next u) ∧
     (early (s.unit.staging.map (·.idle)) → exec (.claimIdleTimerExpiry after) s = .next u) ∧
     (reached u.now s.periods.drive = false → exec (.drivePeriodExpiry after) s = .next u) ∧
     (early s.gov.settle → exec (.settleExpiry after) s = .next u) ∧
     (early s.gov.stallTimer → exec (.stallTimerExpiry after) s = .next u) ∧
     (reached u.now s.periods.arm = false → exec (.armPeriodExpiry after) s = .next u) ∧
     (∀ a, early (s.arm a).timer →
       exec (.lowerExpiry after a) s = .next u ∧ exec (.raiseExpiry after a) s = .next u ∧
       (a = .main → exec (.jamHoldExpiry after) s = .next u) ∧
       (∀ b : SideArm, a = b.arm →
         exec (.yieldLiftExpiry after b) s = .next u ∧ exec (.yieldSettleExpiry after b) s = .next u)) ∧
     (reached u.now s.periods.pump = false → exec (.sprayPumpPeriodExpiry after) s = .next u) ∧
     (∀ b, early (s.spray.bar b).pulseEnd → exec (.pulseEnd after b) s = .next u) ∧
     (reached u.now s.periods.fast = false → exec (.fastScanTrigger after) s = .next u) ∧
     (reached u.now s.periods.slow = false → exec (.slowScanTrigger after) s = .next u) ∧
     ((∀ i till, s.scan.slow = some ⟨i, .settling till⟩ → reached u.nowUs till = false) →
       exec (.slowSettleEnd after) s = .next u) ∧
     (∀ code, (∀ e, s.scan.convStart = some e → since u.nowUs e < 10) →
       exec (.conversionEnd after code) s = .next u) ∧
     ((∀ e, s.scan.convStart = some e → since u.nowUs e < 120) → exec (.conversionTimeout after) s = .next u) ∧
     (∀ x, reached u.nowUs s.periods.sample = false → exec (.currentSample after x) s = .next u) ∧
     (∀ ch : Channel, (∀ e, s.output.channels[ch].openSince = some e →
         since u.nowUs e < (if 15 ≤ ch.val then 10000 else 200000)) →
       exec (.openTimerExpiry after ch) s = .next u) ∧
     (u.bank.sweepRem < 1000 → exec (.sweepSecond after) s = .next u))

/-! ### What every step keeps -/

/-- R68, R71: outside a reset, the held direction changes only at a speed reference of 0 with cut-seen clear, and then to the
demand direction; and a speed reference rises only below the effective ceiling of the held direction, and not above it, with
stall hold clear before the step and after it and no settle timer running (R71, R80; entry 21 for a direction change). A step
from a state in which a command other than POWER_ON_RESET and RESTART stands in front. -/
def Obligations.GovernorTurnsAtZero : Prop :=
  ∀ (s t : State) (c : Instr) (rest : List Instr), s.pending = c :: rest → (∀ x, c ≠ .powerOnReset x) →
    (∀ h, c ≠ .restart h) → step s = .next t →
    (t.gov.held ≠ s.gov.held → s.gov.vRef = 0 ∧ s.gov.cutSeen = false ∧ t.gov.held = s.gov.demandDir) ∧
    (s.gov.vRef < t.gov.vRef → ∃ d : Dir,
      t.gov.held = (match d with | .forward => .forward | .reverse => .reverse) ∧
      s.gov.vRef < s.ceiling.effective d ∧ t.gov.vRef ≤ s.ceiling.effective d ∧ s.gov.stallHold = false ∧
      t.gov.stallHold = false ∧ t.gov.settle = none)

/-- R190, R191: every step keeps the law of the alarm list: at most sixteen entries, no two with one key, each with an
occurrence count from 1 to 255. -/
def Obligations.AlarmLawKept : Prop := ∀ s t : State, s.AlarmLaw → step s = .next t → t.AlarmLaw

/-- R171, R172: every step keeps the law of direct drive: a channel has a direct holder only in SERVICE. -/
def Obligations.DirectLawKept : Prop := ∀ s t : State, s.DirectLaw → step s = .next t → t.DirectLaw

/-- R14, R22, R24, R27: every step keeps the law of the program table: the slots and a pending swap hold valid programs, the
active slot holds one, and some slot is active in ENTERING, SWEEP and LEAVING. -/
def Obligations.ProgramLawKept : Prop := ∀ s t : State, s.ProgramLaw → step s = .next t → t.ProgramLaw

/-- R71, R56, R50, R182, R68, R151: every step keeps the law of the speed reference: MODE is active with a cap of at most the
transport max speed, and the speed reference is at most the transport max speed. Every step keeps the law of the loaded
direction: comparator 3 reads the input of the held direction. -/
def Obligations.SpeedLawKept : Prop :=
  ∀ s t : State, step s = .next t → (s.SpeedLaw → t.SpeedLaw) ∧ (s.HeldLaw → t.HeldLaw)

/-- R74, R163: every step keeps the law of the two pump coils: one of them has setpoint 0 and rests; so the two are never both
commanded above 0. -/
def Obligations.PumpLawKept : Prop :=
  ∀ s t : State, s.PumpLaw → step s = .next t →
    t.PumpLaw ∧ (t.output.commanded 0 = 0 ∨ t.output.commanded 1 = 0)

/-- R93 with R10 to R12, R88, R171: every step keeps the law of the arm states: in TRANSPORT and in SERVICE every arm is
STOWED or FAULT; and an arm enters LOWERING only in SWEEP. With the laws of the arm states and of direct drive, every step
keeps the law of the arm coils: their setpoints are those of the arm's state, and the lift and the lower coil of one arm are
never both commanded on, in DIRECT or out of it. R88, R105: every step keeps the law of the broom's cut: while cut-seen is
set, the latch stands and the broom's motor setpoint is 0 in every state of the broom. -/
def Obligations.ArmLawKept : Prop :=
  ∀ s t : State, step s = .next t →
    (s.ArmLaw → t.ArmLaw) ∧
    (∀ a : Arm, (s.arm a).state ≠ .lowering → (t.arm a).state = .lowering →
      s.unit.mode = .sweep ∧ t.unit.mode = .sweep) ∧
    (s.ArmLaw → s.DirectLaw → s.CoilLaw →
      t.CoilLaw ∧ ∀ a : Arm, t.output.commanded a.lift = 0 ∨ t.output.commanded a.lower = 0) ∧
    (s.BroomCutLaw → t.BroomCutLaw)

/-- R117, R119, R121, R122, R126: every step keeps the laws of the spray bars and of their owed water. R44, R45, R58, R112,
R123, R125, R195, R197: every step keeps the law of the counts: each remainder below its whole and each count within its
width. -/
def Obligations.BarsLawKept : Prop :=
  ∀ s t : State, step s = .next t →
    (s.BarLaw → s.OwedLaw → t.BarLaw ∧ t.OwedLaw) ∧ (s.CountLaw → t.CountLaw)

/-- R4, R14, R17, R36, R47, R63, R75, R87, R115, R135, R142, R148, R153, R159, R183, R190, R195, R197: the state after reset
has every law of the device and the reset values that the manual gives: TRANSPORT with no program, both links WAITING, MODE
and the two loss entries active, a neutral demand at reference 0 in the transport range, every arm STOWED, every bar off with
the tank NORMAL, every result stale, every channel OFF, no alarm, the masks of R195, and every tally 0. -/
def Obligations.ResetHasLaws : Prop :=
  State.reset.Laws ∧
  (let r := State.reset
   r.now = 0 ∧ r.nowUs = 0 ∧ r.unit.mode = .transport ∧ r.unit.active = none ∧ (∀ i : Fin 8, r.unit.slots[i] = none) ∧
   r.unit.staging = none ∧ r.unit.swap = none ∧
   (∀ w, (r.travel.wheel w).history = [] ∧ (r.travel.wheel w).speed = 0 ∧ (r.travel.wheel w).dir = .forward) ∧
   r.travel.ground = 0 ∧ r.travel.odometer = 0 ∧ r.travel.slipHold = none ∧ r.travel.sensorFault = none ∧
   (∀ src, (r.ceiling.entry src).active = true ↔ src = .mode ∨ src = .driveLoss ∨ src = .bodyLoss) ∧
   (r.ceiling.entry .mode).cap = 6900 ∧ (r.ceiling.entry .driveLoss).cap = 0 ∧ (r.ceiling.entry .bodyLoss).cap = 800 ∧
   r.ceiling.reportDir = .forward ∧ r.gov.demandDir = .neutral ∧ r.gov.demandMag = 0 ∧ r.gov.held = .neutral ∧
   r.gov.vRef = 0 ∧ r.gov.setRange = .transport ∧ r.gov.shift = .none ∧ r.gov.cutSeen = false ∧
   (∀ a, (r.arm a).state = .stowed ∧ (r.arm a).pending = false ∧ (r.arm a).strikes = []) ∧ r.arms.lock = false ∧
   (∀ b, (r.spray.bar b).enable = false ∧ (r.spray.bar b).active = false ∧ (r.spray.bar b).owed = 0) ∧
   r.spray.tank = .normal ∧ r.spray.latch = false ∧ r.spray.duty = 0 ∧
   (∀ c : Fin 9, r.scan.results[c].value = 0 ∧ r.scan.results[c].raw = 0 ∧ r.scan.results[c].stale = true) ∧
   (∀ i : Fin 4, r.scan.comps[i].detected = false ∧ r.scan.comps[i].counter = 0) ∧ r.scan.nextRef = .low ∧
   r.scan.fault = false ∧ r.scan.passRun = 0 ∧ r.output.driveCut = false ∧ r.output.broomCut = false ∧
   (∀ ch : Channel, r.output.stateOf ch = .off ∧ r.output.commanded ch = 0 ∧ r.output.channels[ch].fault = .none) ∧
   (∀ l, (r.link l).state = .waiting ∧ (r.link l).lastCount = none ∧ (r.link l).timer = none ∧
     (r.link l).accepted = 0 ∧ (r.notices.events l).pending = 0 ∧ (r.notices.events l).mask = 0b0000100000000101) ∧
   r.links.window = none ∧ r.notices.alarms = [] ∧ (∀ x : Tally, r.bank.tallies[x.index] = 0))
end

