-- ==== Sys2Proof/Laws/State.lean ====
section
/-! SUPPORT. One lemma per field per modifier of State, each true by rfl. -/

namespace Sys2Proof.Machine

/-- States with equal fields are equal. -/
theorem State.eq_of_fields {s t : State}
    (h0 : s.clock = t.clock) (h1 : s.periods = t.periods) (h2 : s.unit = t.unit) (h3 : s.travel = t.travel)
    (h4 : s.ceiling = t.ceiling) (h5 : s.gov = t.gov) (h6 : s.arms = t.arms) (h7 : s.spray = t.spray)
    (h8 : s.scan = t.scan) (h9 : s.output = t.output) (h10 : s.links = t.links) (h11 : s.notices = t.notices)
    (h12 : s.bank = t.bank) (h13 : s.settings = t.settings) (h14 : s.freeCount = t.freeCount)
    (h15 : s.pending = t.pending) : s = t := by
  cases s; cases t
  cases h0; cases h1; cases h2; cases h3; cases h4; cases h5; cases h6; cases h7; cases h8; cases h9; cases h10; cases h11; cases h12; cases h13; cases h14; cases h15
  rfl

section
variable (f : Clock → Clock) (s : State)
@[simp] theorem State.modClock_clock : (s.modClock f).clock = f s.clock := rfl
@[simp] theorem State.modClock_periods : (s.modClock f).periods = s.periods := rfl
@[simp] theorem State.modClock_unit : (s.modClock f).unit = s.unit := rfl
@[simp] theorem State.modClock_travel : (s.modClock f).travel = s.travel := rfl
@[simp] theorem State.modClock_ceiling : (s.modClock f).ceiling = s.ceiling := rfl
@[simp] theorem State.modClock_gov : (s.modClock f).gov = s.gov := rfl
@[simp] theorem State.modClock_arms : (s.modClock f).arms = s.arms := rfl
@[simp] theorem State.modClock_spray : (s.modClock f).spray = s.spray := rfl
@[simp] theorem State.modClock_scan : (s.modClock f).scan = s.scan := rfl
@[simp] theorem State.modClock_output : (s.modClock f).output = s.output := rfl
@[simp] theorem State.modClock_links : (s.modClock f).links = s.links := rfl
@[simp] theorem State.modClock_notices : (s.modClock f).notices = s.notices := rfl
@[simp] theorem State.modClock_bank : (s.modClock f).bank = s.bank := rfl
@[simp] theorem State.modClock_settings : (s.modClock f).settings = s.settings := rfl
@[simp] theorem State.modClock_freeCount : (s.modClock f).freeCount = s.freeCount := rfl
@[simp] theorem State.modClock_pending : (s.modClock f).pending = s.pending := rfl
end

section
variable (f : Periods → Periods) (s : State)
@[simp] theorem State.modPeriods_clock : (s.modPeriods f).clock = s.clock := rfl
@[simp] theorem State.modPeriods_periods : (s.modPeriods f).periods = f s.periods := rfl
@[simp] theorem State.modPeriods_unit : (s.modPeriods f).unit = s.unit := rfl
@[simp] theorem State.modPeriods_travel : (s.modPeriods f).travel = s.travel := rfl
@[simp] theorem State.modPeriods_ceiling : (s.modPeriods f).ceiling = s.ceiling := rfl
@[simp] theorem State.modPeriods_gov : (s.modPeriods f).gov = s.gov := rfl
@[simp] theorem State.modPeriods_arms : (s.modPeriods f).arms = s.arms := rfl
@[simp] theorem State.modPeriods_spray : (s.modPeriods f).spray = s.spray := rfl
@[simp] theorem State.modPeriods_scan : (s.modPeriods f).scan = s.scan := rfl
@[simp] theorem State.modPeriods_output : (s.modPeriods f).output = s.output := rfl
@[simp] theorem State.modPeriods_links : (s.modPeriods f).links = s.links := rfl
@[simp] theorem State.modPeriods_notices : (s.modPeriods f).notices = s.notices := rfl
@[simp] theorem State.modPeriods_bank : (s.modPeriods f).bank = s.bank := rfl
@[simp] theorem State.modPeriods_settings : (s.modPeriods f).settings = s.settings := rfl
@[simp] theorem State.modPeriods_freeCount : (s.modPeriods f).freeCount = s.freeCount := rfl
@[simp] theorem State.modPeriods_pending : (s.modPeriods f).pending = s.pending := rfl
end

section
variable (f : ModeUnit → ModeUnit) (s : State)
@[simp] theorem State.modUnit_clock : (s.modUnit f).clock = s.clock := rfl
@[simp] theorem State.modUnit_periods : (s.modUnit f).periods = s.periods := rfl
@[simp] theorem State.modUnit_unit : (s.modUnit f).unit = f s.unit := rfl
@[simp] theorem State.modUnit_travel : (s.modUnit f).travel = s.travel := rfl
@[simp] theorem State.modUnit_ceiling : (s.modUnit f).ceiling = s.ceiling := rfl
@[simp] theorem State.modUnit_gov : (s.modUnit f).gov = s.gov := rfl
@[simp] theorem State.modUnit_arms : (s.modUnit f).arms = s.arms := rfl
@[simp] theorem State.modUnit_spray : (s.modUnit f).spray = s.spray := rfl
@[simp] theorem State.modUnit_scan : (s.modUnit f).scan = s.scan := rfl
@[simp] theorem State.modUnit_output : (s.modUnit f).output = s.output := rfl
@[simp] theorem State.modUnit_links : (s.modUnit f).links = s.links := rfl
@[simp] theorem State.modUnit_notices : (s.modUnit f).notices = s.notices := rfl
@[simp] theorem State.modUnit_bank : (s.modUnit f).bank = s.bank := rfl
@[simp] theorem State.modUnit_settings : (s.modUnit f).settings = s.settings := rfl
@[simp] theorem State.modUnit_freeCount : (s.modUnit f).freeCount = s.freeCount := rfl
@[simp] theorem State.modUnit_pending : (s.modUnit f).pending = s.pending := rfl
end

section
variable (f : Travel → Travel) (s : State)
@[simp] theorem State.modTravel_clock : (s.modTravel f).clock = s.clock := rfl
@[simp] theorem State.modTravel_periods : (s.modTravel f).periods = s.periods := rfl
@[simp] theorem State.modTravel_unit : (s.modTravel f).unit = s.unit := rfl
@[simp] theorem State.modTravel_travel : (s.modTravel f).travel = f s.travel := rfl
@[simp] theorem State.modTravel_ceiling : (s.modTravel f).ceiling = s.ceiling := rfl
@[simp] theorem State.modTravel_gov : (s.modTravel f).gov = s.gov := rfl
@[simp] theorem State.modTravel_arms : (s.modTravel f).arms = s.arms := rfl
@[simp] theorem State.modTravel_spray : (s.modTravel f).spray = s.spray := rfl
@[simp] theorem State.modTravel_scan : (s.modTravel f).scan = s.scan := rfl
@[simp] theorem State.modTravel_output : (s.modTravel f).output = s.output := rfl
@[simp] theorem State.modTravel_links : (s.modTravel f).links = s.links := rfl
@[simp] theorem State.modTravel_notices : (s.modTravel f).notices = s.notices := rfl
@[simp] theorem State.modTravel_bank : (s.modTravel f).bank = s.bank := rfl
@[simp] theorem State.modTravel_settings : (s.modTravel f).settings = s.settings := rfl
@[simp] theorem State.modTravel_freeCount : (s.modTravel f).freeCount = s.freeCount := rfl
@[simp] theorem State.modTravel_pending : (s.modTravel f).pending = s.pending := rfl
end

section
variable (f : CeilingTable → CeilingTable) (s : State)
@[simp] theorem State.modCeiling_clock : (s.modCeiling f).clock = s.clock := rfl
@[simp] theorem State.modCeiling_periods : (s.modCeiling f).periods = s.periods := rfl
@[simp] theorem State.modCeiling_unit : (s.modCeiling f).unit = s.unit := rfl
@[simp] theorem State.modCeiling_travel : (s.modCeiling f).travel = s.travel := rfl
@[simp] theorem State.modCeiling_ceiling : (s.modCeiling f).ceiling = f s.ceiling := rfl
@[simp] theorem State.modCeiling_gov : (s.modCeiling f).gov = s.gov := rfl
@[simp] theorem State.modCeiling_arms : (s.modCeiling f).arms = s.arms := rfl
@[simp] theorem State.modCeiling_spray : (s.modCeiling f).spray = s.spray := rfl
@[simp] theorem State.modCeiling_scan : (s.modCeiling f).scan = s.scan := rfl
@[simp] theorem State.modCeiling_output : (s.modCeiling f).output = s.output := rfl
@[simp] theorem State.modCeiling_links : (s.modCeiling f).links = s.links := rfl
@[simp] theorem State.modCeiling_notices : (s.modCeiling f).notices = s.notices := rfl
@[simp] theorem State.modCeiling_bank : (s.modCeiling f).bank = s.bank := rfl
@[simp] theorem State.modCeiling_settings : (s.modCeiling f).settings = s.settings := rfl
@[simp] theorem State.modCeiling_freeCount : (s.modCeiling f).freeCount = s.freeCount := rfl
@[simp] theorem State.modCeiling_pending : (s.modCeiling f).pending = s.pending := rfl
end

section
variable (f : Governor → Governor) (s : State)
@[simp] theorem State.modGov_clock : (s.modGov f).clock = s.clock := rfl
@[simp] theorem State.modGov_periods : (s.modGov f).periods = s.periods := rfl
@[simp] theorem State.modGov_unit : (s.modGov f).unit = s.unit := rfl
@[simp] theorem State.modGov_travel : (s.modGov f).travel = s.travel := rfl
@[simp] theorem State.modGov_ceiling : (s.modGov f).ceiling = s.ceiling := rfl
@[simp] theorem State.modGov_gov : (s.modGov f).gov = f s.gov := rfl
@[simp] theorem State.modGov_arms : (s.modGov f).arms = s.arms := rfl
@[simp] theorem State.modGov_spray : (s.modGov f).spray = s.spray := rfl
@[simp] theorem State.modGov_scan : (s.modGov f).scan = s.scan := rfl
@[simp] theorem State.modGov_output : (s.modGov f).output = s.output := rfl
@[simp] theorem State.modGov_links : (s.modGov f).links = s.links := rfl
@[simp] theorem State.modGov_notices : (s.modGov f).notices = s.notices := rfl
@[simp] theorem State.modGov_bank : (s.modGov f).bank = s.bank := rfl
@[simp] theorem State.modGov_settings : (s.modGov f).settings = s.settings := rfl
@[simp] theorem State.modGov_freeCount : (s.modGov f).freeCount = s.freeCount := rfl
@[simp] theorem State.modGov_pending : (s.modGov f).pending = s.pending := rfl
end

section
variable (f : Arms → Arms) (s : State)
@[simp] theorem State.modArms_clock : (s.modArms f).clock = s.clock := rfl
@[simp] theorem State.modArms_periods : (s.modArms f).periods = s.periods := rfl
@[simp] theorem State.modArms_unit : (s.modArms f).unit = s.unit := rfl
@[simp] theorem State.modArms_travel : (s.modArms f).travel = s.travel := rfl
@[simp] theorem State.modArms_ceiling : (s.modArms f).ceiling = s.ceiling := rfl
@[simp] theorem State.modArms_gov : (s.modArms f).gov = s.gov := rfl
@[simp] theorem State.modArms_arms : (s.modArms f).arms = f s.arms := rfl
@[simp] theorem State.modArms_spray : (s.modArms f).spray = s.spray := rfl
@[simp] theorem State.modArms_scan : (s.modArms f).scan = s.scan := rfl
@[simp] theorem State.modArms_output : (s.modArms f).output = s.output := rfl
@[simp] theorem State.modArms_links : (s.modArms f).links = s.links := rfl
@[simp] theorem State.modArms_notices : (s.modArms f).notices = s.notices := rfl
@[simp] theorem State.modArms_bank : (s.modArms f).bank = s.bank := rfl
@[simp] theorem State.modArms_settings : (s.modArms f).settings = s.settings := rfl
@[simp] theorem State.modArms_freeCount : (s.modArms f).freeCount = s.freeCount := rfl
@[simp] theorem State.modArms_pending : (s.modArms f).pending = s.pending := rfl
end

section
variable (f : Spray → Spray) (s : State)
@[simp] theorem State.modSpray_clock : (s.modSpray f).clock = s.clock := rfl
@[simp] theorem State.modSpray_periods : (s.modSpray f).periods = s.periods := rfl
@[simp] theorem State.modSpray_unit : (s.modSpray f).unit = s.unit := rfl
@[simp] theorem State.modSpray_travel : (s.modSpray f).travel = s.travel := rfl
@[simp] theorem State.modSpray_ceiling : (s.modSpray f).ceiling = s.ceiling := rfl
@[simp] theorem State.modSpray_gov : (s.modSpray f).gov = s.gov := rfl
@[simp] theorem State.modSpray_arms : (s.modSpray f).arms = s.arms := rfl
@[simp] theorem State.modSpray_spray : (s.modSpray f).spray = f s.spray := rfl
@[simp] theorem State.modSpray_scan : (s.modSpray f).scan = s.scan := rfl
@[simp] theorem State.modSpray_output : (s.modSpray f).output = s.output := rfl
@[simp] theorem State.modSpray_links : (s.modSpray f).links = s.links := rfl
@[simp] theorem State.modSpray_notices : (s.modSpray f).notices = s.notices := rfl
@[simp] theorem State.modSpray_bank : (s.modSpray f).bank = s.bank := rfl
@[simp] theorem State.modSpray_settings : (s.modSpray f).settings = s.settings := rfl
@[simp] theorem State.modSpray_freeCount : (s.modSpray f).freeCount = s.freeCount := rfl
@[simp] theorem State.modSpray_pending : (s.modSpray f).pending = s.pending := rfl
end

section
variable (f : Scan → Scan) (s : State)
@[simp] theorem State.modScan_clock : (s.modScan f).clock = s.clock := rfl
@[simp] theorem State.modScan_periods : (s.modScan f).periods = s.periods := rfl
@[simp] theorem State.modScan_unit : (s.modScan f).unit = s.unit := rfl
@[simp] theorem State.modScan_travel : (s.modScan f).travel = s.travel := rfl
@[simp] theorem State.modScan_ceiling : (s.modScan f).ceiling = s.ceiling := rfl
@[simp] theorem State.modScan_gov : (s.modScan f).gov = s.gov := rfl
@[simp] theorem State.modScan_arms : (s.modScan f).arms = s.arms := rfl
@[simp] theorem State.modScan_spray : (s.modScan f).spray = s.spray := rfl
@[simp] theorem State.modScan_scan : (s.modScan f).scan = f s.scan := rfl
@[simp] theorem State.modScan_output : (s.modScan f).output = s.output := rfl
@[simp] theorem State.modScan_links : (s.modScan f).links = s.links := rfl
@[simp] theorem State.modScan_notices : (s.modScan f).notices = s.notices := rfl
@[simp] theorem State.modScan_bank : (s.modScan f).bank = s.bank := rfl
@[simp] theorem State.modScan_settings : (s.modScan f).settings = s.settings := rfl
@[simp] theorem State.modScan_freeCount : (s.modScan f).freeCount = s.freeCount := rfl
@[simp] theorem State.modScan_pending : (s.modScan f).pending = s.pending := rfl
end

section
variable (f : Output → Output) (s : State)
@[simp] theorem State.modOutput_clock : (s.modOutput f).clock = s.clock := rfl
@[simp] theorem State.modOutput_periods : (s.modOutput f).periods = s.periods := rfl
@[simp] theorem State.modOutput_unit : (s.modOutput f).unit = s.unit := rfl
@[simp] theorem State.modOutput_travel : (s.modOutput f).travel = s.travel := rfl
@[simp] theorem State.modOutput_ceiling : (s.modOutput f).ceiling = s.ceiling := rfl
@[simp] theorem State.modOutput_gov : (s.modOutput f).gov = s.gov := rfl
@[simp] theorem State.modOutput_arms : (s.modOutput f).arms = s.arms := rfl
@[simp] theorem State.modOutput_spray : (s.modOutput f).spray = s.spray := rfl
@[simp] theorem State.modOutput_scan : (s.modOutput f).scan = s.scan := rfl
@[simp] theorem State.modOutput_output : (s.modOutput f).output = f s.output := rfl
@[simp] theorem State.modOutput_links : (s.modOutput f).links = s.links := rfl
@[simp] theorem State.modOutput_notices : (s.modOutput f).notices = s.notices := rfl
@[simp] theorem State.modOutput_bank : (s.modOutput f).bank = s.bank := rfl
@[simp] theorem State.modOutput_settings : (s.modOutput f).settings = s.settings := rfl
@[simp] theorem State.modOutput_freeCount : (s.modOutput f).freeCount = s.freeCount := rfl
@[simp] theorem State.modOutput_pending : (s.modOutput f).pending = s.pending := rfl
end

section
variable (f : Links → Links) (s : State)
@[simp] theorem State.modLinks_clock : (s.modLinks f).clock = s.clock := rfl
@[simp] theorem State.modLinks_periods : (s.modLinks f).periods = s.periods := rfl
@[simp] theorem State.modLinks_unit : (s.modLinks f).unit = s.unit := rfl
@[simp] theorem State.modLinks_travel : (s.modLinks f).travel = s.travel := rfl
@[simp] theorem State.modLinks_ceiling : (s.modLinks f).ceiling = s.ceiling := rfl
@[simp] theorem State.modLinks_gov : (s.modLinks f).gov = s.gov := rfl
@[simp] theorem State.modLinks_arms : (s.modLinks f).arms = s.arms := rfl
@[simp] theorem State.modLinks_spray : (s.modLinks f).spray = s.spray := rfl
@[simp] theorem State.modLinks_scan : (s.modLinks f).scan = s.scan := rfl
@[simp] theorem State.modLinks_output : (s.modLinks f).output = s.output := rfl
@[simp] theorem State.modLinks_links : (s.modLinks f).links = f s.links := rfl
@[simp] theorem State.modLinks_notices : (s.modLinks f).notices = s.notices := rfl
@[simp] theorem State.modLinks_bank : (s.modLinks f).bank = s.bank := rfl
@[simp] theorem State.modLinks_settings : (s.modLinks f).settings = s.settings := rfl
@[simp] theorem State.modLinks_freeCount : (s.modLinks f).freeCount = s.freeCount := rfl
@[simp] theorem State.modLinks_pending : (s.modLinks f).pending = s.pending := rfl
end

section
variable (f : Notices → Notices) (s : State)
@[simp] theorem State.modNotices_clock : (s.modNotices f).clock = s.clock := rfl
@[simp] theorem State.modNotices_periods : (s.modNotices f).periods = s.periods := rfl
@[simp] theorem State.modNotices_unit : (s.modNotices f).unit = s.unit := rfl
@[simp] theorem State.modNotices_travel : (s.modNotices f).travel = s.travel := rfl
@[simp] theorem State.modNotices_ceiling : (s.modNotices f).ceiling = s.ceiling := rfl
@[simp] theorem State.modNotices_gov : (s.modNotices f).gov = s.gov := rfl
@[simp] theorem State.modNotices_arms : (s.modNotices f).arms = s.arms := rfl
@[simp] theorem State.modNotices_spray : (s.modNotices f).spray = s.spray := rfl
@[simp] theorem State.modNotices_scan : (s.modNotices f).scan = s.scan := rfl
@[simp] theorem State.modNotices_output : (s.modNotices f).output = s.output := rfl
@[simp] theorem State.modNotices_links : (s.modNotices f).links = s.links := rfl
@[simp] theorem State.modNotices_notices : (s.modNotices f).notices = f s.notices := rfl
@[simp] theorem State.modNotices_bank : (s.modNotices f).bank = s.bank := rfl
@[simp] theorem State.modNotices_settings : (s.modNotices f).settings = s.settings := rfl
@[simp] theorem State.modNotices_freeCount : (s.modNotices f).freeCount = s.freeCount := rfl
@[simp] theorem State.modNotices_pending : (s.modNotices f).pending = s.pending := rfl
end

section
variable (f : TallyBank → TallyBank) (s : State)
@[simp] theorem State.modBank_clock : (s.modBank f).clock = s.clock := rfl
@[simp] theorem State.modBank_periods : (s.modBank f).periods = s.periods := rfl
@[simp] theorem State.modBank_unit : (s.modBank f).unit = s.unit := rfl
@[simp] theorem State.modBank_travel : (s.modBank f).travel = s.travel := rfl
@[simp] theorem State.modBank_ceiling : (s.modBank f).ceiling = s.ceiling := rfl
@[simp] theorem State.modBank_gov : (s.modBank f).gov = s.gov := rfl
@[simp] theorem State.modBank_arms : (s.modBank f).arms = s.arms := rfl
@[simp] theorem State.modBank_spray : (s.modBank f).spray = s.spray := rfl
@[simp] theorem State.modBank_scan : (s.modBank f).scan = s.scan := rfl
@[simp] theorem State.modBank_output : (s.modBank f).output = s.output := rfl
@[simp] theorem State.modBank_links : (s.modBank f).links = s.links := rfl
@[simp] theorem State.modBank_notices : (s.modBank f).notices = s.notices := rfl
@[simp] theorem State.modBank_bank : (s.modBank f).bank = f s.bank := rfl
@[simp] theorem State.modBank_settings : (s.modBank f).settings = s.settings := rfl
@[simp] theorem State.modBank_freeCount : (s.modBank f).freeCount = s.freeCount := rfl
@[simp] theorem State.modBank_pending : (s.modBank f).pending = s.pending := rfl
end

section
variable (f : Settings → Settings) (s : State)
@[simp] theorem State.modSettings_clock : (s.modSettings f).clock = s.clock := rfl
@[simp] theorem State.modSettings_periods : (s.modSettings f).periods = s.periods := rfl
@[simp] theorem State.modSettings_unit : (s.modSettings f).unit = s.unit := rfl
@[simp] theorem State.modSettings_travel : (s.modSettings f).travel = s.travel := rfl
@[simp] theorem State.modSettings_ceiling : (s.modSettings f).ceiling = s.ceiling := rfl
@[simp] theorem State.modSettings_gov : (s.modSettings f).gov = s.gov := rfl
@[simp] theorem State.modSettings_arms : (s.modSettings f).arms = s.arms := rfl
@[simp] theorem State.modSettings_spray : (s.modSettings f).spray = s.spray := rfl
@[simp] theorem State.modSettings_scan : (s.modSettings f).scan = s.scan := rfl
@[simp] theorem State.modSettings_output : (s.modSettings f).output = s.output := rfl
@[simp] theorem State.modSettings_links : (s.modSettings f).links = s.links := rfl
@[simp] theorem State.modSettings_notices : (s.modSettings f).notices = s.notices := rfl
@[simp] theorem State.modSettings_bank : (s.modSettings f).bank = s.bank := rfl
@[simp] theorem State.modSettings_settings : (s.modSettings f).settings = f s.settings := rfl
@[simp] theorem State.modSettings_freeCount : (s.modSettings f).freeCount = s.freeCount := rfl
@[simp] theorem State.modSettings_pending : (s.modSettings f).pending = s.pending := rfl
end

section
variable (f : Nat → Nat) (s : State)
@[simp] theorem State.modFreeCount_clock : (s.modFreeCount f).clock = s.clock := rfl
@[simp] theorem State.modFreeCount_periods : (s.modFreeCount f).periods = s.periods := rfl
@[simp] theorem State.modFreeCount_unit : (s.modFreeCount f).unit = s.unit := rfl
@[simp] theorem State.modFreeCount_travel : (s.modFreeCount f).travel = s.travel := rfl
@[simp] theorem State.modFreeCount_ceiling : (s.modFreeCount f).ceiling = s.ceiling := rfl
@[simp] theorem State.modFreeCount_gov : (s.modFreeCount f).gov = s.gov := rfl
@[simp] theorem State.modFreeCount_arms : (s.modFreeCount f).arms = s.arms := rfl
@[simp] theorem State.modFreeCount_spray : (s.modFreeCount f).spray = s.spray := rfl
@[simp] theorem State.modFreeCount_scan : (s.modFreeCount f).scan = s.scan := rfl
@[simp] theorem State.modFreeCount_output : (s.modFreeCount f).output = s.output := rfl
@[simp] theorem State.modFreeCount_links : (s.modFreeCount f).links = s.links := rfl
@[simp] theorem State.modFreeCount_notices : (s.modFreeCount f).notices = s.notices := rfl
@[simp] theorem State.modFreeCount_bank : (s.modFreeCount f).bank = s.bank := rfl
@[simp] theorem State.modFreeCount_settings : (s.modFreeCount f).settings = s.settings := rfl
@[simp] theorem State.modFreeCount_freeCount : (s.modFreeCount f).freeCount = f s.freeCount := rfl
@[simp] theorem State.modFreeCount_pending : (s.modFreeCount f).pending = s.pending := rfl
end

section
variable (f : List Instr → List Instr) (s : State)
@[simp] theorem State.modPending_clock : (s.modPending f).clock = s.clock := rfl
@[simp] theorem State.modPending_periods : (s.modPending f).periods = s.periods := rfl
@[simp] theorem State.modPending_unit : (s.modPending f).unit = s.unit := rfl
@[simp] theorem State.modPending_travel : (s.modPending f).travel = s.travel := rfl
@[simp] theorem State.modPending_ceiling : (s.modPending f).ceiling = s.ceiling := rfl
@[simp] theorem State.modPending_gov : (s.modPending f).gov = s.gov := rfl
@[simp] theorem State.modPending_arms : (s.modPending f).arms = s.arms := rfl
@[simp] theorem State.modPending_spray : (s.modPending f).spray = s.spray := rfl
@[simp] theorem State.modPending_scan : (s.modPending f).scan = s.scan := rfl
@[simp] theorem State.modPending_output : (s.modPending f).output = s.output := rfl
@[simp] theorem State.modPending_links : (s.modPending f).links = s.links := rfl
@[simp] theorem State.modPending_notices : (s.modPending f).notices = s.notices := rfl
@[simp] theorem State.modPending_bank : (s.modPending f).bank = s.bank := rfl
@[simp] theorem State.modPending_settings : (s.modPending f).settings = s.settings := rfl
@[simp] theorem State.modPending_freeCount : (s.modPending f).freeCount = s.freeCount := rfl
@[simp] theorem State.modPending_pending : (s.modPending f).pending = f s.pending := rfl
end

end Sys2Proof.Machine
end

