-- ==== Sys2Proof/Laws/Frames.lean ====
section
/-! SUPPORT. The frames of the shared operations: for each operation, one lemma that names every field of State which it
never changes. A field it does not name is one the operation may change. simp uses each part as a rule of its own. -/

namespace Sys2Proof.Machine

/-! ### Ops -/

section
variable (us : Nat) (s : State)
@[simp] theorem State.elapse_frame :
    (State.elapse us s).periods = s.periods ∧ (State.elapse us s).unit = s.unit ∧
    (State.elapse us s).travel = s.travel ∧ (State.elapse us s).ceiling = s.ceiling ∧
    (State.elapse us s).gov = s.gov ∧ (State.elapse us s).arms = s.arms ∧ (State.elapse us s).spray = s.spray ∧
    (State.elapse us s).scan = s.scan ∧ (State.elapse us s).output = s.output ∧ (State.elapse us s).links = s.links ∧
    (State.elapse us s).notices = s.notices ∧ (State.elapse us s).settings = s.settings ∧
    (State.elapse us s).freeCount = s.freeCount ∧ (State.elapse us s).pending = s.pending := by
  simp only [State.elapse]
  (repeat' split) <;> simp
end

section
variable (k : EventKind) (l : Link) (s : State)
@[simp] theorem State.post_frame :
    (State.post k l s).clock = s.clock ∧ (State.post k l s).periods = s.periods ∧ (State.post k l s).unit = s.unit ∧
    (State.post k l s).travel = s.travel ∧ (State.post k l s).ceiling = s.ceiling ∧ (State.post k l s).gov = s.gov ∧
    (State.post k l s).arms = s.arms ∧ (State.post k l s).spray = s.spray ∧ (State.post k l s).scan = s.scan ∧
    (State.post k l s).output = s.output ∧ (State.post k l s).links = s.links ∧ (State.post k l s).bank = s.bank ∧
    (State.post k l s).settings = s.settings ∧ (State.post k l s).freeCount = s.freeCount ∧
    (State.post k l s).pending = s.pending := by simp [State.post]
end

section
variable (k : EventKind) (s : State)
@[simp] theorem State.postBoth_frame :
    (State.postBoth k s).clock = s.clock ∧ (State.postBoth k s).periods = s.periods ∧
    (State.postBoth k s).unit = s.unit ∧ (State.postBoth k s).travel = s.travel ∧
    (State.postBoth k s).ceiling = s.ceiling ∧ (State.postBoth k s).gov = s.gov ∧
    (State.postBoth k s).arms = s.arms ∧ (State.postBoth k s).spray = s.spray ∧ (State.postBoth k s).scan = s.scan ∧
    (State.postBoth k s).output = s.output ∧ (State.postBoth k s).links = s.links ∧
    (State.postBoth k s).bank = s.bank ∧ (State.postBoth k s).settings = s.settings ∧
    (State.postBoth k s).freeCount = s.freeCount ∧ (State.postBoth k s).pending = s.pending := by simp [State.postBoth]
end

section
variable (t : Tally) (n : Nat) (s : State)
@[simp] theorem State.bumpBy_frame :
    (State.bumpBy t n s).clock = s.clock ∧ (State.bumpBy t n s).periods = s.periods ∧
    (State.bumpBy t n s).unit = s.unit ∧ (State.bumpBy t n s).travel = s.travel ∧
    (State.bumpBy t n s).ceiling = s.ceiling ∧ (State.bumpBy t n s).gov = s.gov ∧
    (State.bumpBy t n s).arms = s.arms ∧ (State.bumpBy t n s).spray = s.spray ∧ (State.bumpBy t n s).scan = s.scan ∧
    (State.bumpBy t n s).output = s.output ∧ (State.bumpBy t n s).links = s.links ∧
    (State.bumpBy t n s).notices = s.notices ∧ (State.bumpBy t n s).settings = s.settings ∧
    (State.bumpBy t n s).freeCount = s.freeCount ∧ (State.bumpBy t n s).pending = s.pending := by simp [State.bumpBy]
end

section
variable (t : Tally) (s : State)
@[simp] theorem State.bump_frame :
    (State.bump t s).clock = s.clock ∧ (State.bump t s).periods = s.periods ∧ (State.bump t s).unit = s.unit ∧
    (State.bump t s).travel = s.travel ∧ (State.bump t s).ceiling = s.ceiling ∧ (State.bump t s).gov = s.gov ∧
    (State.bump t s).arms = s.arms ∧ (State.bump t s).spray = s.spray ∧ (State.bump t s).scan = s.scan ∧
    (State.bump t s).output = s.output ∧ (State.bump t s).links = s.links ∧ (State.bump t s).notices = s.notices ∧
    (State.bump t s).settings = s.settings ∧ (State.bump t s).freeCount = s.freeCount ∧
    (State.bump t s).pending = s.pending := by simp [State.bump]
end

section
variable (code : AlarmCode) (detail : Nat) (s : State)
@[simp] theorem State.raiseAlarm_frame :
    (State.raiseAlarm code detail s).clock = s.clock ∧ (State.raiseAlarm code detail s).periods = s.periods ∧
    (State.raiseAlarm code detail s).unit = s.unit ∧ (State.raiseAlarm code detail s).travel = s.travel ∧
    (State.raiseAlarm code detail s).ceiling = s.ceiling ∧ (State.raiseAlarm code detail s).gov = s.gov ∧
    (State.raiseAlarm code detail s).arms = s.arms ∧ (State.raiseAlarm code detail s).spray = s.spray ∧
    (State.raiseAlarm code detail s).scan = s.scan ∧ (State.raiseAlarm code detail s).output = s.output ∧
    (State.raiseAlarm code detail s).links = s.links ∧ (State.raiseAlarm code detail s).settings = s.settings ∧
    (State.raiseAlarm code detail s).freeCount = s.freeCount ∧ (State.raiseAlarm code detail s).pending = s.pending := by
  simp only [State.raiseAlarm]
  (repeat' split) <;> simp
end

section
variable (code : AlarmCode) (detail : Nat) (s : State)
@[simp] theorem State.alarmGone_frame :
    (State.alarmGone code detail s).clock = s.clock ∧ (State.alarmGone code detail s).periods = s.periods ∧
    (State.alarmGone code detail s).unit = s.unit ∧ (State.alarmGone code detail s).travel = s.travel ∧
    (State.alarmGone code detail s).ceiling = s.ceiling ∧ (State.alarmGone code detail s).gov = s.gov ∧
    (State.alarmGone code detail s).arms = s.arms ∧ (State.alarmGone code detail s).spray = s.spray ∧
    (State.alarmGone code detail s).scan = s.scan ∧ (State.alarmGone code detail s).output = s.output ∧
    (State.alarmGone code detail s).links = s.links ∧ (State.alarmGone code detail s).bank = s.bank ∧
    (State.alarmGone code detail s).settings = s.settings ∧ (State.alarmGone code detail s).freeCount = s.freeCount ∧
    (State.alarmGone code detail s).pending = s.pending := by
  simp only [State.alarmGone]
  (repeat' split) <;> simp
end

/-! ### Ceiling -/

section
variable (f : CeilingTable → CeilingTable) (s : State)
@[simp] theorem State.changeCeiling_frame :
    (State.changeCeiling f s).clock = s.clock ∧ (State.changeCeiling f s).periods = s.periods ∧
    (State.changeCeiling f s).unit = s.unit ∧ (State.changeCeiling f s).travel = s.travel ∧
    (State.changeCeiling f s).gov = s.gov ∧ (State.changeCeiling f s).arms = s.arms ∧
    (State.changeCeiling f s).spray = s.spray ∧ (State.changeCeiling f s).scan = s.scan ∧
    (State.changeCeiling f s).output = s.output ∧ (State.changeCeiling f s).links = s.links ∧
    (State.changeCeiling f s).settings = s.settings ∧ (State.changeCeiling f s).freeCount = s.freeCount ∧
    (State.changeCeiling f s).pending = s.pending := by
  simp only [State.changeCeiling]
  (repeat' split) <;> simp
end

section
variable (src : Source) (cap : Nat) (s : State)
@[simp] theorem State.activate_frame :
    (State.activate src cap s).clock = s.clock ∧ (State.activate src cap s).periods = s.periods ∧
    (State.activate src cap s).unit = s.unit ∧ (State.activate src cap s).travel = s.travel ∧
    (State.activate src cap s).gov = s.gov ∧ (State.activate src cap s).arms = s.arms ∧
    (State.activate src cap s).spray = s.spray ∧ (State.activate src cap s).scan = s.scan ∧
    (State.activate src cap s).output = s.output ∧ (State.activate src cap s).links = s.links ∧
    (State.activate src cap s).settings = s.settings ∧ (State.activate src cap s).freeCount = s.freeCount ∧
    (State.activate src cap s).pending = s.pending := by simp [State.activate]
end

section
variable (src : Source) (cap : Nat) (s : State)
@[simp] theorem State.updateCap_frame :
    (State.updateCap src cap s).clock = s.clock ∧ (State.updateCap src cap s).periods = s.periods ∧
    (State.updateCap src cap s).unit = s.unit ∧ (State.updateCap src cap s).travel = s.travel ∧
    (State.updateCap src cap s).gov = s.gov ∧ (State.updateCap src cap s).arms = s.arms ∧
    (State.updateCap src cap s).spray = s.spray ∧ (State.updateCap src cap s).scan = s.scan ∧
    (State.updateCap src cap s).output = s.output ∧ (State.updateCap src cap s).links = s.links ∧
    (State.updateCap src cap s).settings = s.settings ∧ (State.updateCap src cap s).freeCount = s.freeCount ∧
    (State.updateCap src cap s).pending = s.pending := by simp [State.updateCap]
end

section
variable (src : Source) (s : State)
@[simp] theorem State.deactivate_frame :
    (State.deactivate src s).clock = s.clock ∧ (State.deactivate src s).periods = s.periods ∧
    (State.deactivate src s).unit = s.unit ∧ (State.deactivate src s).travel = s.travel ∧
    (State.deactivate src s).gov = s.gov ∧ (State.deactivate src s).arms = s.arms ∧
    (State.deactivate src s).spray = s.spray ∧ (State.deactivate src s).scan = s.scan ∧
    (State.deactivate src s).output = s.output ∧ (State.deactivate src s).links = s.links ∧
    (State.deactivate src s).settings = s.settings ∧ (State.deactivate src s).freeCount = s.freeCount ∧
    (State.deactivate src s).pending = s.pending := by simp [State.deactivate]
end

section
variable (src : Source) (holds : Bool) (cap : Nat) (s : State)
@[simp] theorem State.keepEntry_frame :
    (State.keepEntry src holds cap s).clock = s.clock ∧ (State.keepEntry src holds cap s).periods = s.periods ∧
    (State.keepEntry src holds cap s).unit = s.unit ∧ (State.keepEntry src holds cap s).travel = s.travel ∧
    (State.keepEntry src holds cap s).gov = s.gov ∧ (State.keepEntry src holds cap s).arms = s.arms ∧
    (State.keepEntry src holds cap s).spray = s.spray ∧ (State.keepEntry src holds cap s).scan = s.scan ∧
    (State.keepEntry src holds cap s).output = s.output ∧ (State.keepEntry src holds cap s).links = s.links ∧
    (State.keepEntry src holds cap s).settings = s.settings ∧
    (State.keepEntry src holds cap s).freeCount = s.freeCount ∧ (State.keepEntry src holds cap s).pending = s.pending := by
  simp only [State.keepEntry]
  (repeat' split) <;> simp
end

section
variable (d : DriveDir) (s : State)
@[simp] theorem State.reportHeld_frame :
    (State.reportHeld d s).clock = s.clock ∧ (State.reportHeld d s).periods = s.periods ∧
    (State.reportHeld d s).unit = s.unit ∧ (State.reportHeld d s).travel = s.travel ∧
    (State.reportHeld d s).gov = s.gov ∧ (State.reportHeld d s).arms = s.arms ∧
    (State.reportHeld d s).spray = s.spray ∧ (State.reportHeld d s).scan = s.scan ∧
    (State.reportHeld d s).output = s.output ∧ (State.reportHeld d s).links = s.links ∧
    (State.reportHeld d s).settings = s.settings ∧ (State.reportHeld d s).freeCount = s.freeCount ∧
    (State.reportHeld d s).pending = s.pending := by
  simp only [State.reportHeld]
  (repeat' split) <;> simp
end

/-! ### Output -/

section
variable (ch : Channel) (f : ChannelRec → ChannelRec) (s : State)
@[simp] theorem State.changeChannel_frame :
    (State.changeChannel ch f s).clock = s.clock ∧ (State.changeChannel ch f s).periods = s.periods ∧
    (State.changeChannel ch f s).unit = s.unit ∧ (State.changeChannel ch f s).travel = s.travel ∧
    (State.changeChannel ch f s).ceiling = s.ceiling ∧ (State.changeChannel ch f s).gov = s.gov ∧
    (State.changeChannel ch f s).arms = s.arms ∧ (State.changeChannel ch f s).spray = s.spray ∧
    (State.changeChannel ch f s).scan = s.scan ∧ (State.changeChannel ch f s).links = s.links ∧
    (State.changeChannel ch f s).notices = s.notices ∧ (State.changeChannel ch f s).bank = s.bank ∧
    (State.changeChannel ch f s).settings = s.settings ∧ (State.changeChannel ch f s).freeCount = s.freeCount ∧
    (State.changeChannel ch f s).pending = s.pending := by simp [State.changeChannel]
end

section
variable (ch : Channel) (v : Nat) (s : State)
@[simp] theorem State.postSetpoint_frame :
    (State.postSetpoint ch v s).clock = s.clock ∧ (State.postSetpoint ch v s).periods = s.periods ∧
    (State.postSetpoint ch v s).unit = s.unit ∧ (State.postSetpoint ch v s).travel = s.travel ∧
    (State.postSetpoint ch v s).ceiling = s.ceiling ∧ (State.postSetpoint ch v s).gov = s.gov ∧
    (State.postSetpoint ch v s).arms = s.arms ∧ (State.postSetpoint ch v s).spray = s.spray ∧
    (State.postSetpoint ch v s).scan = s.scan ∧ (State.postSetpoint ch v s).links = s.links ∧
    (State.postSetpoint ch v s).notices = s.notices ∧ (State.postSetpoint ch v s).bank = s.bank ∧
    (State.postSetpoint ch v s).settings = s.settings ∧ (State.postSetpoint ch v s).freeCount = s.freeCount ∧
    (State.postSetpoint ch v s).pending = s.pending := by simp [State.postSetpoint]
end

section
variable (s : State)
@[simp] theorem State.setDriveCut_frame :
    (State.setDriveCut s).clock = s.clock ∧ (State.setDriveCut s).periods = s.periods ∧
    (State.setDriveCut s).unit = s.unit ∧ (State.setDriveCut s).travel = s.travel ∧
    (State.setDriveCut s).ceiling = s.ceiling ∧ (State.setDriveCut s).gov = s.gov ∧
    (State.setDriveCut s).arms = s.arms ∧ (State.setDriveCut s).spray = s.spray ∧
    (State.setDriveCut s).scan = s.scan ∧ (State.setDriveCut s).links = s.links ∧
    (State.setDriveCut s).notices = s.notices ∧ (State.setDriveCut s).bank = s.bank ∧
    (State.setDriveCut s).settings = s.settings ∧ (State.setDriveCut s).freeCount = s.freeCount ∧
    (State.setDriveCut s).pending = s.pending := by simp [State.setDriveCut]
end

section
variable (s : State)
@[simp] theorem State.setBroomCut_frame :
    (State.setBroomCut s).clock = s.clock ∧ (State.setBroomCut s).periods = s.periods ∧
    (State.setBroomCut s).unit = s.unit ∧ (State.setBroomCut s).travel = s.travel ∧
    (State.setBroomCut s).ceiling = s.ceiling ∧ (State.setBroomCut s).gov = s.gov ∧
    (State.setBroomCut s).arms = s.arms ∧ (State.setBroomCut s).spray = s.spray ∧
    (State.setBroomCut s).scan = s.scan ∧ (State.setBroomCut s).links = s.links ∧
    (State.setBroomCut s).notices = s.notices ∧ (State.setBroomCut s).bank = s.bank ∧
    (State.setBroomCut s).settings = s.settings ∧ (State.setBroomCut s).freeCount = s.freeCount ∧
    (State.setBroomCut s).pending = s.pending := by simp [State.setBroomCut]
end

section
variable (s : State)
@[simp] theorem State.releaseDriveCut_frame :
    (State.releaseDriveCut s).clock = s.clock ∧ (State.releaseDriveCut s).periods = s.periods ∧
    (State.releaseDriveCut s).unit = s.unit ∧ (State.releaseDriveCut s).travel = s.travel ∧
    (State.releaseDriveCut s).ceiling = s.ceiling ∧ (State.releaseDriveCut s).gov = s.gov ∧
    (State.releaseDriveCut s).arms = s.arms ∧ (State.releaseDriveCut s).spray = s.spray ∧
    (State.releaseDriveCut s).scan = s.scan ∧ (State.releaseDriveCut s).links = s.links ∧
    (State.releaseDriveCut s).notices = s.notices ∧ (State.releaseDriveCut s).bank = s.bank ∧
    (State.releaseDriveCut s).settings = s.settings ∧ (State.releaseDriveCut s).freeCount = s.freeCount ∧
    (State.releaseDriveCut s).pending = s.pending := by simp [State.releaseDriveCut]
end

section
variable (s : State)
@[simp] theorem State.releaseBroomCut_frame :
    (State.releaseBroomCut s).clock = s.clock ∧ (State.releaseBroomCut s).periods = s.periods ∧
    (State.releaseBroomCut s).unit = s.unit ∧ (State.releaseBroomCut s).travel = s.travel ∧
    (State.releaseBroomCut s).ceiling = s.ceiling ∧ (State.releaseBroomCut s).gov = s.gov ∧
    (State.releaseBroomCut s).arms = s.arms ∧ (State.releaseBroomCut s).spray = s.spray ∧
    (State.releaseBroomCut s).scan = s.scan ∧ (State.releaseBroomCut s).links = s.links ∧
    (State.releaseBroomCut s).notices = s.notices ∧ (State.releaseBroomCut s).bank = s.bank ∧
    (State.releaseBroomCut s).settings = s.settings ∧ (State.releaseBroomCut s).freeCount = s.freeCount ∧
    (State.releaseBroomCut s).pending = s.pending := by simp [State.releaseBroomCut]
end

section
variable (ch : Channel) (s : State)
@[simp] theorem State.endDirect_frame :
    (State.endDirect ch s).clock = s.clock ∧ (State.endDirect ch s).periods = s.periods ∧
    (State.endDirect ch s).unit = s.unit ∧ (State.endDirect ch s).travel = s.travel ∧
    (State.endDirect ch s).ceiling = s.ceiling ∧ (State.endDirect ch s).gov = s.gov ∧
    (State.endDirect ch s).arms = s.arms ∧ (State.endDirect ch s).spray = s.spray ∧
    (State.endDirect ch s).scan = s.scan ∧ (State.endDirect ch s).links = s.links ∧
    (State.endDirect ch s).notices = s.notices ∧ (State.endDirect ch s).bank = s.bank ∧
    (State.endDirect ch s).settings = s.settings ∧ (State.endDirect ch s).freeCount = s.freeCount ∧
    (State.endDirect ch s).pending = s.pending := by simp [State.endDirect]
end

section
variable (p : Link → Bool) (s : State)
@[simp] theorem State.endDirectWhere_frame :
    (State.endDirectWhere p s).clock = s.clock ∧ (State.endDirectWhere p s).periods = s.periods ∧
    (State.endDirectWhere p s).unit = s.unit ∧ (State.endDirectWhere p s).travel = s.travel ∧
    (State.endDirectWhere p s).ceiling = s.ceiling ∧ (State.endDirectWhere p s).gov = s.gov ∧
    (State.endDirectWhere p s).arms = s.arms ∧ (State.endDirectWhere p s).spray = s.spray ∧
    (State.endDirectWhere p s).scan = s.scan ∧ (State.endDirectWhere p s).links = s.links ∧
    (State.endDirectWhere p s).notices = s.notices ∧ (State.endDirectWhere p s).bank = s.bank ∧
    (State.endDirectWhere p s).settings = s.settings ∧ (State.endDirectWhere p s).freeCount = s.freeCount ∧
    (State.endDirectWhere p s).pending = s.pending := by
  unfold State.endDirectWhere
  generalize allChannels = l
  induction l generalizing s with
  | nil => simp
  | cons c l ih => simp only [List.foldl_cons, ih]; split <;> simp
end

/-! ### Programs -/

section
variable (s : State)
@[simp] theorem State.writeModeCap_frame :
    (State.writeModeCap s).clock = s.clock ∧ (State.writeModeCap s).periods = s.periods ∧
    (State.writeModeCap s).unit = s.unit ∧ (State.writeModeCap s).travel = s.travel ∧
    (State.writeModeCap s).gov = s.gov ∧ (State.writeModeCap s).arms = s.arms ∧
    (State.writeModeCap s).spray = s.spray ∧ (State.writeModeCap s).scan = s.scan ∧
    (State.writeModeCap s).output = s.output ∧ (State.writeModeCap s).links = s.links ∧
    (State.writeModeCap s).settings = s.settings ∧ (State.writeModeCap s).freeCount = s.freeCount ∧
    (State.writeModeCap s).pending = s.pending := by simp [State.writeModeCap]
end

/-! ### Spray -/

section
variable (b : Bar) (f : BarRec → BarRec) (s : State)
@[simp] theorem State.modBar_frame :
    (State.modBar b f s).clock = s.clock ∧ (State.modBar b f s).periods = s.periods ∧
    (State.modBar b f s).unit = s.unit ∧ (State.modBar b f s).travel = s.travel ∧
    (State.modBar b f s).ceiling = s.ceiling ∧ (State.modBar b f s).gov = s.gov ∧
    (State.modBar b f s).arms = s.arms ∧ (State.modBar b f s).scan = s.scan ∧
    (State.modBar b f s).output = s.output ∧ (State.modBar b f s).links = s.links ∧
    (State.modBar b f s).notices = s.notices ∧ (State.modBar b f s).bank = s.bank ∧
    (State.modBar b f s).settings = s.settings ∧ (State.modBar b f s).freeCount = s.freeCount ∧
    (State.modBar b f s).pending = s.pending := by simp [State.modBar]
end

section
variable (b : Bar) (q : Nat) (s : State)
@[simp] theorem State.addShortfall_frame :
    (State.addShortfall b q s).clock = s.clock ∧ (State.addShortfall b q s).periods = s.periods ∧
    (State.addShortfall b q s).unit = s.unit ∧ (State.addShortfall b q s).travel = s.travel ∧
    (State.addShortfall b q s).ceiling = s.ceiling ∧ (State.addShortfall b q s).gov = s.gov ∧
    (State.addShortfall b q s).arms = s.arms ∧ (State.addShortfall b q s).scan = s.scan ∧
    (State.addShortfall b q s).output = s.output ∧ (State.addShortfall b q s).links = s.links ∧
    (State.addShortfall b q s).notices = s.notices ∧ (State.addShortfall b q s).settings = s.settings ∧
    (State.addShortfall b q s).freeCount = s.freeCount ∧ (State.addShortfall b q s).pending = s.pending := by simp [State.addShortfall]
end

section
variable (b : Bar) (s : State)
@[simp] theorem State.deactivateBar_frame :
    (State.deactivateBar b s).clock = s.clock ∧ (State.deactivateBar b s).periods = s.periods ∧
    (State.deactivateBar b s).unit = s.unit ∧ (State.deactivateBar b s).travel = s.travel ∧
    (State.deactivateBar b s).ceiling = s.ceiling ∧ (State.deactivateBar b s).gov = s.gov ∧
    (State.deactivateBar b s).arms = s.arms ∧ (State.deactivateBar b s).scan = s.scan ∧
    (State.deactivateBar b s).links = s.links ∧ (State.deactivateBar b s).notices = s.notices ∧
    (State.deactivateBar b s).bank = s.bank ∧ (State.deactivateBar b s).settings = s.settings ∧
    (State.deactivateBar b s).freeCount = s.freeCount ∧ (State.deactivateBar b s).pending = s.pending := by
  simp only [State.deactivateBar]
  (repeat' split) <;> simp
end

section
variable (s : State) (b : Bar)
@[simp] theorem State.judgeBar_frame :
    (State.judgeBar s b).clock = s.clock ∧ (State.judgeBar s b).periods = s.periods ∧
    (State.judgeBar s b).unit = s.unit ∧ (State.judgeBar s b).travel = s.travel ∧
    (State.judgeBar s b).ceiling = s.ceiling ∧ (State.judgeBar s b).gov = s.gov ∧
    (State.judgeBar s b).arms = s.arms ∧ (State.judgeBar s b).scan = s.scan ∧ (State.judgeBar s b).links = s.links ∧
    (State.judgeBar s b).notices = s.notices ∧ (State.judgeBar s b).bank = s.bank ∧
    (State.judgeBar s b).settings = s.settings ∧ (State.judgeBar s b).freeCount = s.freeCount ∧
    (State.judgeBar s b).pending = s.pending := by
  simp only [State.judgeBar]
  (repeat' split) <;> simp
end

section
variable (before : Bool) (s : State)
@[simp] theorem State.judgePump_frame :
    (State.judgePump before s).clock = s.clock ∧ (State.judgePump before s).periods = s.periods ∧
    (State.judgePump before s).unit = s.unit ∧ (State.judgePump before s).travel = s.travel ∧
    (State.judgePump before s).ceiling = s.ceiling ∧ (State.judgePump before s).gov = s.gov ∧
    (State.judgePump before s).arms = s.arms ∧ (State.judgePump before s).scan = s.scan ∧
    (State.judgePump before s).links = s.links ∧ (State.judgePump before s).notices = s.notices ∧
    (State.judgePump before s).bank = s.bank ∧ (State.judgePump before s).settings = s.settings ∧
    (State.judgePump before s).freeCount = s.freeCount ∧ (State.judgePump before s).pending = s.pending := by
  simp only [State.judgePump]
  (repeat' split) <;> simp
end

section
variable (s : State)
@[simp] theorem State.judgeSprayLimit_frame :
    (State.judgeSprayLimit s).clock = s.clock ∧ (State.judgeSprayLimit s).periods = s.periods ∧
    (State.judgeSprayLimit s).unit = s.unit ∧ (State.judgeSprayLimit s).travel = s.travel ∧
    (State.judgeSprayLimit s).gov = s.gov ∧ (State.judgeSprayLimit s).arms = s.arms ∧
    (State.judgeSprayLimit s).spray = s.spray ∧ (State.judgeSprayLimit s).scan = s.scan ∧
    (State.judgeSprayLimit s).output = s.output ∧ (State.judgeSprayLimit s).links = s.links ∧
    (State.judgeSprayLimit s).settings = s.settings ∧ (State.judgeSprayLimit s).freeCount = s.freeCount ∧
    (State.judgeSprayLimit s).pending = s.pending := by
  simp only [State.judgeSprayLimit]
  (repeat' split) <;> simp
end

section
variable (s : State)
@[simp] theorem State.judgeDrySweep_frame :
    (State.judgeDrySweep s).clock = s.clock ∧ (State.judgeDrySweep s).periods = s.periods ∧
    (State.judgeDrySweep s).unit = s.unit ∧ (State.judgeDrySweep s).travel = s.travel ∧
    (State.judgeDrySweep s).gov = s.gov ∧ (State.judgeDrySweep s).arms = s.arms ∧
    (State.judgeDrySweep s).spray = s.spray ∧ (State.judgeDrySweep s).scan = s.scan ∧
    (State.judgeDrySweep s).output = s.output ∧ (State.judgeDrySweep s).links = s.links ∧
    (State.judgeDrySweep s).settings = s.settings ∧ (State.judgeDrySweep s).freeCount = s.freeCount ∧
    (State.judgeDrySweep s).pending = s.pending := by simp [State.judgeDrySweep]
end

section
variable (s : State)
@[simp] theorem State.judgeBars_frame :
    (State.judgeBars s).clock = s.clock ∧ (State.judgeBars s).periods = s.periods ∧
    (State.judgeBars s).unit = s.unit ∧ (State.judgeBars s).travel = s.travel ∧ (State.judgeBars s).gov = s.gov ∧
    (State.judgeBars s).arms = s.arms ∧ (State.judgeBars s).scan = s.scan ∧ (State.judgeBars s).links = s.links ∧
    (State.judgeBars s).settings = s.settings ∧ (State.judgeBars s).freeCount = s.freeCount ∧
    (State.judgeBars s).pending = s.pending := by
  simp [State.judgeBars, Bar.all]
end

section
variable (s : State) (b : Bar)
@[simp] theorem State.holdOwed_frame :
    (State.holdOwed s b).clock = s.clock ∧ (State.holdOwed s b).periods = s.periods ∧
    (State.holdOwed s b).unit = s.unit ∧ (State.holdOwed s b).travel = s.travel ∧
    (State.holdOwed s b).ceiling = s.ceiling ∧ (State.holdOwed s b).gov = s.gov ∧
    (State.holdOwed s b).arms = s.arms ∧ (State.holdOwed s b).scan = s.scan ∧
    (State.holdOwed s b).output = s.output ∧ (State.holdOwed s b).links = s.links ∧
    (State.holdOwed s b).notices = s.notices ∧ (State.holdOwed s b).settings = s.settings ∧
    (State.holdOwed s b).freeCount = s.freeCount ∧ (State.holdOwed s b).pending = s.pending := by
  simp only [State.holdOwed]
  (repeat' split) <;> simp
end

section
variable (s : State)
@[simp] theorem State.sprayProgramChange_frame :
    (State.sprayProgramChange s).clock = s.clock ∧ (State.sprayProgramChange s).periods = s.periods ∧
    (State.sprayProgramChange s).unit = s.unit ∧ (State.sprayProgramChange s).travel = s.travel ∧
    (State.sprayProgramChange s).gov = s.gov ∧ (State.sprayProgramChange s).arms = s.arms ∧
    (State.sprayProgramChange s).scan = s.scan ∧ (State.sprayProgramChange s).links = s.links ∧
    (State.sprayProgramChange s).settings = s.settings ∧ (State.sprayProgramChange s).freeCount = s.freeCount ∧
    (State.sprayProgramChange s).pending = s.pending := by
  simp [State.sprayProgramChange, Bar.all]
end

section
variable (s : State) (b : Bar)
@[simp] theorem State.barTick_frame :
    (State.barTick s b).clock = s.clock ∧ (State.barTick s b).periods = s.periods ∧
    (State.barTick s b).unit = s.unit ∧ (State.barTick s b).travel = s.travel ∧
    (State.barTick s b).ceiling = s.ceiling ∧ (State.barTick s b).gov = s.gov ∧ (State.barTick s b).arms = s.arms ∧
    (State.barTick s b).scan = s.scan ∧ (State.barTick s b).output = s.output ∧ (State.barTick s b).links = s.links ∧
    (State.barTick s b).notices = s.notices ∧ (State.barTick s b).settings = s.settings ∧
    (State.barTick s b).freeCount = s.freeCount ∧ (State.barTick s b).pending = s.pending := by
  simp only [State.barTick]
  (repeat' split) <;> simp
end

section
variable (s : State)
@[simp] theorem State.sprayTick_frame :
    (State.sprayTick s).clock = s.clock ∧ (State.sprayTick s).periods = s.periods ∧
    (State.sprayTick s).unit = s.unit ∧ (State.sprayTick s).travel = s.travel ∧
    (State.sprayTick s).ceiling = s.ceiling ∧ (State.sprayTick s).gov = s.gov ∧ (State.sprayTick s).arms = s.arms ∧
    (State.sprayTick s).scan = s.scan ∧ (State.sprayTick s).output = s.output ∧ (State.sprayTick s).links = s.links ∧
    (State.sprayTick s).notices = s.notices ∧ (State.sprayTick s).settings = s.settings ∧
    (State.sprayTick s).freeCount = s.freeCount ∧ (State.sprayTick s).pending = s.pending := by
  simp [State.sprayTick, Bar.all]
end

section
variable (b : Bar) (s : State)
@[simp] theorem State.cycleStart_frame :
    (State.cycleStart b s).clock = s.clock ∧ (State.cycleStart b s).periods = s.periods ∧
    (State.cycleStart b s).unit = s.unit ∧ (State.cycleStart b s).travel = s.travel ∧
    (State.cycleStart b s).ceiling = s.ceiling ∧ (State.cycleStart b s).gov = s.gov ∧
    (State.cycleStart b s).arms = s.arms ∧ (State.cycleStart b s).scan = s.scan ∧
    (State.cycleStart b s).links = s.links ∧ (State.cycleStart b s).settings = s.settings ∧
    (State.cycleStart b s).freeCount = s.freeCount ∧ (State.cycleStart b s).pending = s.pending := by
  simp only [State.cycleStart]
  (repeat' split) <;> simp
end

section
variable (s : State)
@[simp] theorem State.setDryLatch_frame :
    (State.setDryLatch s).clock = s.clock ∧ (State.setDryLatch s).periods = s.periods ∧
    (State.setDryLatch s).unit = s.unit ∧ (State.setDryLatch s).travel = s.travel ∧
    (State.setDryLatch s).gov = s.gov ∧ (State.setDryLatch s).arms = s.arms ∧ (State.setDryLatch s).scan = s.scan ∧
    (State.setDryLatch s).links = s.links ∧ (State.setDryLatch s).settings = s.settings ∧
    (State.setDryLatch s).freeCount = s.freeCount ∧ (State.setDryLatch s).pending = s.pending := by
  simp only [State.setDryLatch]
  (repeat' split) <;> simp
end

section
variable (r : Result) (s : State)
@[simp] theorem State.takeLevel_frame :
    (State.takeLevel r s).clock = s.clock ∧ (State.takeLevel r s).periods = s.periods ∧
    (State.takeLevel r s).unit = s.unit ∧ (State.takeLevel r s).travel = s.travel ∧
    (State.takeLevel r s).gov = s.gov ∧ (State.takeLevel r s).arms = s.arms ∧ (State.takeLevel r s).scan = s.scan ∧
    (State.takeLevel r s).links = s.links ∧ (State.takeLevel r s).settings = s.settings ∧
    (State.takeLevel r s).freeCount = s.freeCount ∧ (State.takeLevel r s).pending = s.pending := by
  simp only [State.takeLevel]
  (repeat' split) <;> simp
end

section
variable (s : State)
@[simp] theorem State.pumpPeriod_frame :
    (State.pumpPeriod s).clock = s.clock ∧ (State.pumpPeriod s).periods = s.periods ∧
    (State.pumpPeriod s).unit = s.unit ∧ (State.pumpPeriod s).travel = s.travel ∧ (State.pumpPeriod s).gov = s.gov ∧
    (State.pumpPeriod s).arms = s.arms ∧ (State.pumpPeriod s).scan = s.scan ∧ (State.pumpPeriod s).links = s.links ∧
    (State.pumpPeriod s).settings = s.settings ∧ (State.pumpPeriod s).freeCount = s.freeCount ∧
    (State.pumpPeriod s).pending = s.pending := by
  simp only [State.pumpPeriod]
  (repeat' split) <;> simp
end

/-! ### Modes -/

section
variable (s : State)
@[simp] theorem State.programChanged_frame :
    (State.programChanged s).clock = s.clock ∧ (State.programChanged s).periods = s.periods ∧
    (State.programChanged s).unit = s.unit ∧ (State.programChanged s).travel = s.travel ∧
    (State.programChanged s).gov = s.gov ∧ (State.programChanged s).arms = s.arms ∧
    (State.programChanged s).scan = s.scan ∧ (State.programChanged s).links = s.links ∧
    (State.programChanged s).settings = s.settings ∧ (State.programChanged s).freeCount = s.freeCount ∧
    (State.programChanged s).pending = s.pending := by simp [State.programChanged]
end

section
variable (m : Mode) (s : State)
@[simp] theorem State.setMode_frame :
    (State.setMode m s).clock = s.clock ∧ (State.setMode m s).periods = s.periods ∧
    (State.setMode m s).travel = s.travel ∧ (State.setMode m s).gov = s.gov ∧ (State.setMode m s).arms = s.arms ∧
    (State.setMode m s).scan = s.scan ∧ (State.setMode m s).links = s.links ∧
    (State.setMode m s).settings = s.settings ∧ (State.setMode m s).freeCount = s.freeCount ∧
    (State.setMode m s).pending = s.pending := by simp [State.setMode]
end

section
variable (s : State)
@[simp] theorem State.applySwap_frame :
    (State.applySwap s).clock = s.clock ∧ (State.applySwap s).periods = s.periods ∧
    (State.applySwap s).travel = s.travel ∧ (State.applySwap s).gov = s.gov ∧ (State.applySwap s).arms = s.arms ∧
    (State.applySwap s).scan = s.scan ∧ (State.applySwap s).links = s.links ∧
    (State.applySwap s).settings = s.settings ∧ (State.applySwap s).freeCount = s.freeCount ∧
    (State.applySwap s).pending = s.pending := by
  simp only [State.applySwap]
  (repeat' split) <;> simp
end

section
variable (s : State)
@[simp] theorem State.leaveService_frame :
    (State.leaveService s).clock = s.clock ∧ (State.leaveService s).periods = s.periods ∧
    (State.leaveService s).travel = s.travel ∧ (State.leaveService s).gov = s.gov ∧
    (State.leaveService s).arms = s.arms ∧ (State.leaveService s).scan = s.scan ∧
    (State.leaveService s).links = s.links ∧ (State.leaveService s).settings = s.settings ∧
    (State.leaveService s).freeCount = s.freeCount ∧ (State.leaveService s).pending = s.pending := by simp [State.leaveService]
end

section
variable (s : State)
@[simp] theorem State.reachTransport_frame :
    (State.reachTransport s).clock = s.clock ∧ (State.reachTransport s).periods = s.periods ∧
    (State.reachTransport s).travel = s.travel ∧ (State.reachTransport s).gov = s.gov ∧
    (State.reachTransport s).arms = s.arms ∧ (State.reachTransport s).scan = s.scan ∧
    (State.reachTransport s).links = s.links ∧ (State.reachTransport s).settings = s.settings ∧
    (State.reachTransport s).freeCount = s.freeCount ∧ (State.reachTransport s).pending = s.pending := by simp [State.reachTransport]
end

section
variable (r : Range) (s : State)
@[simp] theorem State.requestRange_frame :
    (State.requestRange r s).clock = s.clock ∧ (State.requestRange r s).periods = s.periods ∧
    (State.requestRange r s).unit = s.unit ∧ (State.requestRange r s).travel = s.travel ∧
    (State.requestRange r s).arms = s.arms ∧ (State.requestRange r s).spray = s.spray ∧
    (State.requestRange r s).scan = s.scan ∧ (State.requestRange r s).output = s.output ∧
    (State.requestRange r s).links = s.links ∧ (State.requestRange r s).settings = s.settings ∧
    (State.requestRange r s).freeCount = s.freeCount ∧ (State.requestRange r s).pending = s.pending := by simp [State.requestRange]
end

section
variable (s : State)
@[simp] theorem State.leavingCheck_frame :
    (State.leavingCheck s).clock = s.clock ∧ (State.leavingCheck s).periods = s.periods ∧
    (State.leavingCheck s).travel = s.travel ∧ (State.leavingCheck s).arms = s.arms ∧
    (State.leavingCheck s).scan = s.scan ∧ (State.leavingCheck s).links = s.links ∧
    (State.leavingCheck s).settings = s.settings ∧ (State.leavingCheck s).freeCount = s.freeCount ∧
    (State.leavingCheck s).pending = s.pending := by
  simp only [State.leavingCheck]
  (repeat' split) <;> simp
end

section
variable (r : Range) (s : State)
@[simp] theorem State.takeRangeDone_frame :
    (State.takeRangeDone r s).clock = s.clock ∧ (State.takeRangeDone r s).periods = s.periods ∧
    (State.takeRangeDone r s).travel = s.travel ∧ (State.takeRangeDone r s).gov = s.gov ∧
    (State.takeRangeDone r s).arms = s.arms ∧ (State.takeRangeDone r s).scan = s.scan ∧
    (State.takeRangeDone r s).links = s.links ∧ (State.takeRangeDone r s).settings = s.settings ∧
    (State.takeRangeDone r s).freeCount = s.freeCount ∧ (State.takeRangeDone r s).pending = s.pending := by
  unfold State.takeRangeDone
  generalize s.unit.mode = m
  by_cases h : s.unit.awaited ≠ some r
  · simp [h]
  · by_cases d : s.arms.allDown = true <;> cases m <;> cases r <;> simp [h, d]
end

section
variable (s : State)
@[simp] theorem State.lapseClaim_frame :
    (State.lapseClaim s).clock = s.clock ∧ (State.lapseClaim s).periods = s.periods ∧
    (State.lapseClaim s).travel = s.travel ∧ (State.lapseClaim s).ceiling = s.ceiling ∧
    (State.lapseClaim s).gov = s.gov ∧ (State.lapseClaim s).arms = s.arms ∧ (State.lapseClaim s).spray = s.spray ∧
    (State.lapseClaim s).scan = s.scan ∧ (State.lapseClaim s).output = s.output ∧
    (State.lapseClaim s).links = s.links ∧ (State.lapseClaim s).bank = s.bank ∧
    (State.lapseClaim s).settings = s.settings ∧ (State.lapseClaim s).freeCount = s.freeCount ∧
    (State.lapseClaim s).pending = s.pending := by
  simp only [State.lapseClaim]
  (repeat' split) <;> simp
end

section
variable (s : State)
@[simp] theorem State.startCycle_frame :
    (State.startCycle s).clock = s.clock ∧ (State.startCycle s).periods = s.periods ∧
    (State.startCycle s).travel = s.travel ∧ (State.startCycle s).ceiling = s.ceiling ∧
    (State.startCycle s).gov = s.gov ∧ (State.startCycle s).arms = s.arms ∧ (State.startCycle s).spray = s.spray ∧
    (State.startCycle s).scan = s.scan ∧ (State.startCycle s).output = s.output ∧
    (State.startCycle s).links = s.links ∧ (State.startCycle s).notices = s.notices ∧
    (State.startCycle s).bank = s.bank ∧ (State.startCycle s).settings = s.settings ∧
    (State.startCycle s).freeCount = s.freeCount ∧ (State.startCycle s).pending = s.pending := by simp [State.startCycle]
end

/-! ### Arms -/

section
variable (a : Arm) (f : ArmRec → ArmRec) (s : State)
@[simp] theorem State.modArm_frame :
    (State.modArm a f s).clock = s.clock ∧ (State.modArm a f s).periods = s.periods ∧
    (State.modArm a f s).unit = s.unit ∧ (State.modArm a f s).travel = s.travel ∧
    (State.modArm a f s).ceiling = s.ceiling ∧ (State.modArm a f s).gov = s.gov ∧
    (State.modArm a f s).spray = s.spray ∧ (State.modArm a f s).scan = s.scan ∧
    (State.modArm a f s).output = s.output ∧ (State.modArm a f s).links = s.links ∧
    (State.modArm a f s).notices = s.notices ∧ (State.modArm a f s).bank = s.bank ∧
    (State.modArm a f s).settings = s.settings ∧ (State.modArm a f s).freeCount = s.freeCount ∧
    (State.modArm a f s).pending = s.pending := by simp [State.modArm]
end

section
variable (a : Arm) (c : Coils) (s : State)
@[simp] theorem State.postLiftLower_frame :
    (State.postLiftLower a c s).clock = s.clock ∧ (State.postLiftLower a c s).periods = s.periods ∧
    (State.postLiftLower a c s).unit = s.unit ∧ (State.postLiftLower a c s).travel = s.travel ∧
    (State.postLiftLower a c s).ceiling = s.ceiling ∧ (State.postLiftLower a c s).gov = s.gov ∧
    (State.postLiftLower a c s).arms = s.arms ∧ (State.postLiftLower a c s).spray = s.spray ∧
    (State.postLiftLower a c s).scan = s.scan ∧ (State.postLiftLower a c s).links = s.links ∧
    (State.postLiftLower a c s).notices = s.notices ∧ (State.postLiftLower a c s).bank = s.bank ∧
    (State.postLiftLower a c s).settings = s.settings ∧ (State.postLiftLower a c s).freeCount = s.freeCount ∧
    (State.postLiftLower a c s).pending = s.pending := by
  simp only [State.postLiftLower]
  (repeat' split) <;> simp
end

section
variable (a : Arm) (v : Nat) (s : State)
@[simp] theorem State.postForce_frame :
    (State.postForce a v s).clock = s.clock ∧ (State.postForce a v s).periods = s.periods ∧
    (State.postForce a v s).unit = s.unit ∧ (State.postForce a v s).travel = s.travel ∧
    (State.postForce a v s).ceiling = s.ceiling ∧ (State.postForce a v s).gov = s.gov ∧
    (State.postForce a v s).spray = s.spray ∧ (State.postForce a v s).scan = s.scan ∧
    (State.postForce a v s).links = s.links ∧ (State.postForce a v s).notices = s.notices ∧
    (State.postForce a v s).bank = s.bank ∧ (State.postForce a v s).settings = s.settings ∧
    (State.postForce a v s).freeCount = s.freeCount ∧ (State.postForce a v s).pending = s.pending := by
  simp only [State.postForce]
  (repeat' split) <;> simp
end

section
variable (a : Arm) (v : Nat) (s : State)
@[simp] theorem State.postRotation_frame :
    (State.postRotation a v s).clock = s.clock ∧ (State.postRotation a v s).periods = s.periods ∧
    (State.postRotation a v s).unit = s.unit ∧ (State.postRotation a v s).travel = s.travel ∧
    (State.postRotation a v s).ceiling = s.ceiling ∧ (State.postRotation a v s).gov = s.gov ∧
    (State.postRotation a v s).spray = s.spray ∧ (State.postRotation a v s).scan = s.scan ∧
    (State.postRotation a v s).links = s.links ∧ (State.postRotation a v s).notices = s.notices ∧
    (State.postRotation a v s).bank = s.bank ∧ (State.postRotation a v s).settings = s.settings ∧
    (State.postRotation a v s).freeCount = s.freeCount ∧ (State.postRotation a v s).pending = s.pending := by simp [State.postRotation]
end

section
variable (a : Arm) (s : State)
@[simp] theorem State.postCoils_frame :
    (State.postCoils a s).clock = s.clock ∧ (State.postCoils a s).periods = s.periods ∧
    (State.postCoils a s).unit = s.unit ∧ (State.postCoils a s).travel = s.travel ∧
    (State.postCoils a s).ceiling = s.ceiling ∧ (State.postCoils a s).gov = s.gov ∧
    (State.postCoils a s).spray = s.spray ∧ (State.postCoils a s).scan = s.scan ∧
    (State.postCoils a s).links = s.links ∧ (State.postCoils a s).notices = s.notices ∧
    (State.postCoils a s).bank = s.bank ∧ (State.postCoils a s).settings = s.settings ∧
    (State.postCoils a s).freeCount = s.freeCount ∧ (State.postCoils a s).pending = s.pending := by simp [State.postCoils]
end

section
variable (s : State)
@[simp] theorem State.judgeArmEntries_frame :
    (State.judgeArmEntries s).clock = s.clock ∧ (State.judgeArmEntries s).periods = s.periods ∧
    (State.judgeArmEntries s).unit = s.unit ∧ (State.judgeArmEntries s).travel = s.travel ∧
    (State.judgeArmEntries s).gov = s.gov ∧ (State.judgeArmEntries s).arms = s.arms ∧
    (State.judgeArmEntries s).spray = s.spray ∧ (State.judgeArmEntries s).scan = s.scan ∧
    (State.judgeArmEntries s).output = s.output ∧ (State.judgeArmEntries s).links = s.links ∧
    (State.judgeArmEntries s).settings = s.settings ∧ (State.judgeArmEntries s).freeCount = s.freeCount ∧
    (State.judgeArmEntries s).pending = s.pending := by simp [State.judgeArmEntries]
end

section
variable (s : State)
@[simp] theorem State.announceArms_frame :
    (State.announceArms s).clock = s.clock ∧ (State.announceArms s).periods = s.periods ∧
    (State.announceArms s).travel = s.travel ∧ (State.announceArms s).arms = s.arms ∧
    (State.announceArms s).scan = s.scan ∧ (State.announceArms s).links = s.links ∧
    (State.announceArms s).settings = s.settings ∧ (State.announceArms s).freeCount = s.freeCount ∧
    (State.announceArms s).pending = s.pending := by simp [State.announceArms]
end

section
variable (a : Arm) (f : ArmRec → ArmRec) (s : State)
@[simp] theorem State.moveArm_frame :
    (State.moveArm a f s).clock = s.clock ∧ (State.moveArm a f s).periods = s.periods ∧
    (State.moveArm a f s).travel = s.travel ∧ (State.moveArm a f s).scan = s.scan ∧
    (State.moveArm a f s).links = s.links ∧ (State.moveArm a f s).settings = s.settings ∧
    (State.moveArm a f s).freeCount = s.freeCount ∧ (State.moveArm a f s).pending = s.pending := by simp [State.moveArm]
end

section
variable (a : Arm) (v : Bool) (s : State)
@[simp] theorem State.markPending_frame :
    (State.markPending a v s).clock = s.clock ∧ (State.markPending a v s).periods = s.periods ∧
    (State.markPending a v s).travel = s.travel ∧ (State.markPending a v s).scan = s.scan ∧
    (State.markPending a v s).links = s.links ∧ (State.markPending a v s).settings = s.settings ∧
    (State.markPending a v s).freeCount = s.freeCount ∧ (State.markPending a v s).pending = s.pending := by simp [State.markPending]
end

section
variable (a : Arm) (s : State)
@[simp] theorem State.startLower_frame :
    (State.startLower a s).clock = s.clock ∧ (State.startLower a s).periods = s.periods ∧
    (State.startLower a s).travel = s.travel ∧ (State.startLower a s).scan = s.scan ∧
    (State.startLower a s).links = s.links ∧ (State.startLower a s).settings = s.settings ∧
    (State.startLower a s).freeCount = s.freeCount ∧ (State.startLower a s).pending = s.pending := by simp [State.startLower]
end

section
variable (a : Arm) (s : State)
@[simp] theorem State.clearHoldDone_frame :
    (State.clearHoldDone a s).clock = s.clock ∧ (State.clearHoldDone a s).periods = s.periods ∧
    (State.clearHoldDone a s).unit = s.unit ∧ (State.clearHoldDone a s).travel = s.travel ∧
    (State.clearHoldDone a s).ceiling = s.ceiling ∧ (State.clearHoldDone a s).gov = s.gov ∧
    (State.clearHoldDone a s).spray = s.spray ∧ (State.clearHoldDone a s).scan = s.scan ∧
    (State.clearHoldDone a s).output = s.output ∧ (State.clearHoldDone a s).links = s.links ∧
    (State.clearHoldDone a s).notices = s.notices ∧ (State.clearHoldDone a s).bank = s.bank ∧
    (State.clearHoldDone a s).settings = s.settings ∧ (State.clearHoldDone a s).freeCount = s.freeCount ∧
    (State.clearHoldDone a s).pending = s.pending := by
  simp only [State.clearHoldDone]
  (repeat' split) <;> simp
end

section
variable (a : Arm) (s : State)
@[simp] theorem State.startRaise_frame :
    (State.startRaise a s).clock = s.clock ∧ (State.startRaise a s).periods = s.periods ∧
    (State.startRaise a s).travel = s.travel ∧ (State.startRaise a s).scan = s.scan ∧
    (State.startRaise a s).links = s.links ∧ (State.startRaise a s).settings = s.settings ∧
    (State.startRaise a s).freeCount = s.freeCount ∧ (State.startRaise a s).pending = s.pending := by simp [State.startRaise]
end

section
variable (a : Arm) (s : State)
@[simp] theorem State.raiseArm_frame :
    (State.raiseArm a s).clock = s.clock ∧ (State.raiseArm a s).periods = s.periods ∧
    (State.raiseArm a s).travel = s.travel ∧ (State.raiseArm a s).scan = s.scan ∧
    (State.raiseArm a s).links = s.links ∧ (State.raiseArm a s).settings = s.settings ∧
    (State.raiseArm a s).freeCount = s.freeCount ∧ (State.raiseArm a s).pending = s.pending := by
  simp only [State.raiseArm]
  (repeat' split) <;> simp
end

section
variable (a : Arm) (s : State)
@[simp] theorem State.stow_frame :
    (State.stow a s).clock = s.clock ∧ (State.stow a s).periods = s.periods ∧ (State.stow a s).travel = s.travel ∧
    (State.stow a s).scan = s.scan ∧ (State.stow a s).links = s.links ∧ (State.stow a s).settings = s.settings ∧
    (State.stow a s).freeCount = s.freeCount ∧ (State.stow a s).pending = s.pending := by simp [State.stow]
end

section
variable (s : State)
@[simp] theorem State.enterLeaving_frame :
    (State.enterLeaving s).clock = s.clock ∧ (State.enterLeaving s).periods = s.periods ∧
    (State.enterLeaving s).travel = s.travel ∧ (State.enterLeaving s).scan = s.scan ∧
    (State.enterLeaving s).links = s.links ∧ (State.enterLeaving s).settings = s.settings ∧
    (State.enterLeaving s).freeCount = s.freeCount ∧ (State.enterLeaving s).pending = s.pending := by
  simp [State.enterLeaving, Arm.all]
end

section
variable (a : Arm) (s : State)
@[simp] theorem State.faultArm_frame :
    (State.faultArm a s).clock = s.clock ∧ (State.faultArm a s).periods = s.periods ∧
    (State.faultArm a s).travel = s.travel ∧ (State.faultArm a s).scan = s.scan ∧
    (State.faultArm a s).links = s.links ∧ (State.faultArm a s).settings = s.settings ∧
    (State.faultArm a s).freeCount = s.freeCount ∧ (State.faultArm a s).pending = s.pending := by
  simp only [State.faultArm]
  (repeat' split) <;> simp
end

section
variable (a : Arm) (s : State)
@[simp] theorem State.startYield_frame :
    (State.startYield a s).clock = s.clock ∧ (State.startYield a s).periods = s.periods ∧
    (State.startYield a s).travel = s.travel ∧ (State.startYield a s).scan = s.scan ∧
    (State.startYield a s).links = s.links ∧ (State.startYield a s).settings = s.settings ∧
    (State.startYield a s).freeCount = s.freeCount ∧ (State.startYield a s).pending = s.pending := by
  simp only [State.startYield]
  (repeat' split) <;> simp
end

section
variable (a : SideArm) (s : State)
@[simp] theorem State.strike_frame :
    (State.strike a s).clock = s.clock ∧ (State.strike a s).periods = s.periods ∧
    (State.strike a s).travel = s.travel ∧ (State.strike a s).scan = s.scan ∧ (State.strike a s).links = s.links ∧
    (State.strike a s).settings = s.settings ∧ (State.strike a s).freeCount = s.freeCount ∧
    (State.strike a s).pending = s.pending := by
  simp only [State.strike]
  (repeat' split) <;> simp
end

section
variable (a : SideArm) (s : State)
@[simp] theorem State.sideDetection_frame :
    (State.sideDetection a s).clock = s.clock ∧ (State.sideDetection a s).periods = s.periods ∧
    (State.sideDetection a s).travel = s.travel ∧ (State.sideDetection a s).scan = s.scan ∧
    (State.sideDetection a s).links = s.links ∧ (State.sideDetection a s).settings = s.settings ∧
    (State.sideDetection a s).freeCount = s.freeCount ∧ (State.sideDetection a s).pending = s.pending := by
  simp only [State.sideDetection]
  (repeat' split) <;> simp
end

section
variable (s : State)
@[simp] theorem State.broomWorks_frame :
    (State.broomWorks s).clock = s.clock ∧ (State.broomWorks s).periods = s.periods ∧
    (State.broomWorks s).travel = s.travel ∧ (State.broomWorks s).scan = s.scan ∧
    (State.broomWorks s).links = s.links ∧ (State.broomWorks s).settings = s.settings ∧
    (State.broomWorks s).freeCount = s.freeCount ∧ (State.broomWorks s).pending = s.pending := by simp [State.broomWorks]
end

section
variable (s : State)
@[simp] theorem State.jam_frame :
    (State.jam s).clock = s.clock ∧ (State.jam s).periods = s.periods ∧ (State.jam s).travel = s.travel ∧
    (State.jam s).scan = s.scan ∧ (State.jam s).links = s.links ∧ (State.jam s).settings = s.settings ∧
    (State.jam s).freeCount = s.freeCount ∧ (State.jam s).pending = s.pending := by
  simp only [State.jam]
  (repeat' split) <;> simp
end

section
variable (s : State)
@[simp] theorem State.seeBroomCut_frame :
    (State.seeBroomCut s).clock = s.clock ∧ (State.seeBroomCut s).periods = s.periods ∧
    (State.seeBroomCut s).unit = s.unit ∧ (State.seeBroomCut s).travel = s.travel ∧
    (State.seeBroomCut s).ceiling = s.ceiling ∧ (State.seeBroomCut s).gov = s.gov ∧
    (State.seeBroomCut s).spray = s.spray ∧ (State.seeBroomCut s).scan = s.scan ∧
    (State.seeBroomCut s).links = s.links ∧ (State.seeBroomCut s).notices = s.notices ∧
    (State.seeBroomCut s).bank = s.bank ∧ (State.seeBroomCut s).settings = s.settings ∧
    (State.seeBroomCut s).freeCount = s.freeCount ∧ (State.seeBroomCut s).pending = s.pending := by simp [State.seeBroomCut]
end

section
variable (cut : Bool) (s : State)
@[simp] theorem State.broomDetection_frame :
    (State.broomDetection cut s).clock = s.clock ∧ (State.broomDetection cut s).periods = s.periods ∧
    (State.broomDetection cut s).travel = s.travel ∧ (State.broomDetection cut s).scan = s.scan ∧
    (State.broomDetection cut s).links = s.links ∧ (State.broomDetection cut s).settings = s.settings ∧
    (State.broomDetection cut s).freeCount = s.freeCount ∧ (State.broomDetection cut s).pending = s.pending := by
  simp only [State.broomDetection]
  (repeat' split) <;> simp
end

section
variable (s : State)
@[simp] theorem State.releaseBroom_frame :
    (State.releaseBroom s).clock = s.clock ∧ (State.releaseBroom s).periods = s.periods ∧
    (State.releaseBroom s).unit = s.unit ∧ (State.releaseBroom s).travel = s.travel ∧
    (State.releaseBroom s).ceiling = s.ceiling ∧ (State.releaseBroom s).gov = s.gov ∧
    (State.releaseBroom s).spray = s.spray ∧ (State.releaseBroom s).scan = s.scan ∧
    (State.releaseBroom s).links = s.links ∧ (State.releaseBroom s).notices = s.notices ∧
    (State.releaseBroom s).bank = s.bank ∧ (State.releaseBroom s).settings = s.settings ∧
    (State.releaseBroom s).freeCount = s.freeCount ∧ (State.releaseBroom s).pending = s.pending := by simp [State.releaseBroom]
end

section
variable (a : Arm) (s : State)
@[simp] theorem State.lowerTest_frame :
    (State.lowerTest a s).clock = s.clock ∧ (State.lowerTest a s).periods = s.periods ∧
    (State.lowerTest a s).travel = s.travel ∧ (State.lowerTest a s).scan = s.scan ∧
    (State.lowerTest a s).links = s.links ∧ (State.lowerTest a s).settings = s.settings ∧
    (State.lowerTest a s).freeCount = s.freeCount ∧ (State.lowerTest a s).pending = s.pending := by
  simp only [State.lowerTest]
  (repeat' split) <;> simp
end

section
variable (a : Arm) (s : State)
@[simp] theorem State.periodicPosts_frame :
    (State.periodicPosts a s).clock = s.clock ∧ (State.periodicPosts a s).periods = s.periods ∧
    (State.periodicPosts a s).unit = s.unit ∧ (State.periodicPosts a s).travel = s.travel ∧
    (State.periodicPosts a s).ceiling = s.ceiling ∧ (State.periodicPosts a s).gov = s.gov ∧
    (State.periodicPosts a s).spray = s.spray ∧ (State.periodicPosts a s).scan = s.scan ∧
    (State.periodicPosts a s).links = s.links ∧ (State.periodicPosts a s).notices = s.notices ∧
    (State.periodicPosts a s).bank = s.bank ∧ (State.periodicPosts a s).settings = s.settings ∧
    (State.periodicPosts a s).freeCount = s.freeCount ∧ (State.periodicPosts a s).pending = s.pending := by
  simp only [State.periodicPosts]
  (repeat' split) <;> simp
end

section
variable (s : State)
@[simp] theorem State.broomPeriod_frame :
    (State.broomPeriod s).clock = s.clock ∧ (State.broomPeriod s).periods = s.periods ∧
    (State.broomPeriod s).travel = s.travel ∧ (State.broomPeriod s).scan = s.scan ∧
    (State.broomPeriod s).links = s.links ∧ (State.broomPeriod s).settings = s.settings ∧
    (State.broomPeriod s).freeCount = s.freeCount ∧ (State.broomPeriod s).pending = s.pending := by
  simp only [State.broomPeriod]
  (repeat' split) <;> simp
end

section
variable (s : State)
@[simp] theorem State.armPeriod_frame :
    (State.armPeriod s).clock = s.clock ∧ (State.armPeriod s).periods = s.periods ∧
    (State.armPeriod s).travel = s.travel ∧ (State.armPeriod s).scan = s.scan ∧ (State.armPeriod s).links = s.links ∧
    (State.armPeriod s).settings = s.settings ∧ (State.armPeriod s).freeCount = s.freeCount ∧
    (State.armPeriod s).pending = s.pending := by
  simp [State.armPeriod, Arm.all]
end

/-! ### Governor -/

section
variable (s : State)
@[simp] theorem State.completeRange_frame :
    (State.completeRange s).clock = s.clock ∧ (State.completeRange s).periods = s.periods ∧
    (State.completeRange s).travel = s.travel ∧ (State.completeRange s).arms = s.arms ∧
    (State.completeRange s).scan = s.scan ∧ (State.completeRange s).links = s.links ∧
    (State.completeRange s).settings = s.settings ∧ (State.completeRange s).freeCount = s.freeCount ∧
    (State.completeRange s).pending = s.pending := by simp [State.completeRange]
end

section
variable (s : State)
@[simp] theorem State.switchRange_frame :
    (State.switchRange s).clock = s.clock ∧ (State.switchRange s).periods = s.periods ∧
    (State.switchRange s).unit = s.unit ∧ (State.switchRange s).travel = s.travel ∧
    (State.switchRange s).ceiling = s.ceiling ∧ (State.switchRange s).arms = s.arms ∧
    (State.switchRange s).spray = s.spray ∧ (State.switchRange s).scan = s.scan ∧
    (State.switchRange s).links = s.links ∧ (State.switchRange s).notices = s.notices ∧
    (State.switchRange s).bank = s.bank ∧ (State.switchRange s).settings = s.settings ∧
    (State.switchRange s).freeCount = s.freeCount ∧ (State.switchRange s).pending = s.pending := by
  simp only [State.switchRange]
  (repeat' split) <;> simp
end

section
variable (s : State)
@[simp] theorem State.shiftTest_frame :
    (State.shiftTest s).clock = s.clock ∧ (State.shiftTest s).periods = s.periods ∧
    (State.shiftTest s).travel = s.travel ∧ (State.shiftTest s).arms = s.arms ∧ (State.shiftTest s).scan = s.scan ∧
    (State.shiftTest s).links = s.links ∧ (State.shiftTest s).settings = s.settings ∧
    (State.shiftTest s).freeCount = s.freeCount ∧ (State.shiftTest s).pending = s.pending := by
  simp only [State.shiftTest]
  (repeat' split) <;> simp
end

section
variable (s : State)
@[simp] theorem State.governorClear_frame :
    (State.governorClear s).clock = s.clock ∧ (State.governorClear s).periods = s.periods ∧
    (State.governorClear s).unit = s.unit ∧ (State.governorClear s).travel = s.travel ∧
    (State.governorClear s).ceiling = s.ceiling ∧ (State.governorClear s).arms = s.arms ∧
    (State.governorClear s).spray = s.spray ∧ (State.governorClear s).scan = s.scan ∧
    (State.governorClear s).output = s.output ∧ (State.governorClear s).links = s.links ∧
    (State.governorClear s).bank = s.bank ∧ (State.governorClear s).settings = s.settings ∧
    (State.governorClear s).freeCount = s.freeCount ∧ (State.governorClear s).pending = s.pending := by
  simp only [State.governorClear]
  (repeat' split) <;> simp
end

section
variable (d : DriveDir) (s : State)
@[simp] theorem State.restart3_frame :
    (State.restart3 d s).clock = s.clock ∧ (State.restart3 d s).periods = s.periods ∧
    (State.restart3 d s).unit = s.unit ∧ (State.restart3 d s).travel = s.travel ∧
    (State.restart3 d s).ceiling = s.ceiling ∧ (State.restart3 d s).arms = s.arms ∧
    (State.restart3 d s).spray = s.spray ∧ (State.restart3 d s).output = s.output ∧
    (State.restart3 d s).links = s.links ∧ (State.restart3 d s).bank = s.bank ∧
    (State.restart3 d s).settings = s.settings ∧ (State.restart3 d s).freeCount = s.freeCount ∧
    (State.restart3 d s).pending = s.pending := by
  simp only [State.restart3]
  (repeat' split) <;> simp
end

section
variable (d : DriveDir) (s : State)
@[simp] theorem State.setHeld_frame :
    (State.setHeld d s).clock = s.clock ∧ (State.setHeld d s).periods = s.periods ∧
    (State.setHeld d s).unit = s.unit ∧ (State.setHeld d s).travel = s.travel ∧ (State.setHeld d s).arms = s.arms ∧
    (State.setHeld d s).spray = s.spray ∧ (State.setHeld d s).output = s.output ∧
    (State.setHeld d s).links = s.links ∧ (State.setHeld d s).settings = s.settings ∧
    (State.setHeld d s).freeCount = s.freeCount ∧ (State.setHeld d s).pending = s.pending := by simp [State.setHeld]
end

section
variable (s : State)
@[simp] theorem State.takeDirection_frame :
    (State.takeDirection s).clock = s.clock ∧ (State.takeDirection s).periods = s.periods ∧
    (State.takeDirection s).unit = s.unit ∧ (State.takeDirection s).travel = s.travel ∧
    (State.takeDirection s).arms = s.arms ∧ (State.takeDirection s).spray = s.spray ∧
    (State.takeDirection s).output = s.output ∧ (State.takeDirection s).links = s.links ∧
    (State.takeDirection s).settings = s.settings ∧ (State.takeDirection s).freeCount = s.freeCount ∧
    (State.takeDirection s).pending = s.pending := by
  simp only [State.takeDirection]
  (repeat' split) <;> simp
end

section
variable (s : State)
@[simp] theorem State.postPump_frame :
    (State.postPump s).clock = s.clock ∧ (State.postPump s).periods = s.periods ∧ (State.postPump s).unit = s.unit ∧
    (State.postPump s).travel = s.travel ∧ (State.postPump s).ceiling = s.ceiling ∧ (State.postPump s).gov = s.gov ∧
    (State.postPump s).arms = s.arms ∧ (State.postPump s).spray = s.spray ∧ (State.postPump s).scan = s.scan ∧
    (State.postPump s).links = s.links ∧ (State.postPump s).notices = s.notices ∧ (State.postPump s).bank = s.bank ∧
    (State.postPump s).settings = s.settings ∧ (State.postPump s).freeCount = s.freeCount ∧
    (State.postPump s).pending = s.pending := by
  simp only [State.postPump]
  (repeat' split) <;> simp
end

section
variable (r : DriveRead) (s : State)
@[simp] theorem State.keepRead_frame :
    (State.keepRead r s).clock = s.clock ∧ (State.keepRead r s).periods = s.periods ∧
    (State.keepRead r s).unit = s.unit ∧ (State.keepRead r s).travel = s.travel ∧
    (State.keepRead r s).ceiling = s.ceiling ∧ (State.keepRead r s).arms = s.arms ∧
    (State.keepRead r s).spray = s.spray ∧ (State.keepRead r s).scan = s.scan ∧
    (State.keepRead r s).output = s.output ∧ (State.keepRead r s).links = s.links ∧
    (State.keepRead r s).notices = s.notices ∧ (State.keepRead r s).bank = s.bank ∧
    (State.keepRead r s).settings = s.settings ∧ (State.keepRead r s).pending = s.pending := by
  simp only [State.keepRead]
  (repeat' split) <;> simp
end

section
variable (s : State)
@[simp] theorem State.releaseDrive_frame :
    (State.releaseDrive s).clock = s.clock ∧ (State.releaseDrive s).periods = s.periods ∧
    (State.releaseDrive s).unit = s.unit ∧ (State.releaseDrive s).travel = s.travel ∧
    (State.releaseDrive s).ceiling = s.ceiling ∧ (State.releaseDrive s).arms = s.arms ∧
    (State.releaseDrive s).spray = s.spray ∧ (State.releaseDrive s).scan = s.scan ∧
    (State.releaseDrive s).links = s.links ∧ (State.releaseDrive s).notices = s.notices ∧
    (State.releaseDrive s).bank = s.bank ∧ (State.releaseDrive s).settings = s.settings ∧
    (State.releaseDrive s).freeCount = s.freeCount ∧ (State.releaseDrive s).pending = s.pending := by
  simp only [State.releaseDrive]
  (repeat' split) <;> simp
end

section
variable (s : State)
@[simp] theorem State.drivePeriod_frame :
    (State.drivePeriod s).clock = s.clock ∧ (State.drivePeriod s).periods = s.periods ∧
    (State.drivePeriod s).travel = s.travel ∧ (State.drivePeriod s).arms = s.arms ∧
    (State.drivePeriod s).links = s.links ∧ (State.drivePeriod s).settings = s.settings ∧
    (State.drivePeriod s).pending = s.pending := by simp [State.drivePeriod]
end

section
variable (cut : Bool) (s : State)
@[simp] theorem State.governorDetection_frame :
    (State.governorDetection cut s).clock = s.clock ∧ (State.governorDetection cut s).periods = s.periods ∧
    (State.governorDetection cut s).unit = s.unit ∧ (State.governorDetection cut s).travel = s.travel ∧
    (State.governorDetection cut s).ceiling = s.ceiling ∧ (State.governorDetection cut s).arms = s.arms ∧
    (State.governorDetection cut s).spray = s.spray ∧ (State.governorDetection cut s).scan = s.scan ∧
    (State.governorDetection cut s).links = s.links ∧ (State.governorDetection cut s).settings = s.settings ∧
    (State.governorDetection cut s).freeCount = s.freeCount ∧ (State.governorDetection cut s).pending = s.pending := by
  simp only [State.governorDetection]
  (repeat' split) <;> simp
end

section
variable (s : State)
@[simp] theorem State.dropDemand_frame :
    (State.dropDemand s).clock = s.clock ∧ (State.dropDemand s).periods = s.periods ∧
    (State.dropDemand s).unit = s.unit ∧ (State.dropDemand s).travel = s.travel ∧
    (State.dropDemand s).ceiling = s.ceiling ∧ (State.dropDemand s).arms = s.arms ∧
    (State.dropDemand s).spray = s.spray ∧ (State.dropDemand s).scan = s.scan ∧
    (State.dropDemand s).output = s.output ∧ (State.dropDemand s).links = s.links ∧
    (State.dropDemand s).notices = s.notices ∧ (State.dropDemand s).bank = s.bank ∧
    (State.dropDemand s).settings = s.settings ∧ (State.dropDemand s).freeCount = s.freeCount ∧
    (State.dropDemand s).pending = s.pending := by simp [State.dropDemand]
end

section
variable (s : State)
@[simp] theorem State.driveChannelFault_frame :
    (State.driveChannelFault s).clock = s.clock ∧ (State.driveChannelFault s).periods = s.periods ∧
    (State.driveChannelFault s).unit = s.unit ∧ (State.driveChannelFault s).travel = s.travel ∧
    (State.driveChannelFault s).gov = s.gov ∧ (State.driveChannelFault s).arms = s.arms ∧
    (State.driveChannelFault s).spray = s.spray ∧ (State.driveChannelFault s).scan = s.scan ∧
    (State.driveChannelFault s).output = s.output ∧ (State.driveChannelFault s).links = s.links ∧
    (State.driveChannelFault s).settings = s.settings ∧ (State.driveChannelFault s).freeCount = s.freeCount ∧
    (State.driveChannelFault s).pending = s.pending := by simp [State.driveChannelFault]
end

section
variable (s : State)
@[simp] theorem State.driveChannelCleared_frame :
    (State.driveChannelCleared s).clock = s.clock ∧ (State.driveChannelCleared s).periods = s.periods ∧
    (State.driveChannelCleared s).unit = s.unit ∧ (State.driveChannelCleared s).travel = s.travel ∧
    (State.driveChannelCleared s).gov = s.gov ∧ (State.driveChannelCleared s).arms = s.arms ∧
    (State.driveChannelCleared s).spray = s.spray ∧ (State.driveChannelCleared s).scan = s.scan ∧
    (State.driveChannelCleared s).output = s.output ∧ (State.driveChannelCleared s).links = s.links ∧
    (State.driveChannelCleared s).settings = s.settings ∧ (State.driveChannelCleared s).freeCount = s.freeCount ∧
    (State.driveChannelCleared s).pending = s.pending := by
  simp only [State.driveChannelCleared]
  (repeat' split) <;> simp
end

/-! ### Scan -/

section
variable (ch : Fin 9) (q : Sequence) (s : State)
@[simp] theorem State.formResult_frame :
    (State.formResult ch q s).clock = s.clock ∧ (State.formResult ch q s).periods = s.periods ∧
    (State.formResult ch q s).unit = s.unit ∧ (State.formResult ch q s).travel = s.travel ∧
    (State.formResult ch q s).ceiling = s.ceiling ∧ (State.formResult ch q s).gov = s.gov ∧
    (State.formResult ch q s).arms = s.arms ∧ (State.formResult ch q s).spray = s.spray ∧
    (State.formResult ch q s).output = s.output ∧ (State.formResult ch q s).links = s.links ∧
    (State.formResult ch q s).notices = s.notices ∧ (State.formResult ch q s).bank = s.bank ∧
    (State.formResult ch q s).settings = s.settings ∧ (State.formResult ch q s).freeCount = s.freeCount ∧
    (State.formResult ch q s).pending = s.pending := by simp [State.formResult]
end

section
variable (i : Fin 4) (s : State)
@[simp] theorem State.detection_frame :
    (State.detection i s).clock = s.clock ∧ (State.detection i s).periods = s.periods ∧
    (State.detection i s).travel = s.travel ∧ (State.detection i s).scan = s.scan ∧
    (State.detection i s).links = s.links ∧ (State.detection i s).settings = s.settings ∧
    (State.detection i s).freeCount = s.freeCount ∧ (State.detection i s).pending = s.pending := by
  simp only [State.detection]
  (repeat' split) <;> simp
end

section
variable (i : Fin 4) (s : State)
@[simp] theorem State.returnToClear_frame :
    (State.returnToClear i s).clock = s.clock ∧ (State.returnToClear i s).periods = s.periods ∧
    (State.returnToClear i s).unit = s.unit ∧ (State.returnToClear i s).travel = s.travel ∧
    (State.returnToClear i s).ceiling = s.ceiling ∧ (State.returnToClear i s).arms = s.arms ∧
    (State.returnToClear i s).spray = s.spray ∧ (State.returnToClear i s).scan = s.scan ∧
    (State.returnToClear i s).output = s.output ∧ (State.returnToClear i s).links = s.links ∧
    (State.returnToClear i s).bank = s.bank ∧ (State.returnToClear i s).settings = s.settings ∧
    (State.returnToClear i s).freeCount = s.freeCount ∧ (State.returnToClear i s).pending = s.pending := by
  simp only [State.returnToClear]
  (repeat' split) <;> simp
end

section
variable (i : Fin 4) (v : Int) (s : State)
@[simp] theorem State.evaluate_frame :
    (State.evaluate i v s).clock = s.clock ∧ (State.evaluate i v s).periods = s.periods ∧
    (State.evaluate i v s).travel = s.travel ∧ (State.evaluate i v s).links = s.links ∧
    (State.evaluate i v s).settings = s.settings ∧ (State.evaluate i v s).freeCount = s.freeCount ∧
    (State.evaluate i v s).pending = s.pending := by
  simp only [State.evaluate]
  (repeat' split) <;> simp
end

section
variable (r : Result) (s : State)
@[simp] theorem State.takePitch_frame :
    (State.takePitch r s).clock = s.clock ∧ (State.takePitch r s).periods = s.periods ∧
    (State.takePitch r s).unit = s.unit ∧ (State.takePitch r s).travel = s.travel ∧
    (State.takePitch r s).gov = s.gov ∧ (State.takePitch r s).arms = s.arms ∧ (State.takePitch r s).spray = s.spray ∧
    (State.takePitch r s).output = s.output ∧ (State.takePitch r s).links = s.links ∧
    (State.takePitch r s).settings = s.settings ∧ (State.takePitch r s).freeCount = s.freeCount ∧
    (State.takePitch r s).pending = s.pending := by
  simp only [State.takePitch]
  (repeat' split) <;> simp
end

section
variable (r : Result) (s : State)
@[simp] theorem State.takeOil_frame :
    (State.takeOil r s).clock = s.clock ∧ (State.takeOil r s).periods = s.periods ∧
    (State.takeOil r s).unit = s.unit ∧ (State.takeOil r s).travel = s.travel ∧ (State.takeOil r s).gov = s.gov ∧
    (State.takeOil r s).arms = s.arms ∧ (State.takeOil r s).spray = s.spray ∧ (State.takeOil r s).scan = s.scan ∧
    (State.takeOil r s).output = s.output ∧ (State.takeOil r s).links = s.links ∧
    (State.takeOil r s).settings = s.settings ∧ (State.takeOil r s).freeCount = s.freeCount ∧
    (State.takeOil r s).pending = s.pending := by
  simp only [State.takeOil]
  (repeat' split) <;> simp
end

section
variable (detail : Fin 4) (s : State)
@[simp] theorem State.faultCause_frame :
    (State.faultCause detail s).clock = s.clock ∧ (State.faultCause detail s).periods = s.periods ∧
    (State.faultCause detail s).unit = s.unit ∧ (State.faultCause detail s).travel = s.travel ∧
    (State.faultCause detail s).gov = s.gov ∧ (State.faultCause detail s).arms = s.arms ∧
    (State.faultCause detail s).spray = s.spray ∧ (State.faultCause detail s).output = s.output ∧
    (State.faultCause detail s).links = s.links ∧ (State.faultCause detail s).settings = s.settings ∧
    (State.faultCause detail s).freeCount = s.freeCount ∧ (State.faultCause detail s).pending = s.pending := by
  simp only [State.faultCause]
  (repeat' split) <;> simp
end

section
variable (s : State)
@[simp] theorem State.endFault_frame :
    (State.endFault s).clock = s.clock ∧ (State.endFault s).periods = s.periods ∧ (State.endFault s).unit = s.unit ∧
    (State.endFault s).travel = s.travel ∧ (State.endFault s).gov = s.gov ∧ (State.endFault s).arms = s.arms ∧
    (State.endFault s).spray = s.spray ∧ (State.endFault s).output = s.output ∧ (State.endFault s).links = s.links ∧
    (State.endFault s).settings = s.settings ∧ (State.endFault s).freeCount = s.freeCount ∧
    (State.endFault s).pending = s.pending := by
  simp only [State.endFault, List.foldl]
  (repeat' split) <;> simp
end

section
variable (r : Reference) (raw : Nat) (s : State)
@[simp] theorem State.judgeReference_frame :
    (State.judgeReference r raw s).clock = s.clock ∧ (State.judgeReference r raw s).periods = s.periods ∧
    (State.judgeReference r raw s).unit = s.unit ∧ (State.judgeReference r raw s).travel = s.travel ∧
    (State.judgeReference r raw s).gov = s.gov ∧ (State.judgeReference r raw s).arms = s.arms ∧
    (State.judgeReference r raw s).spray = s.spray ∧ (State.judgeReference r raw s).output = s.output ∧
    (State.judgeReference r raw s).links = s.links ∧ (State.judgeReference r raw s).settings = s.settings ∧
    (State.judgeReference r raw s).freeCount = s.freeCount ∧ (State.judgeReference r raw s).pending = s.pending := by
  simp only [State.judgeReference]
  (repeat' split) <;> simp
end

section
variable (raw : Nat) (s : State)
@[simp] theorem State.completePass_frame :
    (State.completePass raw s).clock = s.clock ∧ (State.completePass raw s).periods = s.periods ∧
    (State.completePass raw s).unit = s.unit ∧ (State.completePass raw s).travel = s.travel ∧
    (State.completePass raw s).gov = s.gov ∧ (State.completePass raw s).arms = s.arms ∧
    (State.completePass raw s).links = s.links ∧ (State.completePass raw s).settings = s.settings ∧
    (State.completePass raw s).freeCount = s.freeCount ∧ (State.completePass raw s).pending = s.pending := by simp [State.completePass]
end

section
variable (count : Nat) (offset : Int) (span : Nat) (s : State)
@[simp] theorem State.beginSequence_frame :
    (State.beginSequence count offset span s).clock = s.clock ∧
    (State.beginSequence count offset span s).periods = s.periods ∧
    (State.beginSequence count offset span s).unit = s.unit ∧
    (State.beginSequence count offset span s).travel = s.travel ∧
    (State.beginSequence count offset span s).ceiling = s.ceiling ∧
    (State.beginSequence count offset span s).gov = s.gov ∧ (State.beginSequence count offset span s).arms = s.arms ∧
    (State.beginSequence count offset span s).spray = s.spray ∧
    (State.beginSequence count offset span s).output = s.output ∧
    (State.beginSequence count offset span s).links = s.links ∧
    (State.beginSequence count offset span s).notices = s.notices ∧
    (State.beginSequence count offset span s).bank = s.bank ∧
    (State.beginSequence count offset span s).settings = s.settings ∧
    (State.beginSequence count offset span s).freeCount = s.freeCount ∧
    (State.beginSequence count offset span s).pending = s.pending := by simp [State.beginSequence]
end

section
variable (ch : Fin 9) (s : State)
@[simp] theorem State.beginChannel_frame :
    (State.beginChannel ch s).clock = s.clock ∧ (State.beginChannel ch s).periods = s.periods ∧
    (State.beginChannel ch s).unit = s.unit ∧ (State.beginChannel ch s).travel = s.travel ∧
    (State.beginChannel ch s).ceiling = s.ceiling ∧ (State.beginChannel ch s).gov = s.gov ∧
    (State.beginChannel ch s).arms = s.arms ∧ (State.beginChannel ch s).spray = s.spray ∧
    (State.beginChannel ch s).output = s.output ∧ (State.beginChannel ch s).links = s.links ∧
    (State.beginChannel ch s).notices = s.notices ∧ (State.beginChannel ch s).bank = s.bank ∧
    (State.beginChannel ch s).settings = s.settings ∧ (State.beginChannel ch s).freeCount = s.freeCount ∧
    (State.beginChannel ch s).pending = s.pending := by simp [State.beginChannel]
end

section
variable (item : SlowItem) (s : State)
@[simp] theorem State.beginSlow_frame :
    (State.beginSlow item s).clock = s.clock ∧ (State.beginSlow item s).periods = s.periods ∧
    (State.beginSlow item s).unit = s.unit ∧ (State.beginSlow item s).travel = s.travel ∧
    (State.beginSlow item s).ceiling = s.ceiling ∧ (State.beginSlow item s).gov = s.gov ∧
    (State.beginSlow item s).arms = s.arms ∧ (State.beginSlow item s).spray = s.spray ∧
    (State.beginSlow item s).output = s.output ∧ (State.beginSlow item s).links = s.links ∧
    (State.beginSlow item s).notices = s.notices ∧ (State.beginSlow item s).bank = s.bank ∧
    (State.beginSlow item s).settings = s.settings ∧ (State.beginSlow item s).freeCount = s.freeCount ∧
    (State.beginSlow item s).pending = s.pending := by
  simp only [State.beginSlow]
  (repeat' split) <;> simp
end

section
variable (s : State)
@[simp] theorem State.freeConverter_frame :
    (State.freeConverter s).clock = s.clock ∧ (State.freeConverter s).periods = s.periods ∧
    (State.freeConverter s).unit = s.unit ∧ (State.freeConverter s).travel = s.travel ∧
    (State.freeConverter s).ceiling = s.ceiling ∧ (State.freeConverter s).gov = s.gov ∧
    (State.freeConverter s).arms = s.arms ∧ (State.freeConverter s).spray = s.spray ∧
    (State.freeConverter s).output = s.output ∧ (State.freeConverter s).links = s.links ∧
    (State.freeConverter s).notices = s.notices ∧ (State.freeConverter s).bank = s.bank ∧
    (State.freeConverter s).settings = s.settings ∧ (State.freeConverter s).freeCount = s.freeCount ∧
    (State.freeConverter s).pending = s.pending := by simp [State.freeConverter]
end

section
variable (item : SlowItem) (s : State)
@[simp] theorem State.settleItem_frame :
    (State.settleItem item s).clock = s.clock ∧ (State.settleItem item s).periods = s.periods ∧
    (State.settleItem item s).unit = s.unit ∧ (State.settleItem item s).travel = s.travel ∧
    (State.settleItem item s).ceiling = s.ceiling ∧ (State.settleItem item s).gov = s.gov ∧
    (State.settleItem item s).arms = s.arms ∧ (State.settleItem item s).spray = s.spray ∧
    (State.settleItem item s).output = s.output ∧ (State.settleItem item s).links = s.links ∧
    (State.settleItem item s).notices = s.notices ∧ (State.settleItem item s).bank = s.bank ∧
    (State.settleItem item s).settings = s.settings ∧ (State.settleItem item s).freeCount = s.freeCount ∧
    (State.settleItem item s).pending = s.pending := by simp [State.settleItem]
end

section
variable (s : State)
@[simp] theorem State.startFast_frame :
    (State.startFast s).clock = s.clock ∧ (State.startFast s).periods = s.periods ∧
    (State.startFast s).unit = s.unit ∧ (State.startFast s).travel = s.travel ∧
    (State.startFast s).ceiling = s.ceiling ∧ (State.startFast s).gov = s.gov ∧ (State.startFast s).arms = s.arms ∧
    (State.startFast s).spray = s.spray ∧ (State.startFast s).output = s.output ∧
    (State.startFast s).links = s.links ∧ (State.startFast s).notices = s.notices ∧
    (State.startFast s).bank = s.bank ∧ (State.startFast s).settings = s.settings ∧
    (State.startFast s).freeCount = s.freeCount ∧ (State.startFast s).pending = s.pending := by simp [State.startFast]
end

section
variable (s : State)
@[simp] theorem State.endFast_frame :
    (State.endFast s).clock = s.clock ∧ (State.endFast s).periods = s.periods ∧ (State.endFast s).unit = s.unit ∧
    (State.endFast s).travel = s.travel ∧ (State.endFast s).ceiling = s.ceiling ∧ (State.endFast s).gov = s.gov ∧
    (State.endFast s).arms = s.arms ∧ (State.endFast s).spray = s.spray ∧ (State.endFast s).output = s.output ∧
    (State.endFast s).links = s.links ∧ (State.endFast s).notices = s.notices ∧ (State.endFast s).bank = s.bank ∧
    (State.endFast s).settings = s.settings ∧ (State.endFast s).freeCount = s.freeCount ∧
    (State.endFast s).pending = s.pending := by
  simp only [State.endFast]
  (repeat' split) <;> simp
end

section
variable (ch : Fin 6) (q : Sequence) (s : State)
@[simp] theorem State.completeFast_frame :
    (State.completeFast ch q s).clock = s.clock ∧ (State.completeFast ch q s).periods = s.periods ∧
    (State.completeFast ch q s).travel = s.travel ∧ (State.completeFast ch q s).links = s.links ∧
    (State.completeFast ch q s).settings = s.settings ∧ (State.completeFast ch q s).freeCount = s.freeCount ∧
    (State.completeFast ch q s).pending = s.pending := by
  simp only [State.completeFast]
  (repeat' split) <;> simp
end

section
variable (item : SlowItem) (q : Sequence) (s : State)
@[simp] theorem State.completeSlow_frame :
    (State.completeSlow item q s).clock = s.clock ∧ (State.completeSlow item q s).periods = s.periods ∧
    (State.completeSlow item q s).unit = s.unit ∧ (State.completeSlow item q s).travel = s.travel ∧
    (State.completeSlow item q s).gov = s.gov ∧ (State.completeSlow item q s).arms = s.arms ∧
    (State.completeSlow item q s).links = s.links ∧ (State.completeSlow item q s).settings = s.settings ∧
    (State.completeSlow item q s).freeCount = s.freeCount ∧ (State.completeSlow item q s).pending = s.pending := by
  simp only [State.completeSlow]
  (repeat' split) <;> simp
end

section
variable (code : Nat) (s : State)
@[simp] theorem State.addCode_frame :
    (State.addCode code s).clock = s.clock ∧ (State.addCode code s).periods = s.periods ∧
    (State.addCode code s).travel = s.travel ∧ (State.addCode code s).links = s.links ∧
    (State.addCode code s).settings = s.settings ∧ (State.addCode code s).freeCount = s.freeCount ∧
    (State.addCode code s).pending = s.pending := by
  simp only [State.addCode]
  (repeat' split) <;> simp
end

/-! ### Faults -/

section
variable (b : Bar) (v : Bool) (s : State)
@[simp] theorem State.valveFault_frame :
    (State.valveFault b v s).clock = s.clock ∧ (State.valveFault b v s).periods = s.periods ∧
    (State.valveFault b v s).unit = s.unit ∧ (State.valveFault b v s).travel = s.travel ∧
    (State.valveFault b v s).gov = s.gov ∧ (State.valveFault b v s).arms = s.arms ∧
    (State.valveFault b v s).scan = s.scan ∧ (State.valveFault b v s).links = s.links ∧
    (State.valveFault b v s).settings = s.settings ∧ (State.valveFault b v s).freeCount = s.freeCount ∧
    (State.valveFault b v s).pending = s.pending := by simp [State.valveFault]
end

section
variable (ch : Channel) (s : State)
@[simp] theorem State.reportFault_frame :
    (State.reportFault ch s).clock = s.clock ∧ (State.reportFault ch s).periods = s.periods ∧
    (State.reportFault ch s).travel = s.travel ∧ (State.reportFault ch s).scan = s.scan ∧
    (State.reportFault ch s).links = s.links ∧ (State.reportFault ch s).settings = s.settings ∧
    (State.reportFault ch s).freeCount = s.freeCount ∧ (State.reportFault ch s).pending = s.pending := by
  simp only [State.reportFault]
  (repeat' split) <;> simp
end

section
variable (ch : Channel) (s : State)
@[simp] theorem State.reportCleared_frame :
    (State.reportCleared ch s).clock = s.clock ∧ (State.reportCleared ch s).periods = s.periods ∧
    (State.reportCleared ch s).unit = s.unit ∧ (State.reportCleared ch s).travel = s.travel ∧
    (State.reportCleared ch s).gov = s.gov ∧ (State.reportCleared ch s).arms = s.arms ∧
    (State.reportCleared ch s).scan = s.scan ∧ (State.reportCleared ch s).links = s.links ∧
    (State.reportCleared ch s).settings = s.settings ∧ (State.reportCleared ch s).freeCount = s.freeCount ∧
    (State.reportCleared ch s).pending = s.pending := by
  simp only [State.reportCleared]
  (repeat' split) <;> simp
end

section
variable (ch : Channel) (kind : FaultKind) (s : State)
@[simp] theorem State.enterFault_frame :
    (State.enterFault ch kind s).clock = s.clock ∧ (State.enterFault ch kind s).periods = s.periods ∧
    (State.enterFault ch kind s).travel = s.travel ∧ (State.enterFault ch kind s).scan = s.scan ∧
    (State.enterFault ch kind s).links = s.links ∧ (State.enterFault ch kind s).settings = s.settings ∧
    (State.enterFault ch kind s).freeCount = s.freeCount ∧ (State.enterFault ch kind s).pending = s.pending := by simp [State.enterFault]
end

section
variable (ch : Channel) (s : State)
@[simp] theorem State.leaveFault_frame :
    (State.leaveFault ch s).clock = s.clock ∧ (State.leaveFault ch s).periods = s.periods ∧
    (State.leaveFault ch s).unit = s.unit ∧ (State.leaveFault ch s).travel = s.travel ∧
    (State.leaveFault ch s).gov = s.gov ∧ (State.leaveFault ch s).arms = s.arms ∧
    (State.leaveFault ch s).scan = s.scan ∧ (State.leaveFault ch s).links = s.links ∧
    (State.leaveFault ch s).settings = s.settings ∧ (State.leaveFault ch s).freeCount = s.freeCount ∧
    (State.leaveFault ch s).pending = s.pending := by simp [State.leaveFault]
end

section
variable (x : Samples) (s : State) (ch : Channel)
@[simp] theorem State.sampleChannel_frame :
    (State.sampleChannel x s ch).clock = s.clock ∧ (State.sampleChannel x s ch).periods = s.periods ∧
    (State.sampleChannel x s ch).travel = s.travel ∧ (State.sampleChannel x s ch).scan = s.scan ∧
    (State.sampleChannel x s ch).links = s.links ∧ (State.sampleChannel x s ch).settings = s.settings ∧
    (State.sampleChannel x s ch).freeCount = s.freeCount ∧ (State.sampleChannel x s ch).pending = s.pending := by
  simp only [State.sampleChannel]
  (repeat' split) <;> simp
end

section
variable (x : Samples) (s : State)
@[simp] theorem State.sampleAll_frame :
    (State.sampleAll x s).clock = s.clock ∧ (State.sampleAll x s).periods = s.periods ∧
    (State.sampleAll x s).travel = s.travel ∧ (State.sampleAll x s).scan = s.scan ∧
    (State.sampleAll x s).links = s.links ∧ (State.sampleAll x s).settings = s.settings ∧
    (State.sampleAll x s).freeCount = s.freeCount ∧ (State.sampleAll x s).pending = s.pending := by
  unfold State.sampleAll
  generalize allChannels = l
  induction l generalizing s with
  | nil => simp
  | cons c l ih => simp [ih]
end

/-! ### Travel -/

section
variable (w : Wheel) (f : WheelRec → WheelRec) (s : State)
@[simp] theorem State.modWheel_frame :
    (State.modWheel w f s).clock = s.clock ∧ (State.modWheel w f s).periods = s.periods ∧
    (State.modWheel w f s).unit = s.unit ∧ (State.modWheel w f s).ceiling = s.ceiling ∧
    (State.modWheel w f s).gov = s.gov ∧ (State.modWheel w f s).arms = s.arms ∧
    (State.modWheel w f s).spray = s.spray ∧ (State.modWheel w f s).scan = s.scan ∧
    (State.modWheel w f s).output = s.output ∧ (State.modWheel w f s).links = s.links ∧
    (State.modWheel w f s).notices = s.notices ∧ (State.modWheel w f s).bank = s.bank ∧
    (State.modWheel w f s).settings = s.settings ∧ (State.modWheel w f s).freeCount = s.freeCount ∧
    (State.modWheel w f s).pending = s.pending := by simp [State.modWheel]
end

section
variable (s : State)
@[simp] theorem State.lapseWindow_frame :
    (State.lapseWindow s).clock = s.clock ∧ (State.lapseWindow s).periods = s.periods ∧
    (State.lapseWindow s).unit = s.unit ∧ (State.lapseWindow s).travel = s.travel ∧
    (State.lapseWindow s).ceiling = s.ceiling ∧ (State.lapseWindow s).gov = s.gov ∧
    (State.lapseWindow s).arms = s.arms ∧ (State.lapseWindow s).spray = s.spray ∧
    (State.lapseWindow s).scan = s.scan ∧ (State.lapseWindow s).output = s.output ∧
    (State.lapseWindow s).bank = s.bank ∧ (State.lapseWindow s).settings = s.settings ∧
    (State.lapseWindow s).freeCount = s.freeCount ∧ (State.lapseWindow s).pending = s.pending := by
  simp only [State.lapseWindow]
  (repeat' split) <;> simp
end

section
variable (s : State)
@[simp] theorem State.formGround_frame :
    (State.formGround s).clock = s.clock ∧ (State.formGround s).periods = s.periods ∧
    (State.formGround s).unit = s.unit ∧ (State.formGround s).ceiling = s.ceiling ∧
    (State.formGround s).gov = s.gov ∧ (State.formGround s).arms = s.arms ∧ (State.formGround s).spray = s.spray ∧
    (State.formGround s).scan = s.scan ∧ (State.formGround s).output = s.output ∧
    (State.formGround s).bank = s.bank ∧ (State.formGround s).settings = s.settings ∧
    (State.formGround s).freeCount = s.freeCount ∧ (State.formGround s).pending = s.pending := by
  simp only [State.formGround]
  (repeat' split) <;> simp
end

section
variable (s : State)
@[simp] theorem State.stopSlip_frame :
    (State.stopSlip s).clock = s.clock ∧ (State.stopSlip s).periods = s.periods ∧ (State.stopSlip s).unit = s.unit ∧
    (State.stopSlip s).gov = s.gov ∧ (State.stopSlip s).arms = s.arms ∧ (State.stopSlip s).spray = s.spray ∧
    (State.stopSlip s).scan = s.scan ∧ (State.stopSlip s).output = s.output ∧ (State.stopSlip s).links = s.links ∧
    (State.stopSlip s).settings = s.settings ∧ (State.stopSlip s).freeCount = s.freeCount ∧
    (State.stopSlip s).pending = s.pending := by simp [State.stopSlip]
end

section
variable (s : State)
@[simp] theorem State.slipDetected_frame :
    (State.slipDetected s).clock = s.clock ∧ (State.slipDetected s).periods = s.periods ∧
    (State.slipDetected s).unit = s.unit ∧ (State.slipDetected s).gov = s.gov ∧
    (State.slipDetected s).arms = s.arms ∧ (State.slipDetected s).spray = s.spray ∧
    (State.slipDetected s).scan = s.scan ∧ (State.slipDetected s).output = s.output ∧
    (State.slipDetected s).settings = s.settings ∧ (State.slipDetected s).freeCount = s.freeCount ∧
    (State.slipDetected s).pending = s.pending := by
  simp only [State.slipDetected]
  (repeat' split) <;> simp
end

section
variable (s : State)
@[simp] theorem State.checkWatch_frame :
    (State.checkWatch s).clock = s.clock ∧ (State.checkWatch s).periods = s.periods ∧
    (State.checkWatch s).unit = s.unit ∧ (State.checkWatch s).ceiling = s.ceiling ∧
    (State.checkWatch s).gov = s.gov ∧ (State.checkWatch s).arms = s.arms ∧ (State.checkWatch s).spray = s.spray ∧
    (State.checkWatch s).scan = s.scan ∧ (State.checkWatch s).output = s.output ∧
    (State.checkWatch s).links = s.links ∧ (State.checkWatch s).notices = s.notices ∧
    (State.checkWatch s).bank = s.bank ∧ (State.checkWatch s).settings = s.settings ∧
    (State.checkWatch s).freeCount = s.freeCount ∧ (State.checkWatch s).pending = s.pending := by
  simp only [State.checkWatch]
  (repeat' split) <;> simp
end

section
variable (w : Wheel) (s : State)
@[simp] theorem State.beginSensorFault_frame :
    (State.beginSensorFault w s).clock = s.clock ∧ (State.beginSensorFault w s).periods = s.periods ∧
    (State.beginSensorFault w s).unit = s.unit ∧ (State.beginSensorFault w s).gov = s.gov ∧
    (State.beginSensorFault w s).arms = s.arms ∧ (State.beginSensorFault w s).spray = s.spray ∧
    (State.beginSensorFault w s).scan = s.scan ∧ (State.beginSensorFault w s).output = s.output ∧
    (State.beginSensorFault w s).settings = s.settings ∧ (State.beginSensorFault w s).freeCount = s.freeCount ∧
    (State.beginSensorFault w s).pending = s.pending := by
  simp only [State.beginSensorFault]
  (repeat' split) <;> simp
end

section
variable (w : Wheel) (s : State)
@[simp] theorem State.endSensorFault_frame :
    (State.endSensorFault w s).clock = s.clock ∧ (State.endSensorFault w s).periods = s.periods ∧
    (State.endSensorFault w s).unit = s.unit ∧ (State.endSensorFault w s).ceiling = s.ceiling ∧
    (State.endSensorFault w s).gov = s.gov ∧ (State.endSensorFault w s).arms = s.arms ∧
    (State.endSensorFault w s).spray = s.spray ∧ (State.endSensorFault w s).scan = s.scan ∧
    (State.endSensorFault w s).output = s.output ∧ (State.endSensorFault w s).bank = s.bank ∧
    (State.endSensorFault w s).settings = s.settings ∧ (State.endSensorFault w s).freeCount = s.freeCount ∧
    (State.endSensorFault w s).pending = s.pending := by simp [State.endSensorFault]
end

section
variable (s : State) (a : Arm)
@[simp] theorem State.sweptTick_frame :
    (State.sweptTick s a).clock = s.clock ∧ (State.sweptTick s a).periods = s.periods ∧
    (State.sweptTick s a).unit = s.unit ∧ (State.sweptTick s a).travel = s.travel ∧
    (State.sweptTick s a).ceiling = s.ceiling ∧ (State.sweptTick s a).gov = s.gov ∧
    (State.sweptTick s a).arms = s.arms ∧ (State.sweptTick s a).spray = s.spray ∧
    (State.sweptTick s a).scan = s.scan ∧ (State.sweptTick s a).output = s.output ∧
    (State.sweptTick s a).links = s.links ∧ (State.sweptTick s a).notices = s.notices ∧
    (State.sweptTick s a).settings = s.settings ∧ (State.sweptTick s a).freeCount = s.freeCount ∧
    (State.sweptTick s a).pending = s.pending := by
  simp only [State.sweptTick]
  (repeat' split) <;> simp
end

section
variable (s : State)
@[simp] theorem State.tick_frame :
    (State.tick s).clock = s.clock ∧ (State.tick s).periods = s.periods ∧ (State.tick s).unit = s.unit ∧
    (State.tick s).ceiling = s.ceiling ∧ (State.tick s).gov = s.gov ∧ (State.tick s).arms = s.arms ∧
    (State.tick s).scan = s.scan ∧ (State.tick s).output = s.output ∧ (State.tick s).links = s.links ∧
    (State.tick s).notices = s.notices ∧ (State.tick s).settings = s.settings ∧
    (State.tick s).freeCount = s.freeCount ∧ (State.tick s).pending = s.pending := by
  simp [State.tick, Arm.all]
end

section
variable (n : Nat) (s : State)
@[simp] theorem State.ticks_frame :
    (State.ticks n s).clock = s.clock ∧ (State.ticks n s).periods = s.periods ∧ (State.ticks n s).unit = s.unit ∧
    (State.ticks n s).ceiling = s.ceiling ∧ (State.ticks n s).gov = s.gov ∧ (State.ticks n s).arms = s.arms ∧
    (State.ticks n s).scan = s.scan ∧ (State.ticks n s).output = s.output ∧ (State.ticks n s).links = s.links ∧
    (State.ticks n s).notices = s.notices ∧ (State.ticks n s).settings = s.settings ∧
    (State.ticks n s).freeCount = s.freeCount ∧ (State.ticks n s).pending = s.pending := by
  induction n generalizing s with
  | zero => simp [State.ticks]
  | succ n ih => simp [State.ticks, ih]
end

section
variable (w : Wheel) (s : State)
@[simp] theorem State.addDistance_frame :
    (State.addDistance w s).clock = s.clock ∧ (State.addDistance w s).periods = s.periods ∧
    (State.addDistance w s).unit = s.unit ∧ (State.addDistance w s).ceiling = s.ceiling ∧
    (State.addDistance w s).gov = s.gov ∧ (State.addDistance w s).arms = s.arms ∧
    (State.addDistance w s).scan = s.scan ∧ (State.addDistance w s).output = s.output ∧
    (State.addDistance w s).links = s.links ∧ (State.addDistance w s).notices = s.notices ∧
    (State.addDistance w s).settings = s.settings ∧ (State.addDistance w s).freeCount = s.freeCount ∧
    (State.addDistance w s).pending = s.pending := by simp [State.addDistance]
end

section
variable (w : Wheel) (dir : Dir) (s : State)
@[simp] theorem State.applyEdge_frame :
    (State.applyEdge w dir s).clock = s.clock ∧ (State.applyEdge w dir s).periods = s.periods ∧
    (State.applyEdge w dir s).unit = s.unit ∧ (State.applyEdge w dir s).gov = s.gov ∧
    (State.applyEdge w dir s).arms = s.arms ∧ (State.applyEdge w dir s).spray = s.spray ∧
    (State.applyEdge w dir s).scan = s.scan ∧ (State.applyEdge w dir s).output = s.output ∧
    (State.applyEdge w dir s).settings = s.settings ∧ (State.applyEdge w dir s).freeCount = s.freeCount ∧
    (State.applyEdge w dir s).pending = s.pending := by
  simp only [State.applyEdge]
  (repeat' split) <;> simp
end

section
variable (w : Wheel) (dir : Dir) (s : State)
@[simp] theorem State.acceptEdge_frame :
    (State.acceptEdge w dir s).clock = s.clock ∧ (State.acceptEdge w dir s).periods = s.periods ∧
    (State.acceptEdge w dir s).gov = s.gov ∧ (State.acceptEdge w dir s).arms = s.arms ∧
    (State.acceptEdge w dir s).scan = s.scan ∧ (State.acceptEdge w dir s).settings = s.settings ∧
    (State.acceptEdge w dir s).freeCount = s.freeCount ∧ (State.acceptEdge w dir s).pending = s.pending := by
  simp only [State.acceptEdge]
  (repeat' split) <;> simp
end

section
variable (s : State) (w : Wheel)
@[simp] theorem State.decayWheel_frame :
    (State.decayWheel s w).clock = s.clock ∧ (State.decayWheel s w).periods = s.periods ∧
    (State.decayWheel s w).unit = s.unit ∧ (State.decayWheel s w).ceiling = s.ceiling ∧
    (State.decayWheel s w).gov = s.gov ∧ (State.decayWheel s w).arms = s.arms ∧
    (State.decayWheel s w).spray = s.spray ∧ (State.decayWheel s w).scan = s.scan ∧
    (State.decayWheel s w).output = s.output ∧ (State.decayWheel s w).bank = s.bank ∧
    (State.decayWheel s w).settings = s.settings ∧ (State.decayWheel s w).freeCount = s.freeCount ∧
    (State.decayWheel s w).pending = s.pending := by
  simp only [State.decayWheel]
  (repeat' split) <;> simp
end

section
variable (s : State)
@[simp] theorem State.travelUpdate_frame :
    (State.travelUpdate s).clock = s.clock ∧ (State.travelUpdate s).periods = s.periods ∧
    (State.travelUpdate s).unit = s.unit ∧ (State.travelUpdate s).gov = s.gov ∧
    (State.travelUpdate s).arms = s.arms ∧ (State.travelUpdate s).spray = s.spray ∧
    (State.travelUpdate s).scan = s.scan ∧ (State.travelUpdate s).output = s.output ∧
    (State.travelUpdate s).settings = s.settings ∧ (State.travelUpdate s).freeCount = s.freeCount ∧
    (State.travelUpdate s).pending = s.pending := by
  simp only [State.travelUpdate]
  (repeat' split) <;> simp
end

section
variable (w : Wheel) (s : State)
@[simp] theorem State.pulseTimeout_frame :
    (State.pulseTimeout w s).clock = s.clock ∧ (State.pulseTimeout w s).periods = s.periods ∧
    (State.pulseTimeout w s).unit = s.unit ∧ (State.pulseTimeout w s).ceiling = s.ceiling ∧
    (State.pulseTimeout w s).gov = s.gov ∧ (State.pulseTimeout w s).arms = s.arms ∧
    (State.pulseTimeout w s).spray = s.spray ∧ (State.pulseTimeout w s).scan = s.scan ∧
    (State.pulseTimeout w s).output = s.output ∧ (State.pulseTimeout w s).bank = s.bank ∧
    (State.pulseTimeout w s).settings = s.settings ∧ (State.pulseTimeout w s).freeCount = s.freeCount ∧
    (State.pulseTimeout w s).pending = s.pending := by
  simp only [State.pulseTimeout]
  (repeat' split) <;> simp
end

/-! ### Links -/

section
variable (l : Link) (f : LinkRec → LinkRec) (s : State)
@[simp] theorem State.modLink_frame :
    (State.modLink l f s).clock = s.clock ∧ (State.modLink l f s).periods = s.periods ∧
    (State.modLink l f s).unit = s.unit ∧ (State.modLink l f s).travel = s.travel ∧
    (State.modLink l f s).ceiling = s.ceiling ∧ (State.modLink l f s).gov = s.gov ∧
    (State.modLink l f s).arms = s.arms ∧ (State.modLink l f s).spray = s.spray ∧
    (State.modLink l f s).scan = s.scan ∧ (State.modLink l f s).output = s.output ∧
    (State.modLink l f s).notices = s.notices ∧ (State.modLink l f s).bank = s.bank ∧
    (State.modLink l f s).settings = s.settings ∧ (State.modLink l f s).freeCount = s.freeCount ∧
    (State.modLink l f s).pending = s.pending := by simp [State.modLink]
end

section
variable (h : Head) (s : State)
@[simp] theorem State.receive_frame :
    (State.receive h s).clock = s.clock ∧ (State.receive h s).periods = s.periods ∧
    (State.receive h s).unit = s.unit ∧ (State.receive h s).travel = s.travel ∧ (State.receive h s).gov = s.gov ∧
    (State.receive h s).arms = s.arms ∧ (State.receive h s).spray = s.spray ∧ (State.receive h s).scan = s.scan ∧
    (State.receive h s).output = s.output ∧ (State.receive h s).settings = s.settings ∧
    (State.receive h s).freeCount = s.freeCount ∧ (State.receive h s).pending = s.pending := by
  simp only [State.receive]
  (repeat' split) <;> simp
end

section
variable (l : Link) (s : State)
@[simp] theorem State.reportLoss_frame :
    (State.reportLoss l s).clock = s.clock ∧ (State.reportLoss l s).periods = s.periods ∧
    (State.reportLoss l s).travel = s.travel ∧ (State.reportLoss l s).scan = s.scan ∧
    (State.reportLoss l s).links = s.links ∧ (State.reportLoss l s).settings = s.settings ∧
    (State.reportLoss l s).freeCount = s.freeCount ∧ (State.reportLoss l s).pending = s.pending := by
  simp only [State.reportLoss]
  (repeat' split) <;> simp
end

section
variable (l : Link) (s : State)
@[simp] theorem State.loseLink_frame :
    (State.loseLink l s).clock = s.clock ∧ (State.loseLink l s).periods = s.periods ∧
    (State.loseLink l s).travel = s.travel ∧ (State.loseLink l s).scan = s.scan ∧
    (State.loseLink l s).settings = s.settings ∧ (State.loseLink l s).freeCount = s.freeCount ∧
    (State.loseLink l s).pending = s.pending := by
  simp only [State.loseLink]
  (repeat' split) <;> simp
end

section
variable (l : Link) (kind tag : Byte) (r : Reply) (s : State)
@[simp] theorem State.putAnswer_frame :
    (State.putAnswer l kind tag r s).clock = s.clock ∧ (State.putAnswer l kind tag r s).periods = s.periods ∧
    (State.putAnswer l kind tag r s).unit = s.unit ∧ (State.putAnswer l kind tag r s).travel = s.travel ∧
    (State.putAnswer l kind tag r s).ceiling = s.ceiling ∧ (State.putAnswer l kind tag r s).gov = s.gov ∧
    (State.putAnswer l kind tag r s).arms = s.arms ∧ (State.putAnswer l kind tag r s).spray = s.spray ∧
    (State.putAnswer l kind tag r s).scan = s.scan ∧ (State.putAnswer l kind tag r s).output = s.output ∧
    (State.putAnswer l kind tag r s).notices = s.notices ∧ (State.putAnswer l kind tag r s).bank = s.bank ∧
    (State.putAnswer l kind tag r s).settings = s.settings ∧
    (State.putAnswer l kind tag r s).freeCount = s.freeCount ∧ (State.putAnswer l kind tag r s).pending = s.pending := by simp [State.putAnswer]
end

/-! ### Settings -/

section
variable (ch : Channel) (f : Carrier → Carrier) (s : State)
@[simp] theorem State.modCarrier_frame :
    (State.modCarrier ch f s).clock = s.clock ∧ (State.modCarrier ch f s).periods = s.periods ∧
    (State.modCarrier ch f s).unit = s.unit ∧ (State.modCarrier ch f s).travel = s.travel ∧
    (State.modCarrier ch f s).ceiling = s.ceiling ∧ (State.modCarrier ch f s).gov = s.gov ∧
    (State.modCarrier ch f s).arms = s.arms ∧ (State.modCarrier ch f s).spray = s.spray ∧
    (State.modCarrier ch f s).scan = s.scan ∧ (State.modCarrier ch f s).links = s.links ∧
    (State.modCarrier ch f s).notices = s.notices ∧ (State.modCarrier ch f s).bank = s.bank ∧
    (State.modCarrier ch f s).settings = s.settings ∧ (State.modCarrier ch f s).freeCount = s.freeCount ∧
    (State.modCarrier ch f s).pending = s.pending := by simp [State.modCarrier]
end

section
variable (k : Setting) (s : State)
@[simp] theorem State.postCap_frame :
    (State.postCap k s).clock = s.clock ∧ (State.postCap k s).periods = s.periods ∧
    (State.postCap k s).unit = s.unit ∧ (State.postCap k s).travel = s.travel ∧ (State.postCap k s).gov = s.gov ∧
    (State.postCap k s).arms = s.arms ∧ (State.postCap k s).spray = s.spray ∧ (State.postCap k s).scan = s.scan ∧
    (State.postCap k s).output = s.output ∧ (State.postCap k s).links = s.links ∧
    (State.postCap k s).settings = s.settings ∧ (State.postCap k s).freeCount = s.freeCount ∧
    (State.postCap k s).pending = s.pending := by
  simp only [State.postCap]
  (repeat' split) <;> simp
end

section
variable (k : Setting) (v : Int) (s : State)
@[simp] theorem State.settingEffects_frame :
    (State.settingEffects k v s).clock = s.clock ∧ (State.settingEffects k v s).periods = s.periods ∧
    (State.settingEffects k v s).unit = s.unit ∧ (State.settingEffects k v s).travel = s.travel ∧
    (State.settingEffects k v s).gov = s.gov ∧ (State.settingEffects k v s).arms = s.arms ∧
    (State.settingEffects k v s).spray = s.spray ∧ (State.settingEffects k v s).links = s.links ∧
    (State.settingEffects k v s).settings = s.settings ∧ (State.settingEffects k v s).freeCount = s.freeCount ∧
    (State.settingEffects k v s).pending = s.pending := by
  simp only [State.settingEffects]
  (repeat' split) <;> simp
end

section
variable (k : Setting) (v : Int) (s : State)
@[simp] theorem State.takeSetting_frame :
    (State.takeSetting k v s).clock = s.clock ∧ (State.takeSetting k v s).periods = s.periods ∧
    (State.takeSetting k v s).unit = s.unit ∧ (State.takeSetting k v s).travel = s.travel ∧
    (State.takeSetting k v s).gov = s.gov ∧ (State.takeSetting k v s).arms = s.arms ∧
    (State.takeSetting k v s).spray = s.spray ∧ (State.takeSetting k v s).links = s.links ∧
    (State.takeSetting k v s).freeCount = s.freeCount ∧ (State.takeSetting k v s).pending = s.pending := by simp [State.takeSetting]
end

end Sys2Proof.Machine
end

