-- ==== Sys2Proof/Laws/AlarmLaw.lean ====
section
/-! SUPPORT. The law of the alarm list (R190) is kept by every shared operation. -/

namespace Sys2Proof.Machine

theorem alarmLaw_congr {s t : State} (h : t.notices = s.notices) : t.AlarmLaw ↔ s.AlarmLaw := by
  simp [State.AlarmLaw, h]

@[simp] theorem State.modClock_alarmLaw {f : Clock → Clock} {s : State} : (s.modClock f).AlarmLaw ↔ s.AlarmLaw := alarmLaw_congr rfl
@[simp] theorem State.modPeriods_alarmLaw {f : Periods → Periods} {s : State} : (s.modPeriods f).AlarmLaw ↔ s.AlarmLaw := alarmLaw_congr rfl
@[simp] theorem State.modUnit_alarmLaw {f : ModeUnit → ModeUnit} {s : State} : (s.modUnit f).AlarmLaw ↔ s.AlarmLaw := alarmLaw_congr rfl
@[simp] theorem State.modTravel_alarmLaw {f : Travel → Travel} {s : State} : (s.modTravel f).AlarmLaw ↔ s.AlarmLaw := alarmLaw_congr rfl
@[simp] theorem State.modCeiling_alarmLaw {f : CeilingTable → CeilingTable} {s : State} : (s.modCeiling f).AlarmLaw ↔ s.AlarmLaw := alarmLaw_congr rfl
@[simp] theorem State.modGov_alarmLaw {f : Governor → Governor} {s : State} : (s.modGov f).AlarmLaw ↔ s.AlarmLaw := alarmLaw_congr rfl
@[simp] theorem State.modArms_alarmLaw {f : Arms → Arms} {s : State} : (s.modArms f).AlarmLaw ↔ s.AlarmLaw := alarmLaw_congr rfl
@[simp] theorem State.modSpray_alarmLaw {f : Spray → Spray} {s : State} : (s.modSpray f).AlarmLaw ↔ s.AlarmLaw := alarmLaw_congr rfl
@[simp] theorem State.modScan_alarmLaw {f : Scan → Scan} {s : State} : (s.modScan f).AlarmLaw ↔ s.AlarmLaw := alarmLaw_congr rfl
@[simp] theorem State.modOutput_alarmLaw {f : Output → Output} {s : State} : (s.modOutput f).AlarmLaw ↔ s.AlarmLaw := alarmLaw_congr rfl
@[simp] theorem State.modLinks_alarmLaw {f : Links → Links} {s : State} : (s.modLinks f).AlarmLaw ↔ s.AlarmLaw := alarmLaw_congr rfl
@[simp] theorem State.modBank_alarmLaw {f : TallyBank → TallyBank} {s : State} : (s.modBank f).AlarmLaw ↔ s.AlarmLaw := alarmLaw_congr rfl
@[simp] theorem State.modSettings_alarmLaw {f : Settings → Settings} {s : State} : (s.modSettings f).AlarmLaw ↔ s.AlarmLaw := alarmLaw_congr rfl
@[simp] theorem State.modFreeCount_alarmLaw {f : Nat → Nat} {s : State} : (s.modFreeCount f).AlarmLaw ↔ s.AlarmLaw := alarmLaw_congr rfl
@[simp] theorem State.modPending_alarmLaw {f : List Instr → List Instr} {s : State} : (s.modPending f).AlarmLaw ↔ s.AlarmLaw := alarmLaw_congr rfl

theorem Alarm.hasKey_iff (c : AlarmCode) (d : Nat) (a : Alarm) :
    a.hasKey c d = true ↔ a.code = c ∧ a.detail = d := by simp [Alarm.hasKey]

/-- A map that keeps every key, with counts in range, keeps the law. -/
theorem State.AlarmLaw.map {s t : State} (f : Alarm → Alarm) (hs : s.AlarmLaw)
    (ht : t.notices.alarms = s.notices.alarms.map f)
    (hk : ∀ a, (f a).code = a.code ∧ (f a).detail = a.detail)
    (hc : ∀ a : Alarm, 1 ≤ a.count ∧ a.count ≤ 255 → 1 ≤ (f a).count ∧ (f a).count ≤ 255) : t.AlarmLaw := by
  obtain ⟨h1, h2, h3⟩ := hs
  refine ⟨by simpa [ht] using h1, ?_, ?_⟩
  · rw [ht, List.pairwise_map]
    exact h2.imp fun {a b} h => by simpa [hk] using h
  · intro a ha
    rw [ht, List.mem_map] at ha
    obtain ⟨b, hb, rfl⟩ := ha
    exact hc b (h3 b hb)

theorem State.AlarmLaw.sublist {s t : State} (hs : s.AlarmLaw)
    (ht : t.notices.alarms.Sublist s.notices.alarms) : t.AlarmLaw := by
  obtain ⟨h1, h2, h3⟩ := hs
  exact ⟨ht.length_le.trans h1, h2.sublist ht, fun a ha => h3 a (ht.subset ha)⟩
theorem raiseIn_law {now : Time} {c : AlarmCode} {d : Nat} {l r : List Alarm}
    (h1 : l.length ≤ 16) (h2 : l.Pairwise fun a b => ¬(a.code = b.code ∧ a.detail = b.detail))
    (h3 : ∀ a ∈ l, 1 ≤ a.count ∧ a.count ≤ 255) (h : raiseIn now c d l = some r) :
    r.length ≤ 16 ∧ (r.Pairwise fun a b => ¬(a.code = b.code ∧ a.detail = b.detail)) ∧
      ∀ a ∈ r, 1 ≤ a.count ∧ a.count ≤ 255 := by
  have app : ∀ m : List Alarm, m.Sublist l → m.length < 16 → (∀ a ∈ l, a.hasKey c d = false) →
      (m ++ [Alarm.new now c d]).length ≤ 16 ∧
      ((m ++ [Alarm.new now c d]).Pairwise fun a b => ¬(a.code = b.code ∧ a.detail = b.detail)) ∧
      ∀ a ∈ m ++ [Alarm.new now c d], 1 ≤ a.count ∧ a.count ≤ 255 := by
    intro m hm hlen hkey
    refine ⟨by simp; omega, ?_, ?_⟩
    · rw [List.pairwise_append]
      refine ⟨h2.sublist hm, by simp, ?_⟩
      intro a ha b hb
      have := hkey a (hm.subset ha)
      simp only [List.mem_singleton] at hb
      subst hb
      intro hk
      rw [Bool.eq_false_iff] at this
      exact this ((Alarm.hasKey_iff c d a).2 (by simpa [Alarm.new] using hk))
    · intro a ha
      rw [List.mem_append] at ha
      rcases ha with ha | ha
      · exact h3 a (hm.subset ha)
      · simp only [List.mem_singleton] at ha; subst ha; simp [Alarm.new]
  unfold raiseIn at h
  split at h
  · cases h
    refine ⟨by simpa using h1, ?_, ?_⟩
    · rw [List.pairwise_map]
      refine h2.imp ?_
      intro a b hab
      split <;> split <;> simpa [Alarm.again] using hab
    · intro a ha
      rw [List.mem_map] at ha
      obtain ⟨b, hb, rfl⟩ := ha
      have := h3 b hb
      split
      · simp only [Alarm.again]; omega
      · exact this
  · next hk =>
    have hkey : ∀ a ∈ l, a.hasKey c d = false := by
      intro a ha
      by_contra hc
      exact hk (List.any_eq_true.2 ⟨a, ha, by simpa using hc⟩)
    split at h
    · next hl => cases h; exact app l (List.Sublist.refl l) hl hkey
    · split at h
      · next ha =>
        cases h
        refine app _ List.eraseP_sublist ?_ hkey
        obtain ⟨a, ha, hp⟩ := List.any_eq_true.1 ha
        rw [List.length_eraseP_of_mem ha hp]
        have := List.length_pos_of_mem ha
        omega
      · cases h
@[simp] theorem State.raiseAlarm_alarmLaw {c : AlarmCode} {d : Nat} {s : State} (hs : s.AlarmLaw) :
    (s.raiseAlarm c d).AlarmLaw := by
  unfold State.raiseAlarm
  split
  · next l hl =>
    have := raiseIn_law hs.1 hs.2.1 hs.2.2 hl
    exact this
  · exact hs
@[simp] theorem State.alarmGone_alarmLaw {c : AlarmCode} {d : Nat} {s : State} (hs : s.AlarmLaw) :
    (s.alarmGone c d).AlarmLaw := by
  unfold State.alarmGone
  split
  · refine State.AlarmLaw.map (fun a => if a.hasKey c d then { a with present := false } else a) hs rfl ?_ ?_
    · intro a; split <;> simp
    · intro a h; split <;> exact h
  · exact hs

@[simp] theorem State.modEvents_alarmLaw {l : Link} {f : EventSet → EventSet} {s : State} :
    (s.modNotices (Notices.modEvents l f)).AlarmLaw ↔ s.AlarmLaw := by
  cases l <;> simp [State.AlarmLaw, Notices.modEvents]

@[simp] theorem State.elapse_alarmLaw {us : Nat} {s : State} (hl : s.AlarmLaw) :
    (State.elapse us s).AlarmLaw := (alarmLaw_congr (by simp)).2 hl
@[simp] theorem State.post_alarmLaw {k : EventKind} {l : Link} {s : State} (hl : s.AlarmLaw) :
    (State.post k l s).AlarmLaw := by simp (maxDischargeDepth := 99) [State.post, hl]
@[simp] theorem State.postBoth_alarmLaw {k : EventKind} {s : State} (hl : s.AlarmLaw) :
    (State.postBoth k s).AlarmLaw := by simp (maxDischargeDepth := 99) [State.postBoth, hl]
@[simp] theorem State.bumpBy_alarmLaw {t : Tally} {n : Nat} {s : State} (hl : s.AlarmLaw) :
    (State.bumpBy t n s).AlarmLaw := (alarmLaw_congr (by simp)).2 hl
@[simp] theorem State.bump_alarmLaw {t : Tally} {s : State} (hl : s.AlarmLaw) :
    (State.bump t s).AlarmLaw := (alarmLaw_congr (by simp)).2 hl
@[simp] theorem State.changeCeiling_alarmLaw {f : CeilingTable → CeilingTable} {s : State} (hl : s.AlarmLaw) :
    (State.changeCeiling f s).AlarmLaw := by
  simp only [State.changeCeiling]
  (repeat' split) <;> simp (maxDischargeDepth := 99) [hl]
@[simp] theorem State.activate_alarmLaw {src : Source} {cap : Nat} {s : State} (hl : s.AlarmLaw) :
    (State.activate src cap s).AlarmLaw := by simp (maxDischargeDepth := 99) [State.activate, hl]
@[simp] theorem State.updateCap_alarmLaw {src : Source} {cap : Nat} {s : State} (hl : s.AlarmLaw) :
    (State.updateCap src cap s).AlarmLaw := by simp (maxDischargeDepth := 99) [State.updateCap, hl]
@[simp] theorem State.deactivate_alarmLaw {src : Source} {s : State} (hl : s.AlarmLaw) :
    (State.deactivate src s).AlarmLaw := by simp (maxDischargeDepth := 99) [State.deactivate, hl]
@[simp] theorem State.keepEntry_alarmLaw {src : Source} {holds : Bool} {cap : Nat} {s : State} (hl : s.AlarmLaw) :
    (State.keepEntry src holds cap s).AlarmLaw := by
  simp only [State.keepEntry]
  (repeat' split) <;> simp (maxDischargeDepth := 99) [hl]
@[simp] theorem State.reportHeld_alarmLaw {d : DriveDir} {s : State} (hl : s.AlarmLaw) :
    (State.reportHeld d s).AlarmLaw := by
  simp only [State.reportHeld]
  (repeat' split) <;> simp (maxDischargeDepth := 99) [hl]
@[simp] theorem State.changeChannel_alarmLaw {ch : Channel} {f : ChannelRec → ChannelRec} {s : State} (hl : s.AlarmLaw) :
    (State.changeChannel ch f s).AlarmLaw := (alarmLaw_congr (by simp)).2 hl
@[simp] theorem State.postSetpoint_alarmLaw {ch : Channel} {v : Nat} {s : State} (hl : s.AlarmLaw) :
    (State.postSetpoint ch v s).AlarmLaw := (alarmLaw_congr (by simp)).2 hl
@[simp] theorem State.setDriveCut_alarmLaw {s : State} (hl : s.AlarmLaw) :
    (State.setDriveCut s).AlarmLaw := (alarmLaw_congr (by simp)).2 hl
@[simp] theorem State.setBroomCut_alarmLaw {s : State} (hl : s.AlarmLaw) :
    (State.setBroomCut s).AlarmLaw := (alarmLaw_congr (by simp)).2 hl
@[simp] theorem State.releaseDriveCut_alarmLaw {s : State} (hl : s.AlarmLaw) :
    (State.releaseDriveCut s).AlarmLaw := (alarmLaw_congr (by simp)).2 hl
@[simp] theorem State.releaseBroomCut_alarmLaw {s : State} (hl : s.AlarmLaw) :
    (State.releaseBroomCut s).AlarmLaw := (alarmLaw_congr (by simp)).2 hl
@[simp] theorem State.endDirect_alarmLaw {ch : Channel} {s : State} (hl : s.AlarmLaw) :
    (State.endDirect ch s).AlarmLaw := (alarmLaw_congr (by simp)).2 hl
@[simp] theorem State.endDirectWhere_alarmLaw {p : Link → Bool} {s : State} (hl : s.AlarmLaw) :
    (State.endDirectWhere p s).AlarmLaw := (alarmLaw_congr (by simp)).2 hl
@[simp] theorem State.writeModeCap_alarmLaw {s : State} (hl : s.AlarmLaw) :
    (State.writeModeCap s).AlarmLaw := by simp (maxDischargeDepth := 99) [State.writeModeCap, hl]
@[simp] theorem State.modBar_alarmLaw {b : Bar} {f : BarRec → BarRec} {s : State} (hl : s.AlarmLaw) :
    (State.modBar b f s).AlarmLaw := (alarmLaw_congr (by simp)).2 hl
@[simp] theorem State.addShortfall_alarmLaw {b : Bar} {q : Nat} {s : State} (hl : s.AlarmLaw) :
    (State.addShortfall b q s).AlarmLaw := (alarmLaw_congr (by simp)).2 hl
@[simp] theorem State.deactivateBar_alarmLaw {b : Bar} {s : State} (hl : s.AlarmLaw) :
    (State.deactivateBar b s).AlarmLaw := (alarmLaw_congr (by simp)).2 hl
@[simp] theorem State.judgeBar_alarmLaw {s : State} {b : Bar} (hl : s.AlarmLaw) :
    (State.judgeBar s b).AlarmLaw := (alarmLaw_congr (by simp)).2 hl
@[simp] theorem State.judgePump_alarmLaw {before : Bool} {s : State} (hl : s.AlarmLaw) :
    (State.judgePump before s).AlarmLaw := (alarmLaw_congr (by simp)).2 hl
@[simp] theorem State.judgeSprayLimit_alarmLaw {s : State} (hl : s.AlarmLaw) :
    (State.judgeSprayLimit s).AlarmLaw := by
  simp only [State.judgeSprayLimit]
  (repeat' split) <;> simp (maxDischargeDepth := 99) [hl]
@[simp] theorem State.judgeDrySweep_alarmLaw {s : State} (hl : s.AlarmLaw) :
    (State.judgeDrySweep s).AlarmLaw := by simp (maxDischargeDepth := 99) [State.judgeDrySweep, hl]
@[simp] theorem State.judgeBars_alarmLaw {s : State} (hl : s.AlarmLaw) : (State.judgeBars s).AlarmLaw := by
  simp (maxDischargeDepth := 99) [State.judgeBars, Bar.all, hl]
@[simp] theorem State.holdOwed_alarmLaw {s : State} {b : Bar} (hl : s.AlarmLaw) :
    (State.holdOwed s b).AlarmLaw := (alarmLaw_congr (by simp)).2 hl
@[simp] theorem State.sprayProgramChange_alarmLaw {s : State} (hl : s.AlarmLaw) :
    (State.sprayProgramChange s).AlarmLaw := by
  simp (maxDischargeDepth := 99) [State.sprayProgramChange, Bar.all, hl]
@[simp] theorem State.barTick_alarmLaw {s : State} {b : Bar} (hl : s.AlarmLaw) :
    (State.barTick s b).AlarmLaw := (alarmLaw_congr (by simp)).2 hl
@[simp] theorem State.sprayTick_alarmLaw {s : State} (hl : s.AlarmLaw) :
    (State.sprayTick s).AlarmLaw := (alarmLaw_congr (by simp)).2 hl
@[simp] theorem State.cycleStart_alarmLaw {b : Bar} {s : State} (hl : s.AlarmLaw) :
    (State.cycleStart b s).AlarmLaw := by
  simp only [State.cycleStart]
  (repeat' split) <;> simp (maxDischargeDepth := 99) [hl]
@[simp] theorem State.setDryLatch_alarmLaw {s : State} (hl : s.AlarmLaw) : (State.setDryLatch s).AlarmLaw := by
  simp only [State.setDryLatch]
  (repeat' split) <;> simp (maxDischargeDepth := 99) [hl]
@[simp] theorem State.takeLevel_alarmLaw {r : Result} {s : State} (hl : s.AlarmLaw) :
    (State.takeLevel r s).AlarmLaw := by
  simp only [State.takeLevel]
  (repeat' split) <;> simp (maxDischargeDepth := 99) [hl]
@[simp] theorem State.pumpPeriod_alarmLaw {s : State} (hl : s.AlarmLaw) : (State.pumpPeriod s).AlarmLaw := by
  simp only [State.pumpPeriod]
  (repeat' split) <;> simp (maxDischargeDepth := 99) [hl]
@[simp] theorem State.programChanged_alarmLaw {s : State} (hl : s.AlarmLaw) :
    (State.programChanged s).AlarmLaw := by simp (maxDischargeDepth := 99) [State.programChanged, hl]
@[simp] theorem State.setMode_alarmLaw {m : Mode} {s : State} (hl : s.AlarmLaw) :
    (State.setMode m s).AlarmLaw := by simp (maxDischargeDepth := 99) [State.setMode, hl]
@[simp] theorem State.applySwap_alarmLaw {s : State} (hl : s.AlarmLaw) : (State.applySwap s).AlarmLaw := by
  simp only [State.applySwap]
  (repeat' split) <;> simp (maxDischargeDepth := 99) [hl]
@[simp] theorem State.leaveService_alarmLaw {s : State} (hl : s.AlarmLaw) :
    (State.leaveService s).AlarmLaw := by simp (maxDischargeDepth := 99) [State.leaveService, hl]
@[simp] theorem State.reachTransport_alarmLaw {s : State} (hl : s.AlarmLaw) :
    (State.reachTransport s).AlarmLaw := by simp (maxDischargeDepth := 99) [State.reachTransport, hl]
@[simp] theorem State.requestRange_alarmLaw {r : Range} {s : State} (hl : s.AlarmLaw) :
    (State.requestRange r s).AlarmLaw := by simp (maxDischargeDepth := 99) [State.requestRange, hl]
@[simp] theorem State.leavingCheck_alarmLaw {s : State} (hl : s.AlarmLaw) : (State.leavingCheck s).AlarmLaw := by
  simp only [State.leavingCheck]
  (repeat' split) <;> simp (maxDischargeDepth := 99) [hl]
@[simp] theorem State.takeRangeDone_alarmLaw {r : Range} {s : State} (hl : s.AlarmLaw) :
    (State.takeRangeDone r s).AlarmLaw := by
  unfold State.takeRangeDone
  split
  · exact hl
  · split
    · simp (maxDischargeDepth := 99) [hl]
    · split <;> simp (maxDischargeDepth := 99) [hl]
    · exact hl
@[simp] theorem State.lapseClaim_alarmLaw {s : State} (hl : s.AlarmLaw) : (State.lapseClaim s).AlarmLaw := by
  simp only [State.lapseClaim]
  (repeat' split) <;> simp (maxDischargeDepth := 99) [hl]
@[simp] theorem State.startCycle_alarmLaw {s : State} (hl : s.AlarmLaw) :
    (State.startCycle s).AlarmLaw := (alarmLaw_congr (by simp)).2 hl
@[simp] theorem State.modArm_alarmLaw {a : Arm} {f : ArmRec → ArmRec} {s : State} (hl : s.AlarmLaw) :
    (State.modArm a f s).AlarmLaw := (alarmLaw_congr (by simp)).2 hl
@[simp] theorem State.postLiftLower_alarmLaw {a : Arm} {c : Coils} {s : State} (hl : s.AlarmLaw) :
    (State.postLiftLower a c s).AlarmLaw := (alarmLaw_congr (by simp)).2 hl
@[simp] theorem State.postForce_alarmLaw {a : Arm} {v : Nat} {s : State} (hl : s.AlarmLaw) :
    (State.postForce a v s).AlarmLaw := (alarmLaw_congr (by simp)).2 hl
@[simp] theorem State.postRotation_alarmLaw {a : Arm} {v : Nat} {s : State} (hl : s.AlarmLaw) :
    (State.postRotation a v s).AlarmLaw := (alarmLaw_congr (by simp)).2 hl
@[simp] theorem State.postCoils_alarmLaw {a : Arm} {s : State} (hl : s.AlarmLaw) :
    (State.postCoils a s).AlarmLaw := (alarmLaw_congr (by simp)).2 hl
@[simp] theorem State.judgeArmEntries_alarmLaw {s : State} (hl : s.AlarmLaw) :
    (State.judgeArmEntries s).AlarmLaw := by simp (maxDischargeDepth := 99) [State.judgeArmEntries, hl]
@[simp] theorem State.announceArms_alarmLaw {s : State} (hl : s.AlarmLaw) :
    (State.announceArms s).AlarmLaw := by simp (maxDischargeDepth := 99) [State.announceArms, hl]
@[simp] theorem State.moveArm_alarmLaw {a : Arm} {f : ArmRec → ArmRec} {s : State} (hl : s.AlarmLaw) :
    (State.moveArm a f s).AlarmLaw := by simp (maxDischargeDepth := 99) [State.moveArm, hl]
@[simp] theorem State.markPending_alarmLaw {a : Arm} {v : Bool} {s : State} (hl : s.AlarmLaw) :
    (State.markPending a v s).AlarmLaw := by simp (maxDischargeDepth := 99) [State.markPending, hl]
@[simp] theorem State.startLower_alarmLaw {a : Arm} {s : State} (hl : s.AlarmLaw) :
    (State.startLower a s).AlarmLaw := by simp (maxDischargeDepth := 99) [State.startLower, hl]
@[simp] theorem State.clearHoldDone_alarmLaw {a : Arm} {s : State} (hl : s.AlarmLaw) :
    (State.clearHoldDone a s).AlarmLaw := (alarmLaw_congr (by simp)).2 hl
@[simp] theorem State.startRaise_alarmLaw {a : Arm} {s : State} (hl : s.AlarmLaw) :
    (State.startRaise a s).AlarmLaw := by simp (maxDischargeDepth := 99) [State.startRaise, hl]
@[simp] theorem State.raiseArm_alarmLaw {a : Arm} {s : State} (hl : s.AlarmLaw) : (State.raiseArm a s).AlarmLaw := by
  simp only [State.raiseArm]
  (repeat' split) <;> simp (maxDischargeDepth := 99) [hl]
@[simp] theorem State.stow_alarmLaw {a : Arm} {s : State} (hl : s.AlarmLaw) :
    (State.stow a s).AlarmLaw := by simp (maxDischargeDepth := 99) [State.stow, hl]
@[simp] theorem State.enterLeaving_alarmLaw {s : State} (hl : s.AlarmLaw) : (State.enterLeaving s).AlarmLaw := by
  simp (maxDischargeDepth := 99) [State.enterLeaving, Arm.all, hl]
@[simp] theorem State.faultArm_alarmLaw {a : Arm} {s : State} (hl : s.AlarmLaw) : (State.faultArm a s).AlarmLaw := by
  simp only [State.faultArm]
  (repeat' split) <;> simp (maxDischargeDepth := 99) [hl]
@[simp] theorem State.startYield_alarmLaw {a : Arm} {s : State} (hl : s.AlarmLaw) :
    (State.startYield a s).AlarmLaw := by
  simp only [State.startYield]
  (repeat' split) <;> simp (maxDischargeDepth := 99) [hl]
@[simp] theorem State.strike_alarmLaw {a : SideArm} {s : State} (hl : s.AlarmLaw) : (State.strike a s).AlarmLaw := by
  simp only [State.strike]
  (repeat' split) <;> simp (maxDischargeDepth := 99) [hl]
@[simp] theorem State.sideDetection_alarmLaw {a : SideArm} {s : State} (hl : s.AlarmLaw) :
    (State.sideDetection a s).AlarmLaw := by
  simp only [State.sideDetection]
  (repeat' split) <;> simp (maxDischargeDepth := 99) [hl]
@[simp] theorem State.broomWorks_alarmLaw {s : State} (hl : s.AlarmLaw) :
    (State.broomWorks s).AlarmLaw := by simp (maxDischargeDepth := 99) [State.broomWorks, hl]
@[simp] theorem State.jam_alarmLaw {s : State} (hl : s.AlarmLaw) : (State.jam s).AlarmLaw := by
  simp only [State.jam]
  (repeat' split) <;> simp (maxDischargeDepth := 99) [hl]
@[simp] theorem State.seeBroomCut_alarmLaw {s : State} (hl : s.AlarmLaw) :
    (State.seeBroomCut s).AlarmLaw := (alarmLaw_congr (by simp)).2 hl
@[simp] theorem State.broomDetection_alarmLaw {cut : Bool} {s : State} (hl : s.AlarmLaw) :
    (State.broomDetection cut s).AlarmLaw := by
  simp only [State.broomDetection]
  (repeat' split) <;> simp (maxDischargeDepth := 99) [hl]
@[simp] theorem State.releaseBroom_alarmLaw {s : State} (hl : s.AlarmLaw) :
    (State.releaseBroom s).AlarmLaw := (alarmLaw_congr (by simp)).2 hl
@[simp] theorem State.lowerTest_alarmLaw {a : Arm} {s : State} (hl : s.AlarmLaw) :
    (State.lowerTest a s).AlarmLaw := by
  simp only [State.lowerTest]
  (repeat' split) <;> simp (maxDischargeDepth := 99) [hl]
@[simp] theorem State.periodicPosts_alarmLaw {a : Arm} {s : State} (hl : s.AlarmLaw) :
    (State.periodicPosts a s).AlarmLaw := (alarmLaw_congr (by simp)).2 hl
@[simp] theorem State.broomPeriod_alarmLaw {s : State} (hl : s.AlarmLaw) : (State.broomPeriod s).AlarmLaw := by
  simp only [State.broomPeriod]
  (repeat' split) <;> simp (maxDischargeDepth := 99) [hl]
@[simp] theorem State.armPeriod_alarmLaw {s : State} (hl : s.AlarmLaw) : (State.armPeriod s).AlarmLaw := by
  simp (maxDischargeDepth := 99) [State.armPeriod, Arm.all, hl]
@[simp] theorem State.completeRange_alarmLaw {s : State} (hl : s.AlarmLaw) :
    (State.completeRange s).AlarmLaw := by simp (maxDischargeDepth := 99) [State.completeRange, hl]
@[simp] theorem State.switchRange_alarmLaw {s : State} (hl : s.AlarmLaw) :
    (State.switchRange s).AlarmLaw := (alarmLaw_congr (by simp)).2 hl
@[simp] theorem State.shiftTest_alarmLaw {s : State} (hl : s.AlarmLaw) : (State.shiftTest s).AlarmLaw := by
  simp only [State.shiftTest]
  (repeat' split) <;> simp (maxDischargeDepth := 99) [hl]
@[simp] theorem State.governorClear_alarmLaw {s : State} (hl : s.AlarmLaw) : (State.governorClear s).AlarmLaw := by
  simp only [State.governorClear]
  (repeat' split) <;> simp (maxDischargeDepth := 99) [hl]
@[simp] theorem State.restart3_alarmLaw {d : DriveDir} {s : State} (hl : s.AlarmLaw) :
    (State.restart3 d s).AlarmLaw := by
  simp only [State.restart3]
  (repeat' split) <;> simp (maxDischargeDepth := 99) [hl]
@[simp] theorem State.setHeld_alarmLaw {d : DriveDir} {s : State} (hl : s.AlarmLaw) :
    (State.setHeld d s).AlarmLaw := by simp (maxDischargeDepth := 99) [State.setHeld, hl]
@[simp] theorem State.takeDirection_alarmLaw {s : State} (hl : s.AlarmLaw) : (State.takeDirection s).AlarmLaw := by
  simp only [State.takeDirection]
  (repeat' split) <;> simp (maxDischargeDepth := 99) [hl]
@[simp] theorem State.postPump_alarmLaw {s : State} (hl : s.AlarmLaw) :
    (State.postPump s).AlarmLaw := (alarmLaw_congr (by simp)).2 hl
@[simp] theorem State.keepRead_alarmLaw {r : DriveRead} {s : State} (hl : s.AlarmLaw) :
    (State.keepRead r s).AlarmLaw := (alarmLaw_congr (by simp)).2 hl
@[simp] theorem State.releaseDrive_alarmLaw {s : State} (hl : s.AlarmLaw) :
    (State.releaseDrive s).AlarmLaw := (alarmLaw_congr (by simp)).2 hl
@[simp] theorem State.drivePeriod_alarmLaw {s : State} (hl : s.AlarmLaw) :
    (State.drivePeriod s).AlarmLaw := by simp (maxDischargeDepth := 99) [State.drivePeriod, hl]
@[simp] theorem State.governorDetection_alarmLaw {cut : Bool} {s : State} (hl : s.AlarmLaw) :
    (State.governorDetection cut s).AlarmLaw := by
  simp only [State.governorDetection]
  (repeat' split) <;> simp (maxDischargeDepth := 99) [hl]
@[simp] theorem State.dropDemand_alarmLaw {s : State} (hl : s.AlarmLaw) :
    (State.dropDemand s).AlarmLaw := (alarmLaw_congr (by simp)).2 hl
@[simp] theorem State.driveChannelFault_alarmLaw {s : State} (hl : s.AlarmLaw) :
    (State.driveChannelFault s).AlarmLaw := by simp (maxDischargeDepth := 99) [State.driveChannelFault, hl]
@[simp] theorem State.driveChannelCleared_alarmLaw {s : State} (hl : s.AlarmLaw) :
    (State.driveChannelCleared s).AlarmLaw := by
  simp only [State.driveChannelCleared]
  (repeat' split) <;> simp (maxDischargeDepth := 99) [hl]
@[simp] theorem State.formResult_alarmLaw {ch : Fin 9} {q : Sequence} {s : State} (hl : s.AlarmLaw) :
    (State.formResult ch q s).AlarmLaw := (alarmLaw_congr (by simp)).2 hl
@[simp] theorem State.detection_alarmLaw {i : Fin 4} {s : State} (hl : s.AlarmLaw) :
    (State.detection i s).AlarmLaw := by
  simp only [State.detection]
  (repeat' split) <;> simp (maxDischargeDepth := 99) [hl]
@[simp] theorem State.returnToClear_alarmLaw {i : Fin 4} {s : State} (hl : s.AlarmLaw) :
    (State.returnToClear i s).AlarmLaw := by
  simp only [State.returnToClear]
  (repeat' split) <;> simp (maxDischargeDepth := 99) [hl]
@[simp] theorem State.evaluate_alarmLaw {i : Fin 4} {v : Int} {s : State} (hl : s.AlarmLaw) :
    (State.evaluate i v s).AlarmLaw := by
  simp only [State.evaluate]
  (repeat' split) <;> simp (maxDischargeDepth := 99) [hl]
@[simp] theorem State.takePitch_alarmLaw {r : Result} {s : State} (hl : s.AlarmLaw) :
    (State.takePitch r s).AlarmLaw := by
  simp only [State.takePitch]
  (repeat' split) <;> simp (maxDischargeDepth := 99) [hl]
@[simp] theorem State.takeOil_alarmLaw {r : Result} {s : State} (hl : s.AlarmLaw) : (State.takeOil r s).AlarmLaw := by
  simp only [State.takeOil]
  (repeat' split) <;> simp (maxDischargeDepth := 99) [hl]
@[simp] theorem State.faultCause_alarmLaw {detail : Fin 4} {s : State} (hl : s.AlarmLaw) :
    (State.faultCause detail s).AlarmLaw := by
  simp only [State.faultCause]
  (repeat' split) <;> simp (maxDischargeDepth := 99) [hl]
@[simp] theorem State.endFault_alarmLaw {s : State} (hl : s.AlarmLaw) : (State.endFault s).AlarmLaw := by
  simp only [State.endFault, List.foldl]
  (repeat' split) <;> simp (maxDischargeDepth := 99) [hl]
@[simp] theorem State.judgeReference_alarmLaw {r : Reference} {raw : Nat} {s : State} (hl : s.AlarmLaw) :
    (State.judgeReference r raw s).AlarmLaw := by
  simp only [State.judgeReference]
  (repeat' split) <;> simp (maxDischargeDepth := 99) [hl]
@[simp] theorem State.completePass_alarmLaw {raw : Nat} {s : State} (hl : s.AlarmLaw) :
    (State.completePass raw s).AlarmLaw := by simp (maxDischargeDepth := 99) [State.completePass, hl]
@[simp] theorem State.beginSequence_alarmLaw {count : Nat} {offset : Int} {span : Nat} {s : State} (hl : s.AlarmLaw) :
    (State.beginSequence count offset span s).AlarmLaw := (alarmLaw_congr (by simp)).2 hl
@[simp] theorem State.beginChannel_alarmLaw {ch : Fin 9} {s : State} (hl : s.AlarmLaw) :
    (State.beginChannel ch s).AlarmLaw := (alarmLaw_congr (by simp)).2 hl
@[simp] theorem State.beginSlow_alarmLaw {item : SlowItem} {s : State} (hl : s.AlarmLaw) :
    (State.beginSlow item s).AlarmLaw := (alarmLaw_congr (by simp)).2 hl
@[simp] theorem State.freeConverter_alarmLaw {s : State} (hl : s.AlarmLaw) :
    (State.freeConverter s).AlarmLaw := (alarmLaw_congr (by simp)).2 hl
@[simp] theorem State.settleItem_alarmLaw {item : SlowItem} {s : State} (hl : s.AlarmLaw) :
    (State.settleItem item s).AlarmLaw := (alarmLaw_congr (by simp)).2 hl
@[simp] theorem State.startFast_alarmLaw {s : State} (hl : s.AlarmLaw) :
    (State.startFast s).AlarmLaw := (alarmLaw_congr (by simp)).2 hl
@[simp] theorem State.endFast_alarmLaw {s : State} (hl : s.AlarmLaw) :
    (State.endFast s).AlarmLaw := (alarmLaw_congr (by simp)).2 hl
@[simp] theorem State.completeFast_alarmLaw {ch : Fin 6} {q : Sequence} {s : State} (hl : s.AlarmLaw) :
    (State.completeFast ch q s).AlarmLaw := by
  simp only [State.completeFast]
  (repeat' split) <;> simp (maxDischargeDepth := 99) [hl]
@[simp] theorem State.completeSlow_alarmLaw {item : SlowItem} {q : Sequence} {s : State} (hl : s.AlarmLaw) :
    (State.completeSlow item q s).AlarmLaw := by
  simp only [State.completeSlow]
  (repeat' split) <;> simp (maxDischargeDepth := 99) [hl]
@[simp] theorem State.addCode_alarmLaw {code : Nat} {s : State} (hl : s.AlarmLaw) :
    (State.addCode code s).AlarmLaw := by
  simp only [State.addCode]
  (repeat' split) <;> simp (maxDischargeDepth := 99) [hl]
@[simp] theorem State.valveFault_alarmLaw {b : Bar} {v : Bool} {s : State} (hl : s.AlarmLaw) :
    (State.valveFault b v s).AlarmLaw := by simp (maxDischargeDepth := 99) [State.valveFault, hl]
@[simp] theorem State.reportFault_alarmLaw {ch : Channel} {s : State} (hl : s.AlarmLaw) :
    (State.reportFault ch s).AlarmLaw := by
  simp only [State.reportFault]
  (repeat' split) <;> simp (maxDischargeDepth := 99) [hl]
@[simp] theorem State.reportCleared_alarmLaw {ch : Channel} {s : State} (hl : s.AlarmLaw) :
    (State.reportCleared ch s).AlarmLaw := by
  simp only [State.reportCleared]
  (repeat' split) <;> simp (maxDischargeDepth := 99) [hl]
@[simp] theorem State.enterFault_alarmLaw {ch : Channel} {kind : FaultKind} {s : State} (hl : s.AlarmLaw) :
    (State.enterFault ch kind s).AlarmLaw := by simp (maxDischargeDepth := 99) [State.enterFault, hl]
@[simp] theorem State.leaveFault_alarmLaw {ch : Channel} {s : State} (hl : s.AlarmLaw) :
    (State.leaveFault ch s).AlarmLaw := by simp (maxDischargeDepth := 99) [State.leaveFault, hl]
@[simp] theorem State.sampleChannel_alarmLaw {x : Samples} {s : State} {ch : Channel} (hl : s.AlarmLaw) :
    (State.sampleChannel x s ch).AlarmLaw := by
  simp only [State.sampleChannel]
  (repeat' split) <;> simp (maxDischargeDepth := 99) [hl]
@[simp] theorem State.sampleAll_alarmLaw {x : Samples} {s : State} (hl : s.AlarmLaw) :
    (State.sampleAll x s).AlarmLaw := by
  unfold State.sampleAll
  generalize allChannels = l
  induction l generalizing s with
  | nil => exact hl
  | cons c l ih => exact ih (by simp (maxDischargeDepth := 99) [hl])
@[simp] theorem State.modWheel_alarmLaw {w : Wheel} {f : WheelRec → WheelRec} {s : State} (hl : s.AlarmLaw) :
    (State.modWheel w f s).AlarmLaw := (alarmLaw_congr (by simp)).2 hl
@[simp] theorem State.lapseWindow_alarmLaw {s : State} (hl : s.AlarmLaw) : (State.lapseWindow s).AlarmLaw := by
  simp only [State.lapseWindow]
  (repeat' split) <;> simp (maxDischargeDepth := 99) [hl]
@[simp] theorem State.formGround_alarmLaw {s : State} (hl : s.AlarmLaw) : (State.formGround s).AlarmLaw := by
  simp only [State.formGround]
  (repeat' split) <;> simp (maxDischargeDepth := 99) [hl]
@[simp] theorem State.stopSlip_alarmLaw {s : State} (hl : s.AlarmLaw) :
    (State.stopSlip s).AlarmLaw := by simp (maxDischargeDepth := 99) [State.stopSlip, hl]
@[simp] theorem State.slipDetected_alarmLaw {s : State} (hl : s.AlarmLaw) : (State.slipDetected s).AlarmLaw := by
  simp only [State.slipDetected]
  (repeat' split) <;> simp (maxDischargeDepth := 99) [hl]
@[simp] theorem State.checkWatch_alarmLaw {s : State} (hl : s.AlarmLaw) :
    (State.checkWatch s).AlarmLaw := (alarmLaw_congr (by simp)).2 hl
@[simp] theorem State.beginSensorFault_alarmLaw {w : Wheel} {s : State} (hl : s.AlarmLaw) :
    (State.beginSensorFault w s).AlarmLaw := by
  simp only [State.beginSensorFault]
  (repeat' split) <;> simp (maxDischargeDepth := 99) [hl]
@[simp] theorem State.endSensorFault_alarmLaw {w : Wheel} {s : State} (hl : s.AlarmLaw) :
    (State.endSensorFault w s).AlarmLaw := by simp (maxDischargeDepth := 99) [State.endSensorFault, hl]
@[simp] theorem State.sweptTick_alarmLaw {s : State} {a : Arm} (hl : s.AlarmLaw) :
    (State.sweptTick s a).AlarmLaw := (alarmLaw_congr (by simp)).2 hl
@[simp] theorem State.tick_alarmLaw {s : State} (hl : s.AlarmLaw) :
    (State.tick s).AlarmLaw := (alarmLaw_congr (by simp)).2 hl
@[simp] theorem State.ticks_alarmLaw {n : Nat} {s : State} (hl : s.AlarmLaw) :
    (State.ticks n s).AlarmLaw := (alarmLaw_congr (by simp)).2 hl
@[simp] theorem State.addDistance_alarmLaw {w : Wheel} {s : State} (hl : s.AlarmLaw) :
    (State.addDistance w s).AlarmLaw := (alarmLaw_congr (by simp)).2 hl
@[simp] theorem State.applyEdge_alarmLaw {w : Wheel} {dir : Dir} {s : State} (hl : s.AlarmLaw) :
    (State.applyEdge w dir s).AlarmLaw := by
  simp only [State.applyEdge]
  (repeat' split) <;> simp (maxDischargeDepth := 99) [hl]
@[simp] theorem State.acceptEdge_alarmLaw {w : Wheel} {dir : Dir} {s : State} (hl : s.AlarmLaw) :
    (State.acceptEdge w dir s).AlarmLaw := by
  simp only [State.acceptEdge]
  (repeat' split) <;> simp (maxDischargeDepth := 99) [hl]
@[simp] theorem State.decayWheel_alarmLaw {s : State} {w : Wheel} (hl : s.AlarmLaw) :
    (State.decayWheel s w).AlarmLaw := by
  simp only [State.decayWheel]
  (repeat' split) <;> simp (maxDischargeDepth := 99) [hl]
@[simp] theorem State.travelUpdate_alarmLaw {s : State} (hl : s.AlarmLaw) : (State.travelUpdate s).AlarmLaw := by
  simp only [State.travelUpdate]
  (repeat' split) <;> simp (maxDischargeDepth := 99) [hl]
@[simp] theorem State.pulseTimeout_alarmLaw {w : Wheel} {s : State} (hl : s.AlarmLaw) :
    (State.pulseTimeout w s).AlarmLaw := by
  simp only [State.pulseTimeout]
  (repeat' split) <;> simp (maxDischargeDepth := 99) [hl]
@[simp] theorem State.modLink_alarmLaw {l : Link} {f : LinkRec → LinkRec} {s : State} (hl : s.AlarmLaw) :
    (State.modLink l f s).AlarmLaw := (alarmLaw_congr (by simp)).2 hl
@[simp] theorem State.receive_alarmLaw {h : Head} {s : State} (hl : s.AlarmLaw) : (State.receive h s).AlarmLaw := by
  simp only [State.receive]
  (repeat' split) <;> simp (maxDischargeDepth := 99) [hl]
@[simp] theorem State.reportLoss_alarmLaw {l : Link} {s : State} (hl : s.AlarmLaw) :
    (State.reportLoss l s).AlarmLaw := by
  simp only [State.reportLoss]
  (repeat' split) <;> simp (maxDischargeDepth := 99) [hl]
@[simp] theorem State.loseLink_alarmLaw {l : Link} {s : State} (hl : s.AlarmLaw) : (State.loseLink l s).AlarmLaw := by
  simp only [State.loseLink]
  (repeat' split) <;> simp (maxDischargeDepth := 99) [hl]
@[simp] theorem State.putAnswer_alarmLaw {l : Link} {kind tag : Byte} {r : Reply} {s : State} (hl : s.AlarmLaw) :
    (State.putAnswer l kind tag r s).AlarmLaw := (alarmLaw_congr (by simp)).2 hl
@[simp] theorem State.modCarrier_alarmLaw {ch : Channel} {f : Carrier → Carrier} {s : State} (hl : s.AlarmLaw) :
    (State.modCarrier ch f s).AlarmLaw := (alarmLaw_congr (by simp)).2 hl
@[simp] theorem State.postCap_alarmLaw {k : Setting} {s : State} (hl : s.AlarmLaw) :
    (State.postCap k s).AlarmLaw := by
  simp only [State.postCap]
  (repeat' split) <;> simp (maxDischargeDepth := 99) [hl]
@[simp] theorem State.settingEffects_alarmLaw {k : Setting} {v : Int} {s : State} (hl : s.AlarmLaw) :
    (State.settingEffects k v s).AlarmLaw := by
  simp only [State.settingEffects]
  (repeat' split) <;> simp (maxDischargeDepth := 99) [hl]
@[simp] theorem State.takeSetting_alarmLaw {k : Setting} {v : Int} {s : State} (hl : s.AlarmLaw) :
    (State.takeSetting k v s).AlarmLaw := by simp (maxDischargeDepth := 99) [State.takeSetting, hl]

end Sys2Proof.Machine
end

