-- ==== Sys2Proof/Laws/Notices.lean ====
section
/-! SUPPORT. What a posting, a tally and a report to the alarm list do (R191, R192, R195, R197): for each operation one lemma
that says the whole of its effect on the notices or the tallies; its frame is in Laws/Frames.lean. -/

namespace Sys2Proof.Machine

theorem EventKind.index_injective {k k' : EventKind} : k.index = k'.index ↔ k = k' := by
  cases k <;> cases k' <;> decide

theorem Tally.index_injective {x y : Tally} : x.index = y.index ↔ x = y := by
  constructor
  · intro h
    cases x with
    | swept a => cases a <;> cases y with
      | swept b | water b | linkLosses b | badFrames b | strikes b => cases b <;> first | rfl | exact absurd h (by decide)
      | _ => exact absurd h (by decide)
    | water a => cases a <;> cases y with
      | swept b | water b | linkLosses b | badFrames b | strikes b => cases b <;> first | rfl | exact absurd h (by decide)
      | _ => exact absurd h (by decide)
    | strikes a => cases a <;> cases y with
      | swept b | water b | linkLosses b | badFrames b | strikes b => cases b <;> first | rfl | exact absurd h (by decide)
      | _ => exact absurd h (by decide)
    | badFrames a => cases a <;> cases y with
      | swept b | water b | linkLosses b | badFrames b | strikes b => cases b <;> first | rfl | exact absurd h (by decide)
      | _ => exact absurd h (by decide)
    | linkLosses a => cases a <;> cases y with
      | swept b | water b | linkLosses b | badFrames b | strikes b => cases b <;> first | rfl | exact absurd h (by decide)
      | _ => exact absurd h (by decide)
    | _ => cases y with
      | swept b | water b | linkLosses b | badFrames b | strikes b => cases b <;> exact absurd h (by decide)
      | _ => first | rfl | exact absurd h (by decide)
  · rintro rfl; rfl

/-! ### Postings (R195) -/

/-- A posting to one event set: the kind is pending and counted, up to 15; every other kind and the mask stand. -/
theorem EventSet.post_spec (k : EventKind) (e : EventSet) :
    (e.post k).pending.getLsbD k.index = true ∧ (e.post k).counts[k.index] = min 15 (e.counts[k.index] + 1) ∧
    (e.post k).mask = e.mask ∧ ∀ k', k' ≠ k → (e.post k).sameKind e k' := by
  refine ⟨?_, ?_, rfl, ?_⟩
  · cases k <;> simp [EventSet.post, EventKind.index]
  · simp [EventSet.post]
  · intro k' hk
    constructor
    · have hi : k.index.val ≠ k'.index.val := fun h => hk (EventKind.index_injective.1 (Fin.ext h)).symm
      have hb : ∀ i j : Fin 16, i.val ≠ j.val → (1#16 <<< i.val).getLsbD j.val = false := by decide
      simp only [EventSet.post, BitVec.getLsbD_or, hb _ _ hi, Bool.or_false]
    · have : k.index ≠ k'.index := fun h => hk (EventKind.index_injective.1 h).symm
      simp only [EventSet.post]
      exact Vector.getElem_set_ne _ _ (fun h => this (Fin.ext h))

/-- What a posting to both links does to each event set. -/
theorem State.postBoth_events (k : EventKind) (s : State) (l : Link) :
    (s.postBoth k).notices.events l = (s.notices.events l).post k := by
  cases l <;> rfl

/-- What a posting to one link does to each event set. -/
theorem State.post_events (k : EventKind) (l l' : Link) (s : State) :
    (s.post k l).notices.events l' = if l' = l then (s.notices.events l).post k else s.notices.events l' := by
  cases l <;> cases l' <;> rfl

@[simp] theorem State.postBoth_alarms (k : EventKind) (s : State) : (s.postBoth k).notices.alarms = s.notices.alarms := rfl

@[simp] theorem State.post_alarms (k : EventKind) (l : Link) (s : State) :
    (s.post k l).notices.alarms = s.notices.alarms := by cases l <;> rfl

/-- A posting to both links is pending on both. -/
theorem State.postBoth_told (k : EventKind) (s : State) : (s.postBoth k).told k := by
  intro l
  rw [State.postBoth_events]
  exact (EventSet.post_spec k _).1

/-- A kind that is pending on both links stays so through a further posting of any kind. -/
theorem State.told_postBoth {k : EventKind} {s : State} (k' : EventKind) (h : s.told k) : (s.postBoth k').told k := by
  intro l
  rw [State.postBoth_events]
  by_cases hk : k = k'
  · subst hk; exact (EventSet.post_spec k _).1
  · rw [((EventSet.post_spec k' _).2.2.2 k hk).1]; exact h l

/-! ### Tallies (R197) -/

/-- Increments of one tally: it rises, up to the largest value of its width, and every other tally stands. -/
theorem State.bumpBy_tallies (x : Tally) (n : Nat) (s : State) :
    (s.bumpBy x n).bank.tallies[x.index] = min x.limit (s.bank.tallies[x.index] + n) ∧
    ∀ y, y ≠ x → (s.bumpBy x n).bank.tallies[y.index] = s.bank.tallies[y.index] := by
  constructor
  · simp [State.bumpBy]
  · intro y hy
    have : x.index ≠ y.index := fun h => hy (Tally.index_injective.1 h).symm
    simp only [State.bumpBy, State.modBank_bank]
    exact Vector.getElem_set_ne _ _ (fun h => this (Fin.ext h))

/-! ### Alarms (R191, R192) -/

/-- What a raise does (R191): the list as `RaisedIn` says, and ALARM_RAISED to both links. -/
theorem State.raiseAlarm_raises (c : AlarmCode) (d : Nat) (s : State) : State.Raises c d s (s.raiseAlarm c d) := by
  have hnow : (s.raiseAlarm c d).now = s.now := by simp [State.now]
  refine ⟨?_, ?_⟩
  · rw [hnow]
    have key : ∀ a : Alarm, a.hasKey c d = true ↔ a.code = c ∧ a.detail = d := by simp [Alarm.hasKey]
    have any_key : s.notices.alarms.any (Alarm.hasKey c d) = true ↔ ∃ a ∈ s.notices.alarms, a.code = c ∧ a.detail = d := by
      simp only [List.any_eq_true, key]
    constructor
    · intro h
      simp only [State.raiseAlarm, raiseIn, any_key.2 h, if_true]
      simp only [State.postBoth_alarms, State.modNotices_notices, Alarm.again]
      apply List.map_congr_left
      intro a _
      by_cases ha : a.code = c ∧ a.detail = d
      · rw [if_pos ((key a).2 ha), if_pos ha]
      · rw [if_neg (fun h => ha ((key a).1 h)), if_neg ha]
    · intro h
      have h' : ¬ s.notices.alarms.any (Alarm.hasKey c d) = true := by
        rw [any_key]; rintro ⟨a, ha, hk⟩; exact h a ha hk
      refine ⟨fun hl => ?_, fun hl hp => ?_, fun hl hp => ?_⟩
      · simp [State.raiseAlarm, raiseIn, h', hl, Alarm.new]
      · have hp' : s.notices.alarms.any (fun a => !a.present) = true := by
          obtain ⟨a, ha, hb⟩ := hp
          exact List.any_eq_true.2 ⟨a, ha, by simp [hb]⟩
        have hl' : ¬ s.notices.alarms.length < 16 := by omega
        simp [State.raiseAlarm, raiseIn, h', hl', hp', Alarm.new]
      · have hp' : ¬ s.notices.alarms.any (fun a => !a.present) = true := by
          intro hc
          obtain ⟨a, ha, hb⟩ := List.any_eq_true.1 hc
          simp [hp a ha] at hb
        have hl' : ¬ s.notices.alarms.length < 16 := by omega
        simp [State.raiseAlarm, raiseIn, h', hl', hp']
  · unfold State.raiseAlarm
    split <;> exact State.postBoth_told _ _

/-- What a raise does to the event sets: one posting of ALARM_RAISED. -/
theorem State.raiseAlarm_events (c : AlarmCode) (d : Nat) (s : State) (l : Link) :
    (s.raiseAlarm c d).notices.events l = (s.notices.events l).post .alarmRaised := by
  unfold State.raiseAlarm
  split <;> cases l <;> rfl

/-- What a report of absence does (R192): the condition of the key goes absent, with ALARM_GONE to both links when it was
present. -/
theorem State.alarmGone_goes (c : AlarmCode) (d : Nat) (s : State) : State.GoesAbsent c d s (s.alarmGone c d) := by
  have key : ∀ a : Alarm, a.hasKey c d = true ↔ a.code = c ∧ a.detail = d := by simp [Alarm.hasKey]
  unfold State.alarmGone
  split
  · next h =>
    refine ⟨?_, fun _ => State.postBoth_told _ _⟩
    simp only [State.postBoth_alarms, State.modNotices_notices, goneIn]
    apply List.map_congr_left
    intro a _
    by_cases ha : a.code = c ∧ a.detail = d
    · rw [if_pos ((key a).2 ha), if_pos ha]
    · rw [if_neg (fun h => ha ((key a).1 h)), if_neg ha]
  · next h =>
    have none : ∀ a ∈ s.notices.alarms, ¬(a.code = c ∧ a.detail = d ∧ a.present = true) := by
      intro a ha hk
      exact h (List.any_eq_true.2 ⟨a, ha, by simp [Alarm.hasKey, hk]⟩)
    refine ⟨?_, fun ⟨a, ha, h1, h2, h3⟩ => absurd ⟨h1, h2, h3⟩ (none a ha)⟩
    symm
    apply (List.map_congr_left _).trans (List.map_id _)
    intro a ha
    by_cases hk : a.code = c ∧ a.detail = d
    · rw [if_pos hk]
      have : a.present = false := by
        cases hp : a.present
        · rfl
        · exact absurd ⟨hk.1, hk.2, hp⟩ (none a ha)
      cases a; simp_all
    · rw [if_neg hk]; rfl

/-- What a report of absence does to the event sets: at most a posting of ALARM_GONE, which comes with a condition that was
present. -/
theorem State.alarmGone_events (c : AlarmCode) (d : Nat) (s : State) :
    (∀ (l : Link) (k : EventKind), k ≠ .alarmGone →
      ((s.alarmGone c d).notices.events l).sameKind (s.notices.events l) k) ∧
    (∀ l : Link, ((s.alarmGone c d).notices.events l).mask = (s.notices.events l).mask) ∧
    ((∃ a ∈ s.notices.alarms, a.code = c ∧ a.detail = d ∧ a.present = true) → s.postedOnce .alarmGone (s.alarmGone c d)) := by
  have post := fun l => EventSet.post_spec .alarmGone (s.notices.events l)
  unfold State.alarmGone
  split
  · have e : ∀ l, ((s.modNotices fun n => { n with alarms := goneIn c d n.alarms }).postBoth .alarmGone).notices.events l =
        (s.notices.events l).post .alarmGone := fun l => by cases l <;> rfl
    exact ⟨fun l k hk => by rw [e]; exact (post l).2.2.2 k hk, fun l => by rw [e]; exact (post l).2.2.1,
      fun _ l => by rw [e]; exact ⟨(post l).1, (post l).2.1⟩⟩
  · next h =>
    refine ⟨fun _ _ _ => ⟨rfl, rfl⟩, fun _ => rfl, fun ⟨a, ha, h1, h2, h3⟩ => absurd ?_ h⟩
    exact List.any_eq_true.2 ⟨a, ha, by simp [Alarm.hasKey, h1, h2, h3]⟩

/-- What was pending on both links stays so through a raise and through a report of absence. -/
theorem State.raiseAlarm_told {k : EventKind} {s : State} (c : AlarmCode) (d : Nat) (h : s.told k) :
    (s.raiseAlarm c d).told k := by
  unfold State.raiseAlarm
  split
  · exact State.told_postBoth _ h
  · exact State.told_postBoth _ h

theorem State.alarmGone_told {k : EventKind} {s : State} (c : AlarmCode) (d : Nat) (h : s.told k) :
    (s.alarmGone c d).told k := by
  unfold State.alarmGone
  split
  · exact State.told_postBoth _ h
  · exact h

/-- A raise counts nothing but an overflow (R191). -/
theorem State.raiseAlarm_tallies (c : AlarmCode) (d : Nat) (s : State) (x : Tally) (hx : x ≠ .overflows) :
    (s.raiseAlarm c d).bank.tallies[x.index] = s.bank.tallies[x.index] := by
  unfold State.raiseAlarm
  split
  · rfl
  · exact (State.bumpBy_tallies .overflows 1 s).2 x hx

end Sys2Proof.Machine
end

