-- ==== Sys2Proof/Laws/Ceiling.lean ====
section
/-! SUPPORT. What a post to the Ceiling Table does (R48, R56 to R59): its entry, the entries it leaves alone, and what a change
of the binding source brings, said once as `State.SettlesTo`, which composes. -/

namespace Sys2Proof.Machine

/-! ### SettlesTo composes -/

theorem EventSet.sameKind_trans {a b c : EventSet} {k : EventKind} (h : b.sameKind a k) (h' : c.sameKind b k) :
    c.sameKind a k := ⟨h'.1.trans h.1, h'.2.trans h.2⟩

theorem CeilingTable.sameEntry_trans {a b c : CeilingTable} {src : Source} (h : b.sameEntry a src)
    (h' : c.sameEntry b src) : c.sameEntry a src :=
  ⟨h'.1.trans h.1, h'.2.1.trans h.2.1, h'.2.2.trans h.2.2⟩

theorem State.settlesTo_refl (posted : List Source) (counted : List Tally) (s : State) :
    State.SettlesTo posted [] counted s s where
  channels := fun _ _ => rfl
  owners := fun _ => ⟨rfl, rfl, rfl⟩
  cuts := ⟨rfl, rfl⟩
  entries := fun _ _ _ _ => ⟨rfl, rfl, rfl⟩
  report := rfl
  events := fun _ _ _ _ => ⟨rfl, rfl⟩
  posts := fun _ h => absurd h List.not_mem_nil
  masks := fun _ => rfl
  alarms := rfl
  tallies := fun _ _ _ => rfl
  bars := fun _ => ⟨rfl, rfl, rfl, fun _ => rfl⟩
  tank := ⟨rfl, rfl, rfl, rfl⟩
  rest := rfl

/-- Two changes in turn. A kind posted by the first stays pending, because no change clears a kind. -/
theorem State.SettlesTo.trans {p p' : List Source} {k k' : List EventKind} {c c' : List Tally} {s t u : State}
    (h : State.SettlesTo p k c s t) (h' : State.SettlesTo p' k' c' t u) (hk : EventKind.ceilingBinding ∉ k) :
    State.SettlesTo (p ++ p') (k ++ k') (c ++ c') s u where
  channels := fun ch hc => (h'.channels ch hc).trans (h.channels ch hc)
  owners := fun ch => ⟨(h'.owners ch).1.trans (h.owners ch).1, (h'.owners ch).2.1.trans (h.owners ch).2.1,
    (h'.owners ch).2.2.trans (h.owners ch).2.2⟩
  cuts := ⟨h'.cuts.1.trans h.cuts.1, h'.cuts.2.trans h.cuts.2⟩
  entries := fun src hs h1 h2 => by
    rw [List.mem_append, not_or] at hs
    exact CeilingTable.sameEntry_trans (h.entries src hs.1 h1 h2) (h'.entries src hs.2 h1 h2)
  report := h'.report.trans h.report
  events := fun l e he h1 => by
    rw [List.mem_append, not_or] at he
    exact EventSet.sameKind_trans (h.events l e he.1 h1) (h'.events l e he.2 h1)
  posts := fun e he => by
    by_cases hm : e ∈ k'
    · exact h'.posts e hm
    · have hm' : e ∈ k := (List.mem_append.1 he).resolve_right hm
      intro l
      have hb : e ≠ .ceilingBinding := fun hb => hk (hb ▸ hm')
      rw [(h'.events l e hm hb).1]
      exact h.posts e hm' l
  masks := fun l => (h'.masks l).trans (h.masks l)
  alarms := h'.alarms.trans h.alarms
  tallies := fun x hx h1 => by
    rw [List.mem_append, not_or] at hx
    exact (h'.tallies x hx.2 h1).trans (h.tallies x hx.1 h1)
  bars := fun b => ⟨(h'.bars b).1.trans (h.bars b).1, (h'.bars b).2.1.trans (h.bars b).2.1,
    (h'.bars b).2.2.1.trans (h.bars b).2.2.1, fun hx => by
      rw [List.mem_append, not_or] at hx
      exact ((h'.bars b).2.2.2 hx.2).trans ((h.bars b).2.2.2 hx.1)⟩
  tank := ⟨h'.tank.1.trans h.tank.1, h'.tank.2.1.trans h.tank.2.1, h'.tank.2.2.1.trans h.tank.2.2.1,
    h'.tank.2.2.2.trans h.tank.2.2.2⟩
  rest := by
    have e := h.rest
    have e' := h'.rest
    have : u.bank = { s.bank with tallies := u.bank.tallies } := by
      have b := congrArg State.bank e
      have b' := congrArg State.bank e'
      rw [b] at b'
      exact b'
    rw [e'] at this ⊢
    rw [e] at this ⊢

/-- SettlesTo with more posted, and with more counted. -/
theorem State.SettlesTo.weaken {p p' : List Source} {k : List EventKind} {c c' : List Tally} {s t : State}
    (h : State.SettlesTo p k c s t) (hp : p ⊆ p') (hc : c ⊆ c') : State.SettlesTo p' k c' s t :=
  { h with
    entries := fun src hs => h.entries src fun hm => hs (hp hm)
    tallies := fun x hx => h.tallies x fun hm => hx (hc hm)
    bars := fun b => ⟨(h.bars b).1, (h.bars b).2.1, (h.bars b).2.2.1, fun hx => (h.bars b).2.2.2 fun hm => hx (hc hm)⟩ }

/-- What was pending on both links stays so. -/
theorem State.SettlesTo.told {p : List Source} {k : List EventKind} {c : List Tally} {s t : State}
    (h : State.SettlesTo p k c s t) {e : EventKind} (he : e ≠ .ceilingBinding) (hs : s.told e) : t.told e := by
  by_cases hm : e ∈ k
  · exact h.posts e hm
  · intro l; rw [(h.events l e hm he).1]; exact hs l

/-! ### The posts -/

theorem Source.slot_injective {a b : Source} : a.slot = b.slot ↔ a = b := by
  cases a <;> cases b <;> decide

theorem CeilingTable.modEntry_same (src : Source) (f : CeilingEntry → CeilingEntry) (t : CeilingTable) :
    (t.modEntry src f).entry src = f (t.entry src) := by simp [CeilingTable.modEntry, CeilingTable.entry]

theorem CeilingTable.modEntry_other {src a : Source} (h : a ≠ src) (f : CeilingEntry → CeilingEntry) (t : CeilingTable) :
    (t.modEntry src f).entry a = t.entry a := by
  have : src.slot.val ≠ a.slot.val := fun e => h (Source.slot_injective.1 (Fin.ext e)).symm
  simp only [CeilingTable.modEntry, CeilingTable.entry]
  exact Vector.getElem_set_ne _ _ this

/-- What a change of the table leaves (R58, R59): every entry as the change itself gives it, but for its engagements; beside
the table only CEILING_BINDING and the urgent stops may have moved. -/
theorem State.changeCeiling_spec (f : CeilingTable → CeilingTable) (s : State) :
    (∀ src, (s.changeCeiling f).ceiling.sameEntry (f s.ceiling) src) ∧
    (s.changeCeiling f).ceiling.reportDir = (f s.ceiling).reportDir ∧
    ((s.changeCeiling f).notices = s.notices ∨ (s.changeCeiling f).notices = (s.postBoth .ceilingBinding).notices) ∧
    ((s.changeCeiling f).bank = s.bank ∨ (s.changeCeiling f).bank = (s.bump .urgentStops).bank) := by
  have eng : ∀ (t : CeilingTable) (is src : Source) (n : Time),
      ({ t.modEntry is (fun e => { e with engagements := min 65535 (e.engagements + 1) }) with
        lastChange := n } : CeilingTable).sameEntry t src := by
    intro t is src n
    have h : ({ t.modEntry is (fun e => { e with engagements := min 65535 (e.engagements + 1) }) with
        lastChange := n } : CeilingTable).entry src =
        (t.modEntry is (fun e => { e with engagements := min 65535 (e.engagements + 1) })).entry src := rfl
    unfold CeilingTable.sameEntry
    rw [h]
    by_cases hs : src = is
    · subst hs; rw [CeilingTable.modEntry_same]; exact ⟨rfl, rfl, rfl⟩
    · rw [CeilingTable.modEntry_other hs]; exact ⟨rfl, rfl, rfl⟩
  unfold State.changeCeiling
  dsimp only
  split
  · exact ⟨fun _ => ⟨rfl, rfl, rfl⟩, rfl, .inl rfl, .inl rfl⟩
  · split
    · exact ⟨fun src => eng _ _ src _, rfl, .inr rfl, .inr rfl⟩
    · exact ⟨fun src => eng _ _ src _, rfl, .inr rfl, .inl rfl⟩

/-- A change of the table that leaves every entry but those of a list and the report direction settles to its result. -/
theorem State.changeCeiling_settlesTo (posted : List Source) (f : CeilingTable → CeilingTable) (s : State)
    (hf : ∀ src, src ∉ posted → (f s.ceiling).sameEntry s.ceiling src) (hr : (f s.ceiling).reportDir = s.ceiling.reportDir) :
    State.SettlesTo posted [] [] s (s.changeCeiling f) := by
  obtain ⟨h1, h2, h3, h4⟩ := State.changeCeiling_spec f s
  have post := fun (l : Link) => EventSet.post_spec .ceilingBinding (s.notices.events l)
  refine
    { channels := fun _ _ => by simp, owners := fun _ => by simp, cuts := by simp, report := h2.trans hr
      entries := fun src hs _ _ => CeilingTable.sameEntry_trans (hf src hs) (h1 src)
      events := fun l k _ hk => ?_, posts := fun _ h => absurd h List.not_mem_nil, masks := fun l => ?_, alarms := ?_
      tallies := fun x _ hx => ?_, bars := fun _ => by simp, tank := by simp, rest := ?_ }
  · rcases h3 with h | h <;> rw [h]
    · exact ⟨rfl, rfl⟩
    · rw [State.postBoth_events]; exact (post l).2.2.2 k hk
  · rcases h3 with h | h <;> rw [h]
    rw [State.postBoth_events]; exact (post l).2.2.1
  · rcases h3 with h | h <;> rw [h]
    rfl
  · rcases h4 with h | h <;> rw [h]
    exact (State.bumpBy_tallies .urgentStops 1 s).2 x hx
  · have hb : (s.changeCeiling f).bank = { s.bank with tallies := (s.changeCeiling f).bank.tallies } := by
      rcases h4 with h | h <;> rw [h]
      rfl
    exact State.eq_of_fields (by simp) (by simp) (by simp) (by simp) rfl (by simp) (by simp) rfl (by simp) rfl (by simp)
      rfl hb (by simp) (by simp) (by simp)

/-- The binding source does not depend on an entry's since or engagements (R56). -/
theorem CeilingTable.binding_congr {t u : CeilingTable} (h : ∀ src, t.sameEntry u src) (d : Dir) : t.binding d = u.binding d := by
  have b : t.better d = u.better d := by
    funext best src
    simp only [CeilingTable.better, CeilingTable.applies, (h src).1]
    cases best with
    | none => rfl
    | some x => simp only [(h src).2.1, (h x).2.1]; congr
  simp only [CeilingTable.binding, b]

/-- What a change of the table reports (R58, R59). -/
theorem State.changeCeiling_reports (f : CeilingTable → CeilingTable) (s : State)
    (hl : (f s.ceiling).lastChange = s.ceiling.lastChange)
    (he : ∀ src, ((f s.ceiling).entry src).engagements = (s.ceiling.entry src).engagements) :
    State.CeilingReports s (s.changeCeiling f) := by
  obtain ⟨h1, h2, -, -⟩ := State.changeCeiling_spec f s
  have hb : (s.changeCeiling f).ceiling.reported = (f s.ceiling).reported := by
    simp only [CeilingTable.reported, h2]
    exact CeilingTable.binding_congr h1 _
  unfold State.CeilingReports
  dsimp only
  rw [hb]
  have u : ∀ src : Source, src.urgent = true ↔ src = .driveLoss ∨ src = .driveFault := by
    intro src; cases src <;> decide
  refine ⟨fun h => ?_, fun h => ?_⟩
  · have e : s.changeCeiling f = s.modCeiling f := by
      unfold State.changeCeiling
      dsimp only
      split
      · rfl
      · next hn => exact absurd h hn
    rw [e]
    exact ⟨hl, he, rfl, rfl⟩
  · generalize ht : s.changeCeiling f = t
    unfold State.changeCeiling at ht
    dsimp only at ht
    split at ht
    · next hp => exact absurd hp h
    have post := fun l => EventSet.post_spec .ceilingBinding (s.notices.events l)
    have key : ∀ c : CeilingTable,
        c = { (f s.ceiling).modEntry (f s.ceiling).reported
          (fun e => { e with engagements := min 65535 (e.engagements + 1) }) with lastChange := s.now } →
        t.ceiling = c → t.notices = (s.postBoth .ceilingBinding).notices →
        t.ceiling.lastChange = s.now ∧
        (t.ceiling.entry (f s.ceiling).reported).engagements =
          min 65535 ((s.ceiling.entry (f s.ceiling).reported).engagements + 1) ∧
        (∀ src, src ≠ (f s.ceiling).reported → (t.ceiling.entry src).engagements = (s.ceiling.entry src).engagements) ∧
        s.postedOnce .ceilingBinding t := by
      rintro c rfl hc hn
      have en : ∀ src, t.ceiling.entry src = ((f s.ceiling).modEntry (f s.ceiling).reported
          (fun e => { e with engagements := min 65535 (e.engagements + 1) })).entry src := fun src => by rw [hc]; rfl
      refine ⟨by rw [hc], ?_, fun src hs => ?_, fun l => ?_⟩
      · rw [en, CeilingTable.modEntry_same]; dsimp only; rw [he]
      · rw [en, CeilingTable.modEntry_other hs]; exact he src
      · rw [hn, State.postBoth_events]; exact ⟨(post l).1, (post l).2.1⟩
    split at ht
    · next hx =>
      obtain ⟨a1, a2, a3, a4⟩ := key _ rfl (by subst ht; rfl) (by subst ht; rfl)
      have hx : ((f s.ceiling).reported.urgent && !s.ceiling.reported.urgent && decide (0 < s.gov.vRef)) = true := hx
      simp only [Bool.and_eq_true, Bool.not_eq_true', decide_eq_true_eq] at hx
      refine ⟨a1, a2, a3, a4, fun _ _ _ => ?_, fun hn => ?_⟩
      · subst ht; exact (State.bumpBy_tallies .urgentStops 1 s).1
      · rcases hn with hn | hn | hn
        · exact absurd ((u _).1 hx.1.1) hn
        · exact absurd ((u _).2 hn) (by rw [hx.1.2]; decide)
        · omega
    · next hx =>
      obtain ⟨a1, a2, a3, a4⟩ := key _ rfl (by subst ht; rfl) (by subst ht; rfl)
      have hx : ¬((f s.ceiling).reported.urgent && !s.ceiling.reported.urgent && decide (0 < s.gov.vRef)) = true := hx
      refine ⟨a1, a2, a3, a4, fun h1 h2 h3 => absurd ?_ hx, fun _ => by subst ht; rfl⟩
      have n2 : s.ceiling.reported.urgent = false := Bool.eq_false_iff.2 fun h => h2 ((u _).1 h)
      rw [(u _).2 h1, n2]; simpa using h3

/-- A post to one entry reports as R58 and R59 say. -/
theorem State.changeEntry_reports (src : Source) (f : CeilingEntry → CeilingEntry)
    (hf : ∀ e, (f e).engagements = e.engagements) (s : State) :
    State.CeilingReports s (s.changeCeiling (CeilingTable.modEntry src f)) := by
  refine State.changeCeiling_reports _ s rfl fun a => ?_
  by_cases ha : a = src
  · subst ha; rw [CeilingTable.modEntry_same]; exact hf _
  · rw [CeilingTable.modEntry_other ha]

/-- Activate with cap (R48). -/
theorem State.activate_spec (src : Source) (cap : Nat) (s : State) :
    ((s.activate src cap).ceiling.entry src).active = true ∧ ((s.activate src cap).ceiling.entry src).cap = cap ∧
    ((s.activate src cap).ceiling.entry src).since =
      (if (s.ceiling.entry src).active then (s.ceiling.entry src).since else s.now) ∧
    State.SettlesTo [src] [] [] s (s.activate src cap) := by
  have h := (State.changeCeiling_spec (CeilingTable.modEntry src fun e =>
    if e.active then { e with cap := cap } else { e with active := true, cap := cap, since := s.now }) s).1 src
  unfold CeilingTable.sameEntry at h
  rw [CeilingTable.modEntry_same] at h
  refine ⟨?_, ?_, ?_, ?_⟩
  · refine h.1.trans ?_; split <;> simp_all
  · refine h.2.1.trans ?_; split <;> rfl
  · refine h.2.2.trans ?_; split <;> rfl
  · refine State.changeCeiling_settlesTo _ _ _ (fun a ha => ?_) rfl
    unfold CeilingTable.sameEntry
    rw [CeilingTable.modEntry_other (by simpa using ha)]
    exact ⟨rfl, rfl, rfl⟩

/-- Update cap (R48): the entry's activity and since stand. -/
theorem State.updateCap_spec (src : Source) (cap : Nat) (s : State) :
    ((s.updateCap src cap).ceiling.entry src).active = (s.ceiling.entry src).active ∧
    ((s.updateCap src cap).ceiling.entry src).cap = cap ∧
    ((s.updateCap src cap).ceiling.entry src).since = (s.ceiling.entry src).since ∧
    State.SettlesTo [src] [] [] s (s.updateCap src cap) := by
  have h := (State.changeCeiling_spec (CeilingTable.modEntry src fun e => { e with cap := cap }) s).1 src
  unfold CeilingTable.sameEntry at h
  rw [CeilingTable.modEntry_same] at h
  refine ⟨h.1, h.2.1, h.2.2, ?_⟩
  refine State.changeCeiling_settlesTo _ _ _ (fun a ha => ?_) rfl
  unfold CeilingTable.sameEntry
  rw [CeilingTable.modEntry_other (by simpa using ha)]
  exact ⟨rfl, rfl, rfl⟩

/-- Deactivate (R48): the cap and since are kept. -/
theorem State.deactivate_spec (src : Source) (s : State) :
    ((s.deactivate src).ceiling.entry src).active = false ∧
    ((s.deactivate src).ceiling.entry src).cap = (s.ceiling.entry src).cap ∧
    ((s.deactivate src).ceiling.entry src).since = (s.ceiling.entry src).since ∧
    State.SettlesTo [src] [] [] s (s.deactivate src) := by
  have h := (State.changeCeiling_spec (CeilingTable.modEntry src fun e => { e with active := false }) s).1 src
  unfold CeilingTable.sameEntry at h
  rw [CeilingTable.modEntry_same] at h
  refine ⟨h.1, h.2.1, h.2.2, ?_⟩
  refine State.changeCeiling_settlesTo _ _ _ (fun a ha => ?_) rfl
  unfold CeilingTable.sameEntry
  rw [CeilingTable.modEntry_other (by simpa using ha)]
  exact ⟨rfl, rfl, rfl⟩

/-- An entry kept on a condition is active exactly while the condition holds (R110, R137). -/
theorem State.keepEntry_spec (src : Source) (holds : Bool) (cap : Nat) (s : State) :
    ((s.keepEntry src holds cap).ceiling.entry src).active = holds ∧
    State.SettlesTo [src] [] [] s (s.keepEntry src holds cap) := by
  unfold State.keepEntry
  split
  · next h =>
    obtain ⟨h1, -, -, h4⟩ := State.activate_spec src cap s
    exact ⟨h1.trans (by simp_all), h4⟩
  · split
    · next h =>
      obtain ⟨h1, -, -, h4⟩ := State.deactivate_spec src s
      exact ⟨h1.trans (by simp_all), h4⟩
    · refine ⟨?_, State.settlesTo_refl _ _ _⟩
      cases holds <;> simp_all

/-- A post to one entry leaves every other entry, SPRAY_LIMIT and DRY_SWEEP among them. -/
theorem State.changeEntry_other {src a : Source} (ha : a ≠ src) (f : CeilingEntry → CeilingEntry) (s : State) :
    (s.changeCeiling (CeilingTable.modEntry src f)).ceiling.sameEntry s.ceiling a := by
  have h := (State.changeCeiling_spec (CeilingTable.modEntry src f) s).1 a
  unfold CeilingTable.sameEntry at h
  rw [CeilingTable.modEntry_other ha] at h
  exact h

/-- An entry kept on a condition leaves every other entry. -/
theorem State.keepEntry_other {src a : Source} (ha : a ≠ src) (holds : Bool) (cap : Nat) (s : State) :
    (s.keepEntry src holds cap).ceiling.sameEntry s.ceiling a := by
  unfold State.keepEntry
  split
  · exact State.changeEntry_other ha _ s
  · split
    · exact State.changeEntry_other ha _ s
    · exact ⟨rfl, rfl, rfl⟩

end Sys2Proof.Machine
end

