-- ==== Sys2Proof/Laws/Output.lean ====
section
/-! SUPPORT. What a change of one channel does (R159, R160, R163, R169, R172): the other channels and the cut latches stand, and
the channel's record is the changed one with its target formed anew. -/

namespace Sys2Proof.Machine

/-! ### One record -/

/-- Forming the target anew leaves what the owner, the holder and the sense circuit gave. -/
theorem ChannelRec.reform_spec (cut : Bool) (r : RangeSettings) (ch : Channel) (c : ChannelRec) :
    (c.reform cut r ch).setpoint = c.setpoint ∧ (c.reform cut r ch).measured = c.measured ∧
    (c.reform cut r ch).fault = c.fault ∧ (c.reform cut r ch).holder = c.holder ∧ (c.reform cut r ch).level = c.level ∧
    (c.reform cut r ch).target = targetIn (c.stateWith cut) r ch c := ⟨rfl, rfl, rfl, rfl, rfl, rfl⟩

/-- The state of a record does not depend on what forming the target changes. -/
theorem ChannelRec.reform_stateWith (cut : Bool) (r : RangeSettings) (ch : Channel) (c : ChannelRec) :
    (c.reform cut r ch).stateWith cut = c.stateWith cut := rfl

/-- With target 0 a channel's commanded output is 0: a PROP channel's carrier is then at rest (R163). -/
theorem ChannelRec.reform_commanded_zero {cut : Bool} {r : RangeSettings} {ch : Channel} {c : ChannelRec}
    (h : targetIn (c.stateWith cut) r ch c = 0) : (c.reform cut r ch).commandedOn ch = 0 := by
  simp only [ChannelRec.commandedOn, ChannelRec.reform, h]
  split
  · simp [Carrier.follow]
  · rfl

/-! ### The records of the stage -/

theorem Output.modChannel_same (ch : Channel) (f : ChannelRec → ChannelRec) (o : Output) :
    (o.modChannel ch f).channels[ch] = f o.channels[ch] := by simp [Output.modChannel]

theorem Output.modChannel_other {ch k : Channel} (h : k ≠ ch) (f : ChannelRec → ChannelRec) (o : Output) :
    (o.modChannel ch f).channels[k] = o.channels[k] := by
  simp only [Output.modChannel]
  exact Vector.getElem_set_ne _ _ fun e => h (Fin.ext e).symm

/-- What a change of one channel does. -/
theorem State.changeChannel_spec (ch : Channel) (f : ChannelRec → ChannelRec) (s : State) :
    (s.changeChannel ch f).output.channels[ch] =
      (f s.output.channels[ch]).reform (s.output.cutFlag ch) s.settings.ranges[ch] ch ∧
    (∀ k, k ≠ ch → (s.changeChannel ch f).output.channels[k] = s.output.channels[k]) ∧
    (s.changeChannel ch f).output.driveCut = s.output.driveCut ∧
    (s.changeChannel ch f).output.broomCut = s.output.broomCut :=
  ⟨Output.modChannel_same _ _ _, fun _ h => Output.modChannel_other h _ _, rfl, rfl⟩

/-- What an owner's post does (R160): its setpoint stands, and no channel's fault, holder or level moves. -/
theorem State.postSetpoint_spec (ch : Channel) (v : Nat) (s : State) :
    (s.postSetpoint ch v).output.channels[ch].setpoint = v ∧
    (∀ k, k ≠ ch → (s.postSetpoint ch v).output.channels[k] = s.output.channels[k]) ∧
    (∀ k : Channel, (s.postSetpoint ch v).output.channels[k].fault = s.output.channels[k].fault ∧
      (s.postSetpoint ch v).output.channels[k].holder = s.output.channels[k].holder ∧
      (s.postSetpoint ch v).output.channels[k].level = s.output.channels[k].level) ∧
    (s.postSetpoint ch v).output.driveCut = s.output.driveCut ∧
    (s.postSetpoint ch v).output.broomCut = s.output.broomCut := by
  obtain ⟨h1, h2, h3, h4⟩ := State.changeChannel_spec ch (fun c => { c with setpoint := v }) s
  refine ⟨by unfold State.postSetpoint; rw [h1]; rfl, h2, fun k => ?_, h3, h4⟩
  by_cases hk : k = ch
  · subst hk; unfold State.postSetpoint; rw [h1]; exact ⟨rfl, rfl, rfl⟩
  · unfold State.postSetpoint; rw [h2 k hk]; exact ⟨rfl, rfl, rfl⟩

/-- A post changes the Output Stage alone. -/
theorem State.postSetpoint_rest (ch : Channel) (v : Nat) (s : State) :
    s.postSetpoint ch v = { s with output := (s.postSetpoint ch v).output } := rfl

end Sys2Proof.Machine
end

