-- ==== Sys2Proof/Laws/Spray.lean ====
section
/-! SUPPORT. What the judgement of the bars does (R117, R119, R129, R130, R137): its frame as `State.SettlesTo`, the bars and the
two entries as their conditions say, and each bar's record and the pump. -/

namespace Sys2Proof.Machine

/-! ### Records of the bars -/

@[simp] theorem Spray.modBar_same (b : Bar) (f : BarRec → BarRec) (y : Spray) : (y.modBar b f).bar b = f (y.bar b) := by
  cases b <;> rfl

theorem Spray.modBar_other {b k : Bar} (h : k ≠ b) (f : BarRec → BarRec) (y : Spray) :
    (y.modBar b f).bar k = y.bar k := by cases b <;> cases k <;> first | rfl | exact absurd rfl h

/-- A change of a bar's record leaves the pump, the latch and the tank. -/
theorem Spray.modBar_rest (b : Bar) (f : BarRec → BarRec) (y : Spray) :
    (y.modBar b f).duty = y.duty ∧ (y.modBar b f).dryCount = y.dryCount ∧ (y.modBar b f).latch = y.latch ∧
    (y.modBar b f).tank = y.tank ∧ (y.modBar b f).level = y.level ∧ (y.modBar b f).pressure = y.pressure := by
  cases b <;> exact ⟨rfl, rfl, rfl, rfl, rfl, rfl⟩

theorem Bar.valve_ge (b : Bar) : 15 ≤ b.valve.val := by cases b <;> decide

theorem Bar.valve_injective {a b : Bar} : a.valve = b.valve ↔ a = b := by cases a <;> cases b <;> decide

/-! ### Frames -/

/-- SettlesTo with fewer posted: the entries SPRAY_LIMIT and DRY_SWEEP need not be named. -/
theorem State.SettlesTo.unname {p p' : List Source} {k : List EventKind} {c : List Tally} {s t : State}
    (h : State.SettlesTo p k c s t) (hp : ∀ src ∈ p, src ∈ p' ∨ src = .sprayLimit ∨ src = .drySweep) :
    State.SettlesTo p' k c s t :=
  { h with
    entries := fun src hs h1 h2 => h.entries src (fun hm => by
      rcases hp src hm with h | h | h
      · exact hs h
      · exact h1 h
      · exact h2 h) h1 h2 }

/-- A change of bars' records and of the pump alone, with channels from 14 on posted, settles. -/
theorem State.settlesTo_of_spray {s t : State} (hc : ∀ ch : Channel, ch.val < 14 → t.output.channels[ch] = s.output.channels[ch])
    (ho : ∀ ch : Channel, t.output.channels[ch].fault = s.output.channels[ch].fault ∧
      t.output.channels[ch].holder = s.output.channels[ch].holder ∧ t.output.channels[ch].level = s.output.channels[ch].level)
    (hcut : t.output.driveCut = s.output.driveCut ∧ t.output.broomCut = s.output.broomCut)
    (hb : ∀ b : Bar, (t.spray.bar b).enable = (s.spray.bar b).enable ∧
      (t.spray.bar b).valveFault = (s.spray.bar b).valveFault ∧ (t.spray.bar b).deliveredRem = (s.spray.bar b).deliveredRem ∧
      (t.spray.bar b).shortfallRem = (s.spray.bar b).shortfallRem)
    (ht : t.spray.tank = s.spray.tank ∧ t.spray.level = s.spray.level ∧ t.spray.latch = s.spray.latch ∧
      t.spray.pressure = s.spray.pressure)
    (hr : t = { s with output := t.output, spray := t.spray }) : State.SettlesTo [] [] [] s t where
  channels := hc
  owners := ho
  cuts := hcut
  entries := fun src _ _ _ => by rw [hr]; exact ⟨rfl, rfl, rfl⟩
  report := by rw [hr]
  events := fun l k _ _ => by rw [hr]; exact ⟨rfl, rfl⟩
  posts := fun _ h => absurd h List.not_mem_nil
  masks := fun l => by rw [hr]
  alarms := by rw [hr]
  tallies := fun x _ _ => by rw [hr]
  bars := fun b => ⟨(hb b).1, (hb b).2.1, (hb b).2.2.1, fun _ => (hb b).2.2.2⟩
  tank := ht
  rest := by rw [hr]

/-! ### One bar -/

/-- What becomes of a bar that is no longer active (R119). -/
def BarRec.closed (x : BarRec) : BarRec :=
  { x with active := false, pulseEnd := none, owed := 0, saturated := false, lastPulse := 0 }

/-- A bar becomes inactive (R119). -/
theorem State.deactivateBar_spec (b : Bar) (s : State) :
    (s.deactivateBar b).spray.bar b = (s.spray.bar b).closed ∧
    (∀ k, k ≠ b → (s.deactivateBar b).spray.bar k = s.spray.bar k) ∧
    ((s.spray.bar b).pulseEnd.isSome = true → (s.deactivateBar b).output.channels[b.valve].setpoint = 0) ∧
    (∀ k, k ≠ b.valve → (s.deactivateBar b).output.channels[k] = s.output.channels[k]) ∧
    (s.deactivateBar b).spray.duty = s.spray.duty ∧ (s.deactivateBar b).spray.dryCount = s.spray.dryCount ∧
    State.SettlesTo [] [] [] s (s.deactivateBar b) := by
  obtain ⟨p1, p2, p3, p4⟩ := State.postSetpoint_spec b.valve 0 s
  have hr := Spray.modBar_rest b BarRec.closed s.spray
  have key : ∀ u : State, u.spray = s.spray → u = { s with output := u.output } →
      (∀ k, k ≠ b.valve → u.output.channels[k] = s.output.channels[k]) →
      (∀ k : Channel, u.output.channels[k].fault = s.output.channels[k].fault ∧
        u.output.channels[k].holder = s.output.channels[k].holder ∧
        u.output.channels[k].level = s.output.channels[k].level) →
      u.output.driveCut = s.output.driveCut ∧ u.output.broomCut = s.output.broomCut →
      State.SettlesTo [] [] [] s (u.modBar b BarRec.closed) := by
    intro u hs hu h2 h3 h4
    refine State.settlesTo_of_spray (fun ch hch => h2 ch fun e => ?_) h3 h4 (fun k => ?_) ?_ ?_
    · have := Bar.valve_ge b; rw [e] at hch; omega
    · simp only [State.modBar, State.modSpray_spray, hs]
      by_cases hk : k = b
      · subst hk; rw [Spray.modBar_same]; exact ⟨rfl, rfl, rfl, rfl⟩
      · rw [Spray.modBar_other hk]; exact ⟨rfl, rfl, rfl, rfl⟩
    · simp only [State.modBar, State.modSpray_spray, hs]
      exact ⟨hr.2.2.2.1, hr.2.2.2.2.1, hr.2.2.1, hr.2.2.2.2.2⟩
    · rw [hu]; rfl
  have hb : ∀ u : State, u.spray = s.spray → (u.modBar b BarRec.closed).spray.bar b = (s.spray.bar b).closed ∧
      (∀ k, k ≠ b → (u.modBar b BarRec.closed).spray.bar k = s.spray.bar k) ∧
      (u.modBar b BarRec.closed).spray.duty = s.spray.duty ∧ (u.modBar b BarRec.closed).spray.dryCount = s.spray.dryCount := by
    intro u hu
    simp only [State.modBar, State.modSpray_spray, hu]
    exact ⟨Spray.modBar_same _ _ _, fun k hk => Spray.modBar_other hk _ _, hr.1, hr.2.1⟩
  by_cases hp : (s.spray.bar b).pulseEnd.isSome = true
  · have e : s.deactivateBar b = (s.postSetpoint b.valve 0).modBar b BarRec.closed := by
      simp only [State.deactivateBar, hp, if_true]; rfl
    rw [e]
    obtain ⟨h1, h2, h3, h4⟩ := hb _ rfl
    exact ⟨h1, h2, fun _ => p1, p2, h3, h4, key _ rfl rfl p2 p3 p4⟩
  · have e : s.deactivateBar b = s.modBar b BarRec.closed := by
      simp only [State.deactivateBar, hp]; rfl
    rw [e]
    obtain ⟨h1, h2, h3, h4⟩ := hb _ rfl
    exact ⟨h1, h2, fun h => absurd h hp, fun _ _ => rfl, h3, h4,
      key _ rfl rfl (fun _ _ => rfl) (fun _ => ⟨rfl, rfl, rfl⟩) ⟨rfl, rfl⟩⟩

/-- What the judgement of one bar does to its record (R117, R119). -/
theorem State.judgeBar_spec (b : Bar) (s : State) :
    ((s.judgeBar b).spray.bar b).active = s.barMayBeActive b ∧
    (s.judgeBar b).spray.bar b = (if (s.spray.bar b).active = true ∧ s.barMayBeActive b = false then (s.spray.bar b).closed
      else { s.spray.bar b with active := s.barMayBeActive b }) ∧
    (∀ k, k ≠ b → (s.judgeBar b).spray.bar k = s.spray.bar k) ∧
    ((s.spray.bar b).active = true → s.barMayBeActive b = false → (s.spray.bar b).pulseEnd.isSome = true →
      (s.judgeBar b).output.channels[b.valve].setpoint = 0) ∧
    (∀ k, k ≠ b.valve → (s.judgeBar b).output.channels[k] = s.output.channels[k]) ∧
    (s.judgeBar b).spray.duty = s.spray.duty ∧ (s.judgeBar b).spray.dryCount = s.spray.dryCount ∧
    State.SettlesTo [] [] [] s (s.judgeBar b) := by
  have hr := Spray.modBar_rest b (fun x => { x with active := true }) s.spray
  unfold State.judgeBar
  cases ha : (s.spray.bar b).active <;> cases hm : s.barMayBeActive b
  · simp only [Bool.false_and, Bool.not_false, Bool.and_false, Bool.false_eq_true, if_false]
    exact ⟨ha, by simp [← ha], fun _ _ => trivial, fun h => absurd h (by simp), fun _ _ => trivial, trivial, trivial,
      State.settlesTo_refl _ _ _⟩
  · simp only [Bool.false_and, Bool.not_false, Bool.and_self, Bool.false_eq_true, if_false, if_true]
    refine ⟨?_, ?_, fun k hk => Spray.modBar_other hk _ _, fun h => absurd h (by simp), fun _ _ => rfl, hr.1, hr.2.1, ?_⟩
    · simp [State.modBar]
    · simp [State.modBar]
    · refine State.settlesTo_of_spray (fun _ _ => rfl) (fun _ => ⟨rfl, rfl, rfl⟩) ⟨rfl, rfl⟩ (fun k => ?_)
        ⟨hr.2.2.2.1, hr.2.2.2.2.1, hr.2.2.1, hr.2.2.2.2.2⟩ rfl
      simp only [State.modBar, State.modSpray_spray]
      by_cases hk : k = b
      · subst hk; rw [Spray.modBar_same]; exact ⟨rfl, rfl, rfl, rfl⟩
      · rw [Spray.modBar_other hk]; exact ⟨rfl, rfl, rfl, rfl⟩
  · obtain ⟨h1, h2, h3, h4, h5, h6, h7⟩ := State.deactivateBar_spec b s
    simp only [Bool.not_false, Bool.and_self, if_true]
    refine ⟨?_, h1, h2, fun _ _ => h3, h4, h5, h6, h7⟩
    rw [h1]; rfl
  · simp only [Bool.not_true, Bool.and_false, Bool.false_and, Bool.false_eq_true, if_false]
    exact ⟨ha, by simp [← ha], fun _ _ => trivial, fun _ h => absurd h (by simp), fun _ _ => trivial, trivial, trivial,
      State.settlesTo_refl _ _ _⟩

/-! ### The three bars -/

/-- The conditions of a bar do not depend on what a judgement changes. -/
theorem State.SettlesTo.barMayBeActive {p : List Source} {k : List EventKind} {c : List Tally} {s t : State}
    (h : State.SettlesTo p k c s t) (b : Bar) : t.barMayBeActive b = s.barMayBeActive b := by
  have hu : t.unit = s.unit := by rw [h.rest]
  have ha : t.arms = s.arms := by rw [h.rest]
  have hi : t.inForce = s.inForce := by simp only [State.inForce, hu]
  simp only [State.barMayBeActive, hu, ha, hi, (h.bars b).1, (h.bars b).2.1, h.tank.1, h.tank.2.2.1]

/-- A bar's record after a judgement: closed when it has become inactive, and with its activity otherwise (R117, R119). -/
def BarRec.judged (may : Bool) (x : BarRec) : BarRec :=
  if x.active = true ∧ may = false then x.closed else { x with active := may }

theorem BarRec.judged_active (may : Bool) (x : BarRec) : (x.judged may).active = may := by
  unfold BarRec.judged; split <;> simp_all [BarRec.closed]

/-- What the judgement of the three bars does, before the pump and the entries. -/
theorem State.judgeBar_all (s : State) :
    (∀ b, (Bar.all.foldl State.judgeBar s).spray.bar b = (s.spray.bar b).judged (s.barMayBeActive b)) ∧
    (∀ b, (s.spray.bar b).active = true → s.barMayBeActive b = false → (s.spray.bar b).pulseEnd.isSome = true →
      (Bar.all.foldl State.judgeBar s).output.channels[b.valve].setpoint = 0) ∧
    (∀ k : Channel, k.val < 15 → (Bar.all.foldl State.judgeBar s).output.channels[k] = s.output.channels[k]) ∧
    (Bar.all.foldl State.judgeBar s).spray.duty = s.spray.duty ∧
    (Bar.all.foldl State.judgeBar s).spray.dryCount = s.spray.dryCount ∧
    State.SettlesTo [] [] [] s (Bar.all.foldl State.judgeBar s) := by
  simp only [Bar.all, List.foldl]
  obtain ⟨-, a2, a3, a4, a5, a6, a7, a8⟩ := State.judgeBar_spec .left s
  obtain ⟨-, b2, b3, b4, b5, b6, b7, b8⟩ := State.judgeBar_spec .right (s.judgeBar .left)
  obtain ⟨-, c2, c3, c4, c5, c6, c7, c8⟩ := State.judgeBar_spec .main ((s.judgeBar .left).judgeBar .right)
  rw [a8.barMayBeActive] at b2 b4
  rw [b8.barMayBeActive, a8.barMayBeActive] at c2 c4
  refine ⟨fun b => ?_, fun b h1 h2 h3 => ?_, fun k hk => ?_, by rw [c6, b6, a6], by rw [c7, b7, a7],
    (a8.trans b8 (by decide)).trans c8 (by decide)⟩
  · cases b
    · rw [c3 _ (by decide), b3 _ (by decide), a2]; rfl
    · rw [c3 _ (by decide), b2, a3 _ (by decide)]; rfl
    · rw [c2, b3 _ (by decide), a3 _ (by decide)]; rfl
  · cases b
    · rw [c5 _ (by decide), b5 _ (by decide)]; exact a4 h1 h2 h3
    · rw [c5 _ (by decide)]; rw [a3 _ (by decide)] at b4; exact b4 h1 h2 h3
    · rw [b3 _ (by decide), a3 _ (by decide)] at c4; exact c4 h1 h2 h3
  · have ne : ∀ b : Bar, k ≠ b.valve := fun b e => by have := Bar.valve_ge b; rw [e] at hk; omega
    rw [c5 _ (ne _), b5 _ (ne _), a5 _ (ne _)]

/-! ### The pump and the entries -/

/-- A change of the pump and of channel 14 alone settles. -/
theorem State.settlesTo_pump (duty dry v : Nat) (s : State) :
    State.SettlesTo [] [] [] s ((s.modSpray fun y => { y with duty := duty, dryCount := dry }).postSetpoint 14 v) := by
  obtain ⟨-, p2, p3, p4⟩ :=
    State.postSetpoint_spec 14 v (s.modSpray fun y => { y with duty := duty, dryCount := dry })
  refine State.settlesTo_of_spray (fun ch hch => p2 ch fun e => ?_) p3 p4 (fun b => ?_) ⟨rfl, rfl, rfl, rfl⟩ rfl
  · rw [e] at hch; exact absurd hch (by decide)
  · cases b <;> exact ⟨rfl, rfl, rfl, rfl⟩

/-- What the judgement of the pump does (R130). -/
theorem State.judgePump_spec (before : Bool) (s : State) :
    (∀ b, (s.judgePump before).spray.bar b = s.spray.bar b) ∧
    (∀ k : Channel, k ≠ 14 → (s.judgePump before).output.channels[k] = s.output.channels[k]) ∧
    (before = false → s.spray.anyActive = true →
      (s.judgePump before).spray.duty = s.settings.spray.startDuty ∧ (s.judgePump before).spray.dryCount = 0 ∧
      (s.judgePump before).output.channels[(14 : Channel)].setpoint = s.settings.spray.startDuty) ∧
    (before = true → s.spray.anyActive = false →
      (s.judgePump before).spray.duty = 0 ∧ (s.judgePump before).spray.dryCount = 0 ∧
      (s.judgePump before).output.channels[(14 : Channel)].setpoint = 0) ∧
    (before = s.spray.anyActive →
      (s.judgePump before).spray.duty = s.spray.duty ∧ (s.judgePump before).spray.dryCount = s.spray.dryCount ∧
      (s.judgePump before).output.channels[(14 : Channel)] = s.output.channels[(14 : Channel)]) ∧
    State.SettlesTo [] [] [] s (s.judgePump before) := by
  have pump := fun duty v => State.postSetpoint_spec 14 v (s.modSpray fun y => { y with duty := duty, dryCount := 0 })
  have bars : ∀ (duty : Nat) (b : Bar), ({ s.spray with duty := duty, dryCount := 0 } : Spray).bar b = s.spray.bar b := by
    intro duty b; cases b <;> rfl
  unfold State.judgePump
  cases before <;> cases ha : s.spray.anyActive <;>
    simp only [Bool.and_self, Bool.not_true, Bool.not_false, Bool.and_true, Bool.and_false, Bool.false_eq_true, if_false,
      if_true]
  · exact ⟨fun _ => trivial, fun _ _ => trivial, fun _ h => absurd h (by simp), fun h => absurd h (by simp),
      fun _ => ⟨trivial, trivial, trivial⟩, State.settlesTo_refl _ _ _⟩
  · exact ⟨bars _, (pump _ _).2.1, fun _ _ => ⟨rfl, rfl, (pump _ _).1⟩, fun h => absurd h (by simp),
      fun h => absurd h (by simp), State.settlesTo_pump _ _ _ _⟩
  · exact ⟨bars _, (pump _ _).2.1, fun h => absurd h (by simp), fun _ _ => ⟨rfl, rfl, (pump _ _).1⟩,
      fun h => absurd h (by simp), State.settlesTo_pump _ _ _ _⟩
  · exact ⟨fun _ => trivial, fun _ _ => trivial, fun h => absurd h (by simp), fun _ h => absurd h (by simp),
      fun _ => ⟨trivial, trivial, trivial⟩, State.settlesTo_refl _ _ _⟩

/-- What the judgement of SPRAY_LIMIT does (R52, R129). -/
theorem State.judgeSprayLimit_spec (s : State) :
    ((s.judgeSprayLimit).ceiling.entry .sprayLimit).active = (s.program.holdsSpeed && !s.limitingBars.isEmpty) ∧
    State.SettlesTo [.sprayLimit] [] [] s s.judgeSprayLimit := by
  unfold State.judgeSprayLimit
  dsimp only
  split
  · next h =>
    split
    · exact ⟨(State.activate_spec _ _ _).1.trans h.symm, (State.activate_spec _ _ _).2.2.2⟩
    · next ha =>
      have ha : (s.ceiling.entry .sprayLimit).active = true := by simpa using ha
      split
      · exact ⟨((State.updateCap_spec _ _ _).1.trans ha).trans h.symm, (State.updateCap_spec _ _ _).2.2.2⟩
      · exact ⟨ha.trans h.symm, State.settlesTo_refl _ _ _⟩
  · next h =>
    split
    · exact ⟨(State.deactivate_spec _ _).1.trans (by simpa using h), (State.deactivate_spec _ _).2.2.2⟩
    · next ha => exact ⟨by simp_all, State.settlesTo_refl _ _ _⟩

/-! ### The judgement of the bars -/

theorem Spray.anyActive_iff (y : Spray) : y.anyActive = true ↔ ∃ b, (y.bar b).active = true := by
  constructor
  · intro h
    simp only [Spray.anyActive, Bool.or_eq_true] at h
    rcases h with (h | h) | h
    · exact ⟨.left, h⟩
    · exact ⟨.right, h⟩
    · exact ⟨.main, h⟩
  · rintro ⟨b, hb⟩; cases b <;> simp_all [Spray.anyActive, Spray.bar]

/-- The bars that bear on SPRAY_LIMIT. -/
theorem State.limitingBars_isEmpty (s : State) :
    s.limitingBars.isEmpty = false ↔
      ∃ b : Bar, (s.spray.bar b).active = true ∧ 0 < (effectiveDose s.spray.tank s.program b).getD 0 := by
  rw [Bool.eq_false_iff, ne_eq, List.isEmpty_iff]
  constructor
  · intro h
    obtain ⟨b, hb⟩ := List.exists_mem_of_ne_nil _ h
    have := (List.mem_filter.1 hb).2
    exact ⟨b, by simpa using this⟩
  · rintro ⟨b, hb⟩
    exact List.ne_nil_of_mem (a := b) (List.mem_filter.2 ⟨by cases b <;> simp [Bar.all], by simpa using hb⟩)

/-- The judgement of the bars (R117): what it may change, that each bar and both entries stand as their conditions say, and
what has become of each bar's record and of the pump. -/
theorem State.judgeBars_spec (s : State) :
    State.SettlesTo [] [] [] s s.judgeBars ∧ s.judgeBars.barsJudged ∧ State.barsSettled s s.judgeBars := by
  obtain ⟨a1, a2, a3, a4, a5, a6⟩ := State.judgeBar_all s
  generalize hu : Bar.all.foldl State.judgeBar s = u at *
  obtain ⟨b1, b2, b3, b4, b5, b6⟩ := State.judgePump_spec s.spray.anyActive u
  generalize hv : u.judgePump s.spray.anyActive = v at *
  obtain ⟨c1, c2⟩ := State.judgeSprayLimit_spec v
  have cf := State.judgeSprayLimit_frame v
  generalize hw : v.judgeSprayLimit = w at *
  obtain ⟨d1, d2⟩ := State.keepEntry_spec .drySweep w.drySweepHolds w.program.dryCap w
  have ht : s.judgeBars = w.keepEntry .drySweep w.drySweepHolds w.program.dryCap := by
    simp only [State.judgeBars, State.judgeDrySweep, hu, hv, hw]
  have do1 := fun (a : Source) (ha : a ≠ .drySweep) =>
    State.keepEntry_other ha w.drySweepHolds w.program.dryCap w
  have df := State.keepEntry_frame .drySweep w.drySweepHolds w.program.dryCap w
  rw [ht]
  generalize w.keepEntry .drySweep w.drySweepHolds w.program.dryCap = t at *
  have hs : t.spray = v.spray := by simp_all
  have ho : t.output = v.output := by simp_all
  have hun : t.unit = v.unit := by simp_all
  have all := ((a6.trans b6 (by decide)).trans c2 (by decide)).trans d2 (by decide)
  have hset : u.settings = s.settings := by rw [a6.rest]
  have bar : ∀ b, t.spray.bar b = (s.spray.bar b).judged (s.barMayBeActive b) := fun b => by rw [hs, b1, a1]
  have any : t.spray.anyActive = u.spray.anyActive := by
    rw [Bool.eq_iff_iff, Spray.anyActive_iff, Spray.anyActive_iff, hs]
    simp only [b1]
  refine ⟨all.unname (by simp), ⟨fun b => ?_, ?_, ?_⟩, ⟨fun b => ⟨fun h => ?_, fun h1 h2 => ?_, fun h1 h2 => ⟨?_, fun h3 => ?_⟩⟩,
    fun h1 h2 => ?_, fun h1 h2 => ?_, fun h => ?_⟩⟩
  · rw [bar, BarRec.judged_active, all.barMayBeActive]
  · have e : w.drySweepHolds = t.drySweepHolds := by
      simp only [State.drySweepHolds]; simp_all
    rw [d1, e]; simp [State.drySweepHolds]
  · rw [(do1 .sprayLimit (by decide)).1, c1, Bool.and_eq_true, Bool.not_eq_true', State.limitingBars_isEmpty]
    have e : v.program = t.program := by simp only [State.program, State.inForce, hun]
    rw [e, ← hs]
  · have ha := congrArg BarRec.active (bar b)
    rw [BarRec.judged_active] at ha
    rw [bar, ← ha, h]
    unfold BarRec.judged
    rw [if_neg (by simp)]
  · rw [bar] at h2 ⊢
    rw [BarRec.judged_active] at h2
    rw [h2]; unfold BarRec.judged; rw [if_neg (by simp)]
  · rw [bar] at h2 ⊢
    rw [BarRec.judged_active] at h2
    rw [h2]; unfold BarRec.judged; rw [if_pos ⟨h1, rfl⟩]; rfl
  · rw [bar, BarRec.judged_active] at h2
    rw [ho, b2 _ (by cases b <;> decide)]
    exact a2 b h1 h2 h3
  · rw [hs, ho, ← hset]; exact b3 h1 (any ▸ h2)
  · rw [hs, ho]; exact b4 h1 (any ▸ h2)
  · rw [hs, ho]
    obtain ⟨e1, e2, e3⟩ := b5 (h.trans any)
    exact ⟨e1.trans a4, e2.trans a5, e3.trans (a3 14 (by decide))⟩

/-! ### The cycle start (R125, R127) -/

/-- The cycle start of a bar (R125, R127). -/
theorem State.cycleStart_spec (b : Bar) (s : State) : State.StartsCycle b s (s.cycleStart b) := by
  generalize ht : s.cycleStart b = t
  unfold State.cycleStart at ht
  dsimp only at ht
  have same : ∀ l k, (s.notices.events l).sameKind (s.notices.events l) k := fun _ _ => ⟨rfl, rfl⟩
  split at ht
  · next h =>
    subst ht
    have h : (s.spray.bar b).active = false ∨ (s.spray.bar b).pulseEnd.isSome = true := by simpa using h
    have no : (s.spray.bar b).active = true → (s.spray.bar b).pulseEnd = none → False := fun h1 h2 => by
      rw [h1, h2] at h; exact absurd h (by decide)
    exact ⟨fun _ => rfl, fun h1 h2 => (no h1 h2).elim, fun h1 h2 => (no h1 h2).elim, fun _ _ => rfl, rfl, fun _ _ => rfl,
      ⟨rfl, rfl, rfl⟩, ⟨rfl, rfl⟩, fun _ _ => rfl, fun l k _ => same l k, fun _ => rfl, rfl, rfl⟩
  · next h =>
    have h : (s.spray.bar b).active = true ∧ (s.spray.bar b).pulseEnd = none := by simpa using h
    have no : (s.spray.bar b).active = false ∨ (s.spray.bar b).pulseEnd.isSome = true → False := fun hx => by
      rw [h.1, h.2] at hx; exact absurd hx (by decide)
    split at ht
    · next hr =>
      subst ht
      exact ⟨fun hx => (no hx).elim, fun _ _ _ => ⟨Spray.modBar_same _ _ _, rfl⟩, fun _ _ hx => absurd hr (by
          simpa [State.askedPulse] using hx), fun k hk => Spray.modBar_other hk _ _,
        by cases b <;> rfl, fun _ _ => rfl, ⟨rfl, rfl, rfl⟩, ⟨rfl, rfl⟩, fun _ _ => rfl, fun l k _ => same l k,
        fun _ => rfl, rfl, rfl⟩
    · next hr =>
      have hr : ¬s.askedPulse b < s.settings.spray.mMin := hr
      set f : BarRec → BarRec := fun x => { x with
        owed := x.owed - s.givenWater b, pulseEnd := some (later s.now (s.givenPulse b)), lastPulse := s.givenPulse b
        saturated := decide (s.program.period - 10 < s.askedPulse b)
        deliveredRem := ((s.spray.bar b).deliveredRem + s.givenWater b) % 1000 } with hf
      generalize hu : (((s.modBar b f).postSetpoint b.valve 1).bumpBy (.water b)
        (((s.spray.bar b).deliveredRem + s.givenWater b) / 1000)) = u
      have ht : (if (decide (s.program.period - 10 < s.askedPulse b) && !(s.spray.bar b).saturated) = true then
          u.postBoth .spraySaturated else u) = t := by rw [← hu]; exact ht
      have p := State.postSetpoint_spec b.valve 1 (s.modBar b f)
      have q := State.bumpBy_tallies (.water b) (((s.spray.bar b).deliveredRem + s.givenWater b) / 1000)
        ((s.modBar b f).postSetpoint b.valve 1)
      have post := fun l => EventSet.post_spec .spraySaturated (s.notices.events l)
      have un : u.notices = s.notices := by rw [← hu]; rfl
      have ts : t.spray = s.spray.modBar b f ∧ t.output = ((s.modBar b f).postSetpoint b.valve 1).output ∧
          t.bank = (((s.modBar b f).postSetpoint b.valve 1).bumpBy (.water b)
            (((s.spray.bar b).deliveredRem + s.givenWater b) / 1000)).bank ∧
          t = { u with notices := t.notices } := by
        split at ht <;> subst ht <;> rw [← hu] <;> exact ⟨rfl, rfl, rfl, rfl⟩
      obtain ⟨t1, t2, t3, t4⟩ := ts
      have sat : (s.program.period - 10 < s.askedPulse b → (s.spray.bar b).saturated = false →
          s.postedOnce .spraySaturated t) ∧
          (s.askedPulse b ≤ s.program.period - 10 ∨ (s.spray.bar b).saturated = true → t.notices = s.notices) ∧
          (∀ (l : Link) (k : EventKind), k ≠ .spraySaturated → (t.notices.events l).sameKind (s.notices.events l) k) ∧
          (∀ l : Link, (t.notices.events l).mask = (s.notices.events l).mask) ∧ t.notices.alarms = s.notices.alarms := by
        split at ht
        · next hs =>
          simp only [Bool.and_eq_true, decide_eq_true_eq, Bool.not_eq_true'] at hs
          have te : ∀ l, t.notices.events l = (s.notices.events l).post .spraySaturated := fun l => by
            subst ht; rw [State.postBoth_events, un]
          refine ⟨fun _ _ l => ?_, fun hn => ?_, fun l k hk => ?_, fun l => ?_, ?_⟩
          · rw [te]; exact ⟨(post l).1, (post l).2.1⟩
          · rcases hn with hn | hn
            · omega
            · rw [hs.2] at hn; exact absurd hn (by decide)
          · rw [te]; exact (post l).2.2.2 k hk
          · rw [te]; exact (post l).2.2.1
          · subst ht; rw [State.postBoth_alarms, un]
        · next hs =>
          simp only [Bool.and_eq_true, decide_eq_true_eq, Bool.not_eq_true', not_and] at hs
          have tn : t.notices = s.notices := by subst ht; exact un
          exact ⟨fun h1 h2 => absurd h2 (hs h1), fun _ => tn, fun l k _ => by rw [tn]; exact ⟨rfl, rfl⟩,
            fun l => by rw [tn], by rw [tn]⟩
      obtain ⟨s1, s2, s3, s4, s5⟩ := sat
      refine ⟨fun hx => (no hx).elim, fun _ _ hx => absurd hx hr, fun _ _ _ => ⟨?_, ?_, ?_, s1, s2⟩, fun k hk => ?_, ?_,
        fun ch hch => ?_, ?_, ?_, fun x hx => ?_, s3, s4, s5, ?_⟩
      · rw [t1, Spray.modBar_same]
      · rw [t2]; exact p.1
      · rw [t3]; exact q.1
      · rw [t1, Spray.modBar_other hk]
      · rw [t1]; cases b <;> rfl
      · rw [t2]; exact p.2.1 ch hch
      · rw [t2]; exact p.2.2.1 b.valve
      · rw [t2]; exact p.2.2.2
      · rw [t3]; exact q.2 x hx
      · rw [t1, t2, t3, t4, ← hu]; rfl

end Sys2Proof.Machine
end

