-- ==== Sys2Proof/Laws/Modes.lean ====
section
/-! SUPPORT. What a change of the work mode and a change of the program in force do (R4, R5, R27, R128), and the watch of the
unit in LEAVING (R10, R11). -/

namespace Sys2Proof.Machine

/-- A posting to both links settles, with its kind posted. -/
theorem State.postBoth_settlesTo (k : EventKind) (s : State) : State.SettlesTo [] [k] [] s (s.postBoth k) where
  channels := fun _ _ => rfl
  owners := fun _ => ⟨rfl, rfl, rfl⟩
  cuts := ⟨rfl, rfl⟩
  entries := fun _ _ _ _ => ⟨rfl, rfl, rfl⟩
  report := rfl
  events := fun l x hx _ => by
    rw [State.postBoth_events]; exact (EventSet.post_spec k _).2.2.2 x (by simpa using hx)
  posts := fun x hx => by rw [List.mem_singleton.1 hx]; exact State.postBoth_told k s
  masks := fun l => by rw [State.postBoth_events]; exact (EventSet.post_spec k _).2.2.1
  alarms := rfl
  tallies := fun _ _ _ => rfl
  bars := fun _ => ⟨rfl, rfl, rfl, fun _ => rfl⟩
  tank := ⟨rfl, rfl, rfl, rfl⟩
  rest := rfl

/-- A change of the work mode (R4, R5, R117). -/
theorem State.setMode_spec (m : Mode) (s : State) :
    State.SettlesTo [.mode] [.modeChanged] [] { s with unit := { s.unit with mode := m } } (s.setMode m) ∧
    ((s.setMode m).ceiling.entry .mode).cap = State.modeCap { s with unit := { s.unit with mode := m } } ∧
    (s.setMode m).barsJudged := by
  have a := State.updateCap_spec .mode (State.modeCap { s with unit := { s.unit with mode := m } })
    { s with unit := { s.unit with mode := m } }
  have b := State.postBoth_settlesTo .modeChanged
    (State.updateCap .mode (State.modeCap { s with unit := { s.unit with mode := m } })
      { s with unit := { s.unit with mode := m } })
  obtain ⟨c1, c2, -⟩ := State.judgeBars_spec (State.postBoth .modeChanged
    (State.updateCap .mode (State.modeCap { s with unit := { s.unit with mode := m } })
      { s with unit := { s.unit with mode := m } }))
  refine ⟨(a.2.2.2.trans b (by decide)).trans c1 (by decide), ?_, c2⟩
  exact (c1.entries .mode (by decide) (by decide) (by decide)).2.1.trans a.2.1

/-! ### A change of the program in force (R128) -/

/-- The judgement of the bars stands through a change that leaves each bar's activity and the activity of the two entries. -/
theorem State.SettlesTo.barsJudged {p : List Source} {k : List EventKind} {c : List Tally} {s t : State}
    (h : State.SettlesTo p k c s t) (hj : s.barsJudged)
    (hb : ∀ b : Bar, (t.spray.bar b).active = (s.spray.bar b).active)
    (he : ∀ src ∈ [Source.sprayLimit, .drySweep], (t.ceiling.entry src).active = (s.ceiling.entry src).active) :
    t.barsJudged := by
  have hu : t.unit = s.unit := by rw [h.rest]
  have hp : t.program = s.program := by simp only [State.program, State.inForce, hu]
  refine ⟨fun b => ?_, ?_, ?_⟩
  · rw [hb, h.barMayBeActive]; exact hj.1 b
  · rw [he _ (by simp), hu, h.tank.1, h.tank.2.2.1]; exact hj.2.1
  · rw [he _ (by simp), hp, h.tank.1]; simp only [hb]; exact hj.2.2

/-- What the owed-water cap does to an active bar (R122, R128). -/
theorem State.holdOwed_spec (b : Bar) (s : State) :
    (∀ k, ((s.holdOwed b).spray.bar k).active = (s.spray.bar k).active) ∧ (s.holdOwed b).ceiling = s.ceiling ∧
    State.SettlesTo [] [] [.shortfall] s (s.holdOwed b) := by
  unfold State.holdOwed
  dsimp only
  split
  · set cap := owedCap s.program (s.settings.spray.flow b)
    set q := (s.spray.bar b).owed - cap
    have t1 := (State.bumpBy_tallies .shortfall ((((s.spray.bar b).shortfallRem + q)) / 1000)
      (s.modBar b fun x => { x with shortfallRem := ((s.spray.bar b).shortfallRem + q) % 1000 })).2
    have bars : ∀ k, ((s.addShortfall b q).modBar b fun x => { x with owed := cap }).spray.bar k =
        if k = b then { s.spray.bar k with
          shortfallRem := ((s.spray.bar b).shortfallRem + q) % 1000, owed := cap } else s.spray.bar k := by
      intro k
      simp only [State.addShortfall, State.modBar, State.modSpray_spray, State.bumpBy_frame]
      by_cases hk : k = b
      · subst hk; rw [Spray.modBar_same, Spray.modBar_same, if_pos rfl]
      · rw [Spray.modBar_other hk, Spray.modBar_other hk, if_neg hk]
    have r1 := Spray.modBar_rest b (fun x => { x with shortfallRem := ((s.spray.bar b).shortfallRem + q) % 1000 }) s.spray
    have r2 := Spray.modBar_rest b (fun x => { x with owed := cap })
      (s.spray.modBar b fun x => { x with shortfallRem := ((s.spray.bar b).shortfallRem + q) % 1000 })
    refine ⟨fun k => by rw [bars]; split <;> rfl, rfl, ?_⟩
    exact
      { channels := fun _ _ => rfl, owners := fun _ => ⟨rfl, rfl, rfl⟩, cuts := ⟨rfl, rfl⟩
        entries := fun _ _ _ _ => ⟨rfl, rfl, rfl⟩, report := rfl, events := fun _ _ _ _ => ⟨rfl, rfl⟩
        posts := fun _ h => absurd h List.not_mem_nil, masks := fun _ => rfl, alarms := rfl
        tallies := fun x hx _ => t1 x (by simpa using hx)
        bars := fun k => by rw [bars]; split <;> exact ⟨rfl, rfl, rfl, fun h => absurd List.mem_cons_self h⟩
        tank := ⟨r2.2.2.2.1.trans r1.2.2.2.1, r2.2.2.2.2.1.trans r1.2.2.2.2.1, r2.2.2.1.trans r1.2.2.1,
          r2.2.2.2.2.2.trans r1.2.2.2.2.2⟩
        rest := rfl }
  · exact ⟨fun _ => rfl, rfl, State.settlesTo_refl _ _ _⟩

/-- A change of the program in force (R5, R51, R110, R128, R137): the caps that come from it, the bars judged, and their owed
water held to the new cap. -/
theorem State.programChanged_spec (s : State) :
    State.SettlesTo [.mode, .reverseArms] [] [.shortfall] s s.programChanged ∧
    (s.programChanged.ceiling.entry .mode).cap = s.modeCap ∧
    (s.programChanged.ceiling.entry .reverseArms).cap = s.reverseCap ∧
    (s.programChanged.ceiling.entry .drySweep).cap = s.program.dryCap ∧
    (s.programChanged.ceiling.entry .reverseArms).active = (s.ceiling.entry .reverseArms).active ∧
    s.programChanged.barsJudged := by
  obtain ⟨-, a2, -, a4⟩ := State.updateCap_spec .mode s.modeCap s
  have e1 : s.writeModeCap = s.updateCap .mode s.modeCap := rfl
  have e2 : (s.updateCap .mode s.modeCap).reverseCap = s.reverseCap := by
    have : (s.updateCap .mode s.modeCap).unit = s.unit := by rw [a4.rest]
    simp only [State.reverseCap, State.inForce, this]
  generalize hu : s.updateCap .mode s.modeCap = u at *
  obtain ⟨b1, b2, -, b4⟩ := State.updateCap_spec .reverseArms s.reverseCap u
  generalize hv : u.updateCap .reverseArms s.reverseCap = v at *
  obtain ⟨c1, c2, -⟩ := State.judgeBars_spec v
  generalize hw : v.judgeBars = w at *
  obtain ⟨d1, d2, d3⟩ := State.holdOwed_spec .left w
  obtain ⟨f1, f2, f3⟩ := State.holdOwed_spec .right (w.holdOwed .left)
  obtain ⟨g1, g2, g3⟩ := State.holdOwed_spec .main ((w.holdOwed .left).holdOwed .right)
  generalize hx : ((w.holdOwed .left).holdOwed .right).holdOwed .main = x at *
  have after := ((c1.trans d3 (by decide)).trans f3 (by decide)).trans g3 (by decide)
  have pv : v.program = s.program := by
    have : v.unit = s.unit := by rw [b4.rest, a4.rest]
    simp only [State.program, State.inForce, this]
  obtain ⟨h1, h2, -, h4⟩ := State.updateCap_spec .drySweep s.program.dryCap x
  have et : s.programChanged = x.updateCap .drySweep s.program.dryCap := by
    have e : (Bar.all.foldl State.holdOwed w) = x := hx
    simp only [State.programChanged, e1, e2, hv, State.sprayProgramChange, hw, e, pv]
  have ho := State.changeEntry_other (src := .drySweep) (a := .sprayLimit) (by decide)
    (fun e => { e with cap := s.program.dryCap }) x
  rw [et]
  have all := (((a4.trans b4 (by decide)).trans after (by decide)).trans h4 (by decide)).unname
    (p' := [.mode, .reverseArms]) (by decide)
  refine ⟨all.weaken (c' := [.shortfall]) (by simp) (by decide), ?_, ?_, h2, ?_, ?_⟩
  · rw [((after.trans h4 (by decide)).entries .mode (by decide) (by decide) (by decide)).2.1,
      (b4.entries .mode (by decide) (by decide) (by decide)).2.1]
    exact a2
  · rw [((after.trans h4 (by decide)).entries .reverseArms (by decide) (by decide) (by decide)).2.1]
    exact b2
  · rw [((after.trans h4 (by decide)).entries .reverseArms (by decide) (by decide) (by decide)).1, b1,
      (a4.entries .reverseArms (by decide) (by decide) (by decide)).1]
  · refine (((d3.trans f3 (by decide)).trans g3 (by decide)).trans h4 (by decide)).barsJudged c2 (fun b => ?_) ?_
    · rw [State.updateCap_frame .drySweep _ x |>.2.2.2.2.2.2.1]
      rw [g1, f1, d1]
    · have ec : x.ceiling = w.ceiling := by rw [g2, f2, d2]
      intro src hsrc
      rcases List.mem_cons.1 hsrc with rfl | hsrc
      · rw [← ec]; exact ho.1
      · rw [List.mem_singleton.1 hsrc, ← ec]; exact h1

/-- The pending swap applied (R27): nothing when there is none; otherwise its record is in its slot, which is active, and the
program in force has changed. -/
theorem State.applySwap_spec (s : State) :
    (s.unit.swap = none → s.applySwap = s) ∧
    (∀ w, s.unit.swap = some w →
      State.SettlesTo [.mode, .reverseArms] [.programSwapped] [.shortfall]
        { s with unit := { s.unit with
            slots := s.unit.slots.set w.target (some w.record), active := some w.target, swap := none } } s.applySwap ∧
      (s.applySwap.ceiling.entry .reverseArms).cap = w.record.reverseCap ∧
      (s.applySwap.ceiling.entry .drySweep).cap = w.record.dryCap ∧
      (s.applySwap.ceiling.entry .reverseArms).active = (s.ceiling.entry .reverseArms).active ∧
      s.applySwap.barsJudged) := by
  refine ⟨fun h => by simp [State.applySwap, h], fun w h => ?_⟩
  have e : s.applySwap = (State.postBoth .programSwapped { s with unit := { s.unit with
      slots := s.unit.slots.set w.target (some w.record), active := some w.target, swap := none } }).programChanged := by
    simp only [State.applySwap, h]; rfl
  rw [e]
  obtain ⟨a1, -, a3, a4, a5, a6⟩ := State.programChanged_spec (State.postBoth .programSwapped { s with unit := { s.unit with
      slots := s.unit.slots.set w.target (some w.record), active := some w.target, swap := none } })
  refine ⟨(State.postBoth_settlesTo _ _).trans a1 (by decide), a3.trans ?_, a4.trans ?_, a5, a6⟩
  · simp [State.reverseCap, State.inForce, State.postBoth_frame]
  · simp [State.program, State.inForce, State.postBoth_frame]

/-- A change that settles does so whatever the unit and the governor hold. -/
theorem State.SettlesTo.withUnitGov {p : List Source} {k : List EventKind} {c : List Tally} {s t : State}
    (h : State.SettlesTo p k c s t) (u : ModeUnit) (g : Governor) :
    State.SettlesTo p k c { s with unit := u, gov := g } { t with unit := u, gov := g } where
  channels := h.channels
  owners := h.owners
  cuts := h.cuts
  entries := h.entries
  report := h.report
  events := h.events
  posts := h.posts
  masks := h.masks
  alarms := h.alarms
  tallies := h.tallies
  bars := h.bars
  tank := h.tank
  rest := by rw [h.rest]

/-! ### The unit in LEAVING (R10, R11, R28, R75) -/

/-- TRANSPORT is reached (R11), and a pending swap is applied (R28). -/
theorem State.reachTransport_spec (s : State) :
    (∃ kinds : List EventKind, kinds ⊆ [.modeChanged, .programSwapped] ∧
      State.SettlesTo [.mode, .reverseArms] kinds [.shortfall]
        { s with unit := s.reachTransport.unit } s.reachTransport) ∧
    s.reachTransport.unit.mode = .transport ∧ s.reachTransport.unit.swap = none ∧
    s.reachTransport.unit.awaited = none ∧ s.reachTransport.unit.requested = false ∧
    s.reachTransport.unit.reached = false ∧ s.reachTransport.told .modeChanged ∧
    (s.reachTransport.ceiling.entry .reverseArms).active = (s.ceiling.entry .reverseArms).active ∧
    s.reachTransport.barsJudged := by
  obtain ⟨a1, -, a3⟩ := State.setMode_spec .transport
    (s.modUnit fun u => { u with awaited := none, requested := false, reached := false })
  have e : s.reachTransport = (State.setMode .transport
    (s.modUnit fun u => { u with awaited := none, requested := false, reached := false })).applySwap := rfl
  generalize hx : State.setMode .transport
    (s.modUnit fun u => { u with awaited := none, requested := false, reached := false }) = x at *
  have hu : x.unit = { s.unit with mode := .transport, awaited := none, requested := false, reached := false } := by
    rw [a1.rest]; rfl
  have hr : (x.ceiling.entry .reverseArms).active = (s.ceiling.entry .reverseArms).active :=
    (a1.entries .reverseArms (by decide) (by decide) (by decide)).1
  obtain ⟨b1, b2⟩ := State.applySwap_spec x
  rw [e]
  cases hs : x.unit.swap with
  | none =>
    rw [b1 hs, hu]
    have e2 : ({ s with unit := { s.unit with mode := .transport, awaited := none, requested := false, reached := false } } :
        State) = { (s.modUnit fun u => { u with awaited := none, requested := false, reached := false }) with
          unit := { (s.modUnit fun u => { u with awaited := none, requested := false, reached := false }).unit with
            mode := .transport } } := rfl
    rw [e2]
    rw [hu] at hs
    exact ⟨⟨[.modeChanged], by decide, a1.weaken (by decide) (by decide)⟩, rfl, hs, rfl, rfl, rfl,
      a1.posts _ (by decide), hr, a3⟩
  | some w =>
    obtain ⟨c1, -, -, c4, c5⟩ := b2 w hs
    have hu2 : x.applySwap.unit = { x.unit with
      slots := x.unit.slots.set w.target (some w.record), active := some w.target, swap := none } := by rw [c1.rest]
    have hg : x.gov = s.gov := by rw [a1.rest]; rfl
    have d := (a1.withUnitGov x.applySwap.unit x.gov).trans (hu2 ▸ c1) (by decide)
    have e2 : ({ s with unit := x.applySwap.unit } : State) =
        { (s.modUnit fun u => { u with awaited := none, requested := false, reached := false }) with
          unit := x.applySwap.unit, gov := x.gov } := by rw [hg]; rfl
    refine ⟨⟨[.modeChanged, .programSwapped], by decide, ?_⟩, by rw [hu2, hu], by rw [hu2], by rw [hu2, hu],
      by rw [hu2, hu], by rw [hu2, hu], d.posts _ (by decide), c4.trans hr, c5⟩
    rw [e2]
    exact d.weaken (by decide) (by decide)

/-- A range request at the governor (R75). -/
theorem State.requestRange_spec (r : Range) (s : State) :
    State.SettlesTo [.rangeShift] [] [] { s with gov := (s.requestRange r).gov } (s.requestRange r) ∧
    ((s.requestRange r).ceiling.entry .rangeShift).active = true ∧
    ((s.requestRange r).ceiling.entry .rangeShift).cap = s.settings.caps.shiftSpeed ∧
    (s.requestRange r).gov = { s.gov with
      requested := some r, shift := (s.requestRange r).gov.shift, settle := (s.requestRange r).gov.settle } ∧
    (r ≠ s.gov.setRange → (s.requestRange r).gov.shift = .waiting ∧ (s.requestRange r).gov.settle = none) ∧
    (r = s.gov.setRange → (s.requestRange r).gov.settle = s.gov.settle ∧
      (s.requestRange r).gov.shift = if s.gov.settle.isSome = true then s.gov.shift else .none) := by
  obtain ⟨a1, a2, -, a4⟩ := State.activate_spec .rangeShift s.settings.caps.shiftSpeed
    (s.modGov fun g => { g with requested := some r })
  have hg : (State.activate .rangeShift s.settings.caps.shiftSpeed
      (s.modGov fun g => { g with requested := some r })).gov = { s.gov with requested := some r } := by rw [a4.rest]; rfl
  have hu : (State.activate .rangeShift s.settings.caps.shiftSpeed
      (s.modGov fun g => { g with requested := some r })).unit = s.unit := by rw [a4.rest]; rfl
  have e : (s.requestRange r).gov = (fun g : Governor =>
      if r ≠ g.setRange then { g with shift := .waiting, settle := none }
      else if g.settle.isSome then g else { g with shift := .none }) { s.gov with requested := some r } := by
    rw [← hg]; rfl
  refine ⟨?_, a1, a2, ?_, fun h => ?_, fun h => ?_⟩
  · have d := a4.withUnitGov s.unit (s.requestRange r).gov
    have e1 : s.requestRange r = { (State.activate .rangeShift s.settings.caps.shiftSpeed
      (s.modGov fun g => { g with requested := some r })) with unit := s.unit, gov := (s.requestRange r).gov } := by
      rw [← hu]; rfl
    rw [← e1] at d
    exact d
  · rw [e]; dsimp only; split
    · rfl
    · split <;> rfl
  · rw [e]; dsimp only; rw [if_pos h]; exact ⟨rfl, rfl⟩
  · rw [e]; dsimp only; rw [if_neg (not_not_intro h)]; split <;> exact ⟨rfl, rfl⟩

/-- The watch in LEAVING: what it may change, and when it does nothing (R10, R11). -/
theorem State.leavingCheck_spec (s : State) :
    (¬(s.unit.mode = .leaving ∧ s.arms.allDown = true) → s.leavingCheck = s) ∧
    (∃ kinds : List EventKind, kinds ⊆ [.modeChanged, .programSwapped] ∧
      State.SettlesTo [.mode, .reverseArms, .rangeShift] kinds [.shortfall]
        { s with unit := s.leavingCheck.unit, gov := s.leavingCheck.gov } s.leavingCheck) ∧
    s.leavingCheck.gov = { s.gov with
      requested := s.leavingCheck.gov.requested, shift := s.leavingCheck.gov.shift, settle := s.leavingCheck.gov.settle } ∧
    (s.leavingCheck.ceiling.entry .reverseArms).active = (s.ceiling.entry .reverseArms).active ∧
    (s.unit.mode = .leaving → s.arms.allDown = true →
      (s.unit.reached = true → s.leavingCheck.unit.mode = .transport ∧ s.leavingCheck.unit.swap = none) ∧
      (s.unit.reached = false → s.unit.requested = false →
        s.leavingCheck.unit = { s.unit with requested := true, awaited := some .transport } ∧
        s.leavingCheck.gov.requested = some .transport ∧
        (s.leavingCheck.ceiling.entry .rangeShift).active = true)) := by
  unfold State.leavingCheck
  split
  · next h =>
    split
    · next hr =>
      obtain ⟨⟨ks, k1, k2⟩, a2, a3, -, -, -, -, a8, -⟩ := State.reachTransport_spec s
      have hg : s.reachTransport.gov = s.gov := by rw [k2.rest]
      exact ⟨fun hn => absurd h hn, ⟨ks, k1, by rw [hg]; exact k2.weaken (by decide) (by decide)⟩, by rw [hg], a8,
        fun _ _ => ⟨fun _ => ⟨a2, a3⟩, fun hf => absurd (hr.symm.trans hf) (by decide)⟩⟩
    · next hr =>
      split
      · next hq =>
        exact ⟨fun _ => rfl, ⟨[], by decide, State.settlesTo_refl _ _ _⟩, rfl, rfl, fun _ _ =>
          ⟨fun hf => absurd hf hr, fun _ hf => absurd (hq.symm.trans hf) (by decide)⟩⟩
      · obtain ⟨a1, a2, a3, a4, -⟩ := State.requestRange_spec .transport
          (s.modUnit fun u => { u with requested := true, awaited := some .transport })
        generalize State.requestRange .transport
          (s.modUnit fun u => { u with requested := true, awaited := some .transport }) = t at *
        have hu : t.unit = { s.unit with requested := true, awaited := some .transport } := by rw [a1.rest]; rfl
        refine ⟨fun hn => absurd h hn, ⟨[], by decide, ?_⟩, by rw [a4]; rfl,
          (a1.entries .reverseArms (by decide) (by decide) (by decide)).1, fun _ _ =>
          ⟨fun hf => absurd hf hr, fun _ _ => ⟨hu, by rw [a4], a2⟩⟩⟩
        rw [hu]
        exact a1.weaken (by decide) (by decide)
  · next h =>
    exact ⟨fun _ => rfl, ⟨[], by decide, State.settlesTo_refl _ _ _⟩, rfl, rfl,
      fun h1 h2 => absurd ⟨h1, h2⟩ h⟩

end Sys2Proof.Machine
end

