-- ==== Sys2Proof/Laws/Arms.lean ====
section
/-! SUPPORT. What posting an arm's coils does (R88), what the unit's watch in LEAVING does (R10, R11), and what a change of an
arm's state does (R110, R111), said once as `State.MovesArm`. -/

namespace Sys2Proof.Machine

/-! ### Records of the arms -/

@[simp] theorem Arms.mod_same (a : Arm) (f : ArmRec → ArmRec) (x : Arms) : (x.mod a f).get a = f (x.get a) := by
  cases a <;> rfl

theorem Arms.mod_other {a b : Arm} (h : b ≠ a) (f : ArmRec → ArmRec) (x : Arms) : (x.mod a f).get b = x.get b := by
  cases a <;> cases b <;> first | rfl | exact absurd rfl h

/-- A change of an arm's record leaves the broom's flags and the dry mark. -/
theorem Arms.mod_rest (a : Arm) (f : ArmRec → ArmRec) (x : Arms) :
    (x.mod a f).holdDone = x.holdDone ∧ (x.mod a f).lock = x.lock ∧ (x.mod a f).cutSeen = x.cutSeen ∧
    (x.mod a f).dryApplied = x.dryApplied := by cases a <;> exact ⟨rfl, rfl, rfl, rfl⟩

@[simp] theorem State.modArm_arm_same (a : Arm) (f : ArmRec → ArmRec) (s : State) : (s.modArm a f).arm a = f (s.arm a) :=
  Arms.mod_same a f s.arms

theorem State.modArm_arm_other {a b : Arm} (h : b ≠ a) (f : ArmRec → ArmRec) (s : State) :
    (s.modArm a f).arm b = s.arm b := Arms.mod_other h f s.arms

/-- Between two states no channel has changed its fault, holder or level, and the cut latches stand. -/
def Output.sameOwners (o p : Output) : Prop :=
  (∀ ch : Channel, p.channels[ch].fault = o.channels[ch].fault ∧ p.channels[ch].holder = o.channels[ch].holder ∧
    p.channels[ch].level = o.channels[ch].level) ∧ p.driveCut = o.driveCut ∧ p.broomCut = o.broomCut

theorem Output.sameOwners_trans {a b c : Output} (h : a.sameOwners b) (h' : b.sameOwners c) : a.sameOwners c :=
  ⟨fun ch => ⟨(h'.1 ch).1.trans (h.1 ch).1, (h'.1 ch).2.1.trans (h.1 ch).2.1, (h'.1 ch).2.2.trans (h.1 ch).2.2⟩,
    h'.2.1.trans h.2.1, h'.2.2.trans h.2.2⟩

theorem State.postSetpoint_owners (ch : Channel) (v : Nat) (s : State) :
    s.output.sameOwners (s.postSetpoint ch v).output :=
  let h := State.postSetpoint_spec ch v s
  ⟨h.2.2.1, h.2.2.2⟩

/-! ### The coils (R88) -/

/-- The table of R88, read column by column. -/
theorem coilsOf_spec (st : ArmState) (ph : Option Phase) (force rot : Nat) :
    ((coilsOf st ph force rot).lift = 1 ↔ st = .raising ∨ (st = .yielding ∧ ph ≠ some .settle)) ∧
    ((coilsOf st ph force rot).lift = 0 ∨ (coilsOf st ph force rot).lift = 1) ∧
    ((coilsOf st ph force rot).lower = 1 ↔
      (st = .lowering ∨ st = .working) ∨ st = .jammed ∨ (st = .yielding ∧ ph = some .settle)) ∧
    ((coilsOf st ph force rot).lower = 0 ∨ (coilsOf st ph force rot).lower = 1) ∧
    ((st = .lowering ∨ st = .working) ∨ st = .yielding → (coilsOf st ph force rot).motor = rot) ∧
    (¬(st = .lowering ∨ st = .working) ∧ st ≠ .yielding → (coilsOf st ph force rot).motor = 0) ∧
    (st = .lowering ∨ st = .working → (coilsOf st ph force rot).force = force) ∧
    (¬(st = .lowering ∨ st = .working) → (coilsOf st ph force rot).force = 0) := by
  cases st <;> rcases ph with _ | _ | _ <;> simp [coilsOf]

/-- Lift and lower are posted. -/
theorem State.postLiftLower_spec (a : Arm) (c : Coils) (s : State) :
    (s.postLiftLower a c).output.channels[a.lift].setpoint = c.lift ∧
    (s.postLiftLower a c).output.channels[a.lower].setpoint = c.lower ∧
    (∀ k, k ≠ a.lift → k ≠ a.lower → (s.postLiftLower a c).output.channels[k] = s.output.channels[k]) ∧
    s.output.sameOwners (s.postLiftLower a c).output ∧
    s.postLiftLower a c = { s with output := (s.postLiftLower a c).output } := by
  have hne : a.lift ≠ a.lower := by cases a <;> decide
  have two : ∀ (p q : Channel) (v w : Nat), p ≠ q →
      ((s.postSetpoint p v).postSetpoint q w).output.channels[p].setpoint = v ∧
      ((s.postSetpoint p v).postSetpoint q w).output.channels[q].setpoint = w ∧
      (∀ k, k ≠ p → k ≠ q → ((s.postSetpoint p v).postSetpoint q w).output.channels[k] = s.output.channels[k]) ∧
      s.output.sameOwners ((s.postSetpoint p v).postSetpoint q w).output := by
    intro p q v w hpq
    have h1 := State.postSetpoint_spec p v s
    have h2 := State.postSetpoint_spec q w (s.postSetpoint p v)
    refine ⟨?_, h2.1, fun k hp hq => (h2.2.1 k hq).trans (h1.2.1 k hp),
      Output.sameOwners_trans (State.postSetpoint_owners _ _ _) (State.postSetpoint_owners _ _ _)⟩
    rw [h2.2.1 p hpq]; exact h1.1
  unfold State.postLiftLower
  split
  · next h =>
    obtain ⟨h1, h2, h3, h4⟩ := two a.lift a.lower 0 c.lower hne
    exact ⟨h1.trans h.symm, h2, h3, h4, rfl⟩
  · obtain ⟨h1, h2, h3, h4⟩ := two a.lower a.lift c.lower c.lift hne.symm
    exact ⟨h2, h1, fun k p q => h3 k q p, h4, rfl⟩

/-- Down-force and rotation are posted and recorded. -/
theorem State.postForceRotation_spec (a : Arm) (v w : Nat) (s : State) :
    ((s.postForce a v).postRotation a w).output.channels[a.motor].setpoint = w ∧
    (∀ ch, a.force = some ch → ((s.postForce a v).postRotation a w).output.channels[ch].setpoint = v) ∧
    (∀ k, k ≠ a.motor → a.force ≠ some k →
      ((s.postForce a v).postRotation a w).output.channels[k] = s.output.channels[k]) ∧
    s.output.sameOwners ((s.postForce a v).postRotation a w).output ∧
    ((s.postForce a v).postRotation a w).arm a =
      { s.arm a with rot := w, force := if a = .main then (s.arm a).force else v } ∧
    (∀ b, b ≠ a → ((s.postForce a v).postRotation a w).arm b = s.arm b) ∧
    ((s.postForce a v).postRotation a w).arms =
      { s.arms with left := ((s.postForce a v).postRotation a w).arms.left
                    right := ((s.postForce a v).postRotation a w).arms.right
                    main := ((s.postForce a v).postRotation a w).arms.main } ∧
    (s.postForce a v).postRotation a w =
      { s with output := ((s.postForce a v).postRotation a w).output
               arms := ((s.postForce a v).postRotation a w).arms } := by
  have m := fun (u : State) => State.postSetpoint_spec a.motor w u
  have out : ∀ u : State, (u.postRotation a w).output = (u.postSetpoint a.motor w).output := fun _ => rfl
  have recs : ∀ u : State, (u.postRotation a w).arm a = { u.arm a with rot := w } := fun u => by
    simp only [State.postRotation]; rw [State.modArm_arm_same]; rfl
  have oth : ∀ (u : State) (b : Arm), b ≠ a → (u.postRotation a w).arm b = u.arm b := fun u b hb => by
    simp only [State.postRotation]; rw [State.modArm_arm_other hb]; rfl
  rw [out, recs]
  have fm : ∀ ch, a.force = some ch → ch ≠ a.motor := by cases a <;> decide
  cases hf : a.force with
  | none =>
    have e : s.postForce a v = s := by simp only [State.postForce, hf]
    have ha : a = .main := by cases a <;> first | rfl | exact absurd hf (by decide)
    rw [e]
    refine ⟨(m s).1, fun ch h => absurd h (by simp), fun k hk _ => (m s).2.1 k hk, State.postSetpoint_owners _ _ _, ?_,
      fun b hb => oth s b hb, ?_, rfl⟩
    · rw [if_pos ha]
    · cases a <;> rfl
  | some ch =>
    have e : s.postForce a v = (s.postSetpoint ch v).modArm a fun r => { r with force := v } := by
      simp only [State.postForce, hf]
    have ha : a ≠ .main := by rintro rfl; simp [Arm.force] at hf
    have f := State.postSetpoint_spec ch v s
    have of : (s.postForce a v).output = (s.postSetpoint ch v).output := by rw [e]; rfl
    refine ⟨(m _).1, fun k h => ?_, fun k hk hn => ?_, ?_, ?_, fun b hb => ?_, ?_, ?_⟩
    · rw [← Option.some.inj h, (m _).2.1 _ (fm _ hf), of]; exact f.1
    · rw [(m _).2.1 k hk, of]; exact f.2.1 k fun h => hn (h ▸ rfl)
    · refine Output.sameOwners_trans ?_ (State.postSetpoint_owners _ _ _)
      rw [of]; exact State.postSetpoint_owners _ _ _
    · rw [if_neg ha, e, State.modArm_arm_same]; rfl
    · rw [oth _ _ hb, e, State.modArm_arm_other hb]; rfl
    · rw [e]; cases a <;> rfl
    · rw [e]; rfl

/-- The coils of an arm are posted for the state it stands in (R88). -/
theorem State.postCoils_spec (a : Arm) (s : State) :
    (s.postCoils a).armPosted a ∧
    (∀ ch : Channel, armOfChannel ch ≠ some a → (s.postCoils a).output.channels[ch] = s.output.channels[ch]) ∧
    s.output.sameOwners (s.postCoils a).output ∧
    (s.postCoils a).arm a = { s.arm a with rot := ((s.postCoils a).arm a).rot, force := ((s.postCoils a).arm a).force } ∧
    (∀ b, b ≠ a → (s.postCoils a).arm b = s.arm b) ∧
    (s.postCoils a).arms = { s.arms with
      left := (s.postCoils a).arms.left, right := (s.postCoils a).arms.right, main := (s.postCoils a).arms.main } ∧
    s.postCoils a = { s with output := (s.postCoils a).output, arms := (s.postCoils a).arms } := by
  unfold State.postCoils
  dsimp only
  generalize hc : coilsOf (s.arm a).state (s.arm a).phase (s.program.forceOf a) (s.rotation a) = c
  obtain ⟨a1, a2, a3, a4, a5⟩ := State.postLiftLower_spec a c s
  have ar : (s.postLiftLower a c).arms = s.arms := by rw [a5]
  generalize s.postLiftLower a c = u at *
  obtain ⟨b1, b2, b3, b4, b5, b6, b7, b8⟩ := State.postForceRotation_spec a c.force c.motor u
  generalize (u.postForce a c.force).postRotation a c.motor = t at *
  have arm : ∀ b, u.arm b = s.arm b := fun b => by simp only [State.arm, ar]
  rw [arm] at b5
  have chn : a.lift ≠ a.motor ∧ a.lower ≠ a.motor ∧ a.force ≠ some a.lift ∧ a.force ≠ some a.lower := by
    cases a <;> decide
  have own : ∀ ch : Channel, ch = a.lift ∨ ch = a.lower ∨ ch = a.motor ∨ a.force = some ch → armOfChannel ch = some a := by
    cases a <;> decide
  have rest : t = { s with output := t.output, arms := t.arms } := by rw [b8, a5]
  have rot : t.rotation a = s.rotation a := by
    have h1 : t.arms.cutSeen = s.arms.cutSeen := by rw [b7, ar]
    have h2 : t.program = s.program := by rw [rest]; rfl
    have h3 : t.travel = s.travel := by rw [rest]
    have h4 : t.spray = s.spray := by rw [rest]
    unfold State.rotation State.dryRotation; rw [h1, h2, h3, h4]
  refine ⟨?_, fun ch hch => ?_, Output.sameOwners_trans a4 b4, ?_, fun b hb => (b6 b hb).trans (arm b), ?_, rest⟩
  · have l : t.output.channels[a.lift].setpoint = c.lift := by rw [b3 _ chn.1 chn.2.2.1]; exact a1
    have w : t.output.channels[a.lower].setpoint = c.lower := by rw [b3 _ chn.2.1 chn.2.2.2]; exact a2
    have pf : t.program = s.program := by rw [rest]; rfl
    have bf : ∀ ch, a.force = some ch → a ≠ .main := by rintro ch h rfl; simp [Arm.force] at h
    unfold State.armPosted
    dsimp only
    rw [rot, pf, l, w, b1, b5]
    obtain ⟨t1, t2, t3, t4, t5, t6, t7, t8⟩ :=
      coilsOf_spec (s.arm a).state (s.arm a).phase (s.program.forceOf a) (s.rotation a)
    rw [hc] at t1 t2 t3 t4 t5 t6 t7 t8
    refine ⟨t1, t2, t3, t4, fun h => ⟨t5 h, t5 h⟩, fun h => ⟨t6 h, t6 h⟩, fun ch h => ?_⟩
    dsimp only
    rw [b2 ch h, if_neg (bf ch h)]
    exact ⟨fun h => ⟨t7 h, t7 h⟩, fun h => ⟨t8 h, t8 h⟩⟩
  · have ne : ∀ k, (k = a.lift ∨ k = a.lower ∨ k = a.motor ∨ a.force = some k) → ch ≠ k :=
      fun k hk e => hch (e ▸ own k hk)
    rw [b3 _ (ne _ (by simp)) (fun h => ne ch (by simp [h]) rfl), a3 _ (ne _ (by simp)) (ne _ (by simp))]
  · rw [b5]
  · rw [b7, ar]

/-! ### The entries of the arms and the reports (R51, R110, R111) -/

/-- The three entries are judged (R51, R110). -/
theorem State.judgeArmEntries_spec (s : State) :
    s.judgeArmEntries.armEntriesJudged ∧
    State.SettlesTo [.armTransition, .armYield, .reverseArms] [] [] s s.judgeArmEntries := by
  obtain ⟨a1, a2⟩ := State.keepEntry_spec .armTransition s.arms.transition s.settings.caps.armMove s
  have e : s.judgeArmEntries = ((s.keepEntry .armTransition s.arms.transition s.settings.caps.armMove).keepEntry .armYield
      (s.keepEntry .armTransition s.arms.transition s.settings.caps.armMove).arms.yields
      (s.keepEntry .armTransition s.arms.transition s.settings.caps.armMove).settings.caps.yieldCap).keepEntry .reverseArms
      ((s.keepEntry .armTransition s.arms.transition s.settings.caps.armMove).keepEntry .armYield
        (s.keepEntry .armTransition s.arms.transition s.settings.caps.armMove).arms.yields
        (s.keepEntry .armTransition s.arms.transition s.settings.caps.armMove).settings.caps.yieldCap).arms.sideOut
      ((s.keepEntry .armTransition s.arms.transition s.settings.caps.armMove).keepEntry .armYield
        (s.keepEntry .armTransition s.arms.transition s.settings.caps.armMove).arms.yields
        (s.keepEntry .armTransition s.arms.transition s.settings.caps.armMove).settings.caps.yieldCap).reverseCap := rfl
  generalize s.keepEntry .armTransition s.arms.transition s.settings.caps.armMove = u at *
  obtain ⟨b1, b2⟩ := State.keepEntry_spec .armYield u.arms.yields u.settings.caps.yieldCap u
  generalize u.keepEntry .armYield u.arms.yields u.settings.caps.yieldCap = v at *
  obtain ⟨c1, c2⟩ := State.keepEntry_spec .reverseArms v.arms.sideOut v.reverseCap v
  rw [e]
  generalize v.keepEntry .reverseArms v.arms.sideOut v.reverseCap = t at *
  have ua : u.arms = s.arms := by rw [a2.rest]
  have va : v.arms = s.arms := by rw [b2.rest, ← ua]
  have ta : t.arms = s.arms := by rw [c2.rest, ← va]
  refine ⟨⟨?_, ?_, ?_⟩, (a2.trans b2 (by decide)).trans c2 (by decide)⟩
  · rw [(c2.entries .armTransition (by decide) (by decide) (by decide)).1,
      (b2.entries .armTransition (by decide) (by decide) (by decide)).1, a1, ← ta]
    have one : ∀ r : ArmRec, r.inTransition = true ↔
        r.state = .lowering ∨ r.state = .raising ∨ r.state = .fault ∨ (r.state = .stowed ∧ r.pending = true) := by
      intro r; unfold ArmRec.inTransition; split <;> simp_all
    simp only [Arms.transition, Bool.or_eq_true, one]
    constructor
    · rintro ((h | h) | h)
      · exact ⟨.left, h⟩
      · exact ⟨.right, h⟩
      · exact ⟨.main, h⟩
    · rintro ⟨b, h⟩
      cases b
      · exact .inl (.inl h)
      · exact .inl (.inr h)
      · exact .inr h
  · rw [(c2.entries .armYield (by decide) (by decide) (by decide)).1, b1, ua, ← ta]
    simp [Arms.yields, State.arm, Arms.get]
  · rw [c1, va, ← ta]
    simp [Arms.sideOut, State.arm, Arms.get]

/-- All three arms are STOWED or FAULT. -/
theorem Arms.allDown_iff (x : Arms) : x.allDown = true ↔ ∀ a, (x.get a).state = .stowed ∨ (x.get a).state = .fault := by
  constructor
  · intro h a
    simp only [Arms.allDown, List.all_cons, List.all_nil, Bool.and_true, Bool.and_eq_true, Bool.or_eq_true, beq_iff_eq] at h
    cases a
    · exact h.1
    · exact h.2.1
    · exact h.2.2
  · intro h
    simp only [Arms.allDown, List.all_cons, List.all_nil, Bool.and_true, Bool.and_eq_true, Bool.or_eq_true, beq_iff_eq]
    exact ⟨h .left, h .right, h .main⟩

/-- The coils stand as posted through a change that leaves the arms, their channels and what the rotation reads; and, of a
down arm, whatever becomes of the program. -/
theorem State.armPosted_congr {a : Arm} {s t : State} (h : s.armPosted a) (ha : t.arms = s.arms)
    (hc : ∀ ch : Channel, ch.val < 14 → t.output.channels[ch] = s.output.channels[ch])
    (hp : ¬((s.arm a).state = .stowed ∨ (s.arm a).state = .fault) → t.program = s.program ∧ t.rotation a = s.rotation a) :
    t.armPosted a := by
  have har : t.arm a = s.arm a := by simp only [State.arm, ha]
  have l : t.output.channels[a.lift] = s.output.channels[a.lift] := hc _ (by cases a <;> decide)
  have w : t.output.channels[a.lower] = s.output.channels[a.lower] := hc _ (by cases a <;> decide)
  have m : t.output.channels[a.motor] = s.output.channels[a.motor] := hc _ (by cases a <;> decide)
  have f : ∀ ch, a.force = some ch → t.output.channels[ch] = s.output.channels[ch] := by
    intro ch hch; exact hc _ (by revert ch; cases a <;> decide)
  obtain ⟨h1, h2, h3, h4, h5, h6, h7⟩ := h
  unfold State.armPosted
  dsimp only
  rw [har, l, w, m]
  refine ⟨h1, h2, h3, h4, fun hx => ?_, h6, fun ch hch => ⟨fun hx => ?_, fun hx => ?_⟩⟩
  · rw [(hp (by rcases hx with (hx | hx) | hx <;> rw [hx] <;> decide)).2]; exact h5 hx
  · rw [f ch hch, (hp (by rcases hx with hx | hx <;> rw [hx] <;> decide)).1]; exact (h7 ch hch).1 hx
  · rw [f ch hch]; exact (h7 ch hch).2 hx

/-- A change of an arm's state (R88, R110, R111), with the record it leaves: the changed one, with its rotation and force as
posted. -/
theorem State.moveArm_spec (a : Arm) (f : ArmRec → ArmRec) (s : State) :
    State.MovesArm a s (s.moveArm a f) ∧
    (s.moveArm a f).arm a = { f (s.arm a) with
      rot := ((s.moveArm a f).arm a).rot, force := ((s.moveArm a f).arm a).force } := by
  have e : s.moveArm a f = ((((s.modArm a f).postCoils a).judgeArmEntries.postBoth .armState).leavingCheck).judgeBars := rfl
  obtain ⟨a1, a2, a3, a4, a5, a6, a7⟩ := State.postCoils_spec a (s.modArm a f)
  generalize (s.modArm a f).postCoils a = u at *
  obtain ⟨b1, b2⟩ := State.judgeArmEntries_spec u
  generalize u.judgeArmEntries = v at *
  have c := State.postBoth_settlesTo .armState v
  have bc := b2.trans c (by decide)
  have we := State.postBoth_events .armState v
  generalize v.postBoth .armState = w at *
  obtain ⟨d1, ⟨ks, d2, d3⟩, d4, d5, -⟩ := State.leavingCheck_spec w
  have dn : ∀ k, k ≠ .modeChanged ∧ k ≠ .programSwapped → k ∉ ks := fun k hk hm => by
    have := d2 hm
    simp only [List.mem_cons, List.not_mem_nil, or_false] at this
    exact this.elim hk.1 hk.2
  generalize w.leavingCheck = x at *
  obtain ⟨g1, g2, -⟩ := State.judgeBars_spec x
  rw [e]
  generalize x.judgeBars = t at *
  have wa : w.arms = u.arms := by rw [bc.rest]
  have xa : x.arms = u.arms := by rw [d3.rest]; exact wa
  have ta : t.arms = u.arms := by rw [g1.rest]; exact xa
  have us : u = { s with arms := u.arms, output := u.output } := by rw [a7]; rfl
  have ws : w.unit = s.unit := by rw [bc.rest, us]
  have stay : s.unit.mode ≠ .leaving ∨ ¬u.arms.allDown = true → x = w := fun h => d1 fun hl => by
    rw [ws, wa] at hl
    rcases h with h | h
    · exact h hl.1
    · exact h hl.2
  have arm : ∀ b, t.arm b = u.arm b := fun b => by simp only [State.arm, ta]
  have own : ∀ ch : Channel, t.output.channels[ch].fault = s.output.channels[ch].fault ∧
      t.output.channels[ch].holder = s.output.channels[ch].holder ∧
      t.output.channels[ch].level = s.output.channels[ch].level := fun ch => by
    obtain ⟨p1, p2, p3⟩ := g1.owners ch
    obtain ⟨q1, q2, q3⟩ := d3.owners ch
    obtain ⟨r1, r2, r3⟩ := bc.owners ch
    obtain ⟨s1, s2, s3⟩ := a3.1 ch
    exact ⟨p1.trans (q1.trans (r1.trans s1)), p2.trans (q2.trans (r2.trans s2)), p3.trans (q3.trans (r3.trans s3))⟩
  have low : ∀ ch : Channel, ch.val < 14 → t.output.channels[ch] = u.output.channels[ch] := fun ch h =>
    (g1.channels ch h).trans ((d3.channels ch h).trans (bc.channels ch h))
  have tspray : t.spray.tank = u.spray.tank ∧ t.spray.latch = u.spray.latch :=
    ⟨g1.tank.1.trans (d3.tank.1.trans bc.tank.1), g1.tank.2.2.1.trans (d3.tank.2.2.1.trans bc.tank.2.2.1)⟩
  have ttravel : t.travel = u.travel := by
    rw [g1.rest]; show x.travel = _; rw [d3.rest]; show w.travel = _; rw [bc.rest]
  have tunit : ¬((u.arm a).state = .stowed ∨ (u.arm a).state = .fault) → t.unit = u.unit := fun h => by
    have hx : x = w := stay (.inr fun hl => h ((Arms.allDown_iff _).1 hl a))
    rw [g1.rest]; show x.unit = _; rw [hx, ws, us]
  have tg : t.gov = x.gov := by rw [g1.rest]
  have tu : t.unit = x.unit := by rw [g1.rest]
  have ubank : u.bank = s.bank := by rw [us]
  have wgov : w.gov = s.gov := by rw [bc.rest, us]
  have unot : u.notices = s.notices := by rw [us]
  have out : State.staysOut a s t → x = w := fun h => stay (h.imp_right fun hd hl => by
    have := (Arms.allDown_iff _).1 hl a
    rw [arm] at hd
    exact this.elim hd.1 hd.2)
  have notes : ∀ (l : Link) (k : EventKind), k ≠ .armState → k ≠ .ceilingBinding →
      (t.notices.events l).sameKind (x.notices.events l) k ∧ (w.notices.events l).sameKind (s.notices.events l) k :=
    fun l k h1 h2 => by
      have := bc.events l k (by simpa using h1) h2
      rw [unot] at this
      exact ⟨g1.events l k (by simp) h2, this⟩
  refine ⟨⟨fun b hb => ?_, ?_, fun ch h1 h2 => (low ch h1).trans (a2 ch h2), own, ?_, ?_, ⟨⟨?_, ?_, ?_⟩, g2⟩, fun l => ?_,
    fun l => ?_, fun l k h1 h2 h3 => ?_, fun y h1 h2 => ?_, ?_, fun hm src hs => ?_, fun hm => ?_, ?_⟩, ?_⟩
  · rw [arm, a5 b hb, State.modArm_arm_other hb]
  · rw [ta, a6]; exact Arms.mod_rest a f s.arms
  · exact ⟨g1.cuts.1.trans (d3.cuts.1.trans (bc.cuts.1.trans a3.2.1)),
      g1.cuts.2.trans (d3.cuts.2.trans (bc.cuts.2.trans a3.2.2))⟩
  · refine State.armPosted_congr a1 ta low fun h => ?_
    have hp : t.program = u.program := by simp only [State.program, State.inForce, tunit h]
    refine ⟨hp, ?_⟩
    unfold State.rotation State.dryRotation
    rw [ta, hp, ttravel, tspray.1, tspray.2]
  · have := b1.1
    simp only [arm]
    rw [(g1.entries .armTransition (by decide) (by decide) (by decide)).1,
      (d3.entries .armTransition (by decide) (by decide) (by decide)).1]
    show (w.ceiling.entry .armTransition).active = true ↔ _
    rw [(c.entries .armTransition (by decide) (by decide) (by decide)).1, this]
    have va : v.arms = u.arms := by rw [b2.rest]
    simp only [State.arm, va]
  · have := b1.2.1
    simp only [arm]
    rw [(g1.entries .armYield (by decide) (by decide) (by decide)).1,
      (d3.entries .armYield (by decide) (by decide) (by decide)).1]
    show (w.ceiling.entry .armYield).active = true ↔ _
    rw [(c.entries .armYield (by decide) (by decide) (by decide)).1, this]
    have va : v.arms = u.arms := by rw [b2.rest]
    simp only [State.arm, va]
  · have := b1.2.2
    simp only [arm]
    rw [(g1.entries .reverseArms (by decide) (by decide) (by decide)).1, d5,
      (c.entries .reverseArms (by decide) (by decide) (by decide)).1, this]
    have va : v.arms = u.arms := by rw [b2.rest]
    simp only [State.arm, va]
  · have e1 := g1.events l .armState (by decide) (by decide)
    have e2 : (x.notices.events l).sameKind (w.notices.events l) .armState :=
      d3.events l .armState (dn _ (by decide)) (by decide)
    have e3 : (v.notices.events l).sameKind (s.notices.events l) .armState := by
      have := b2.events l .armState (by decide) (by decide)
      rwa [unot] at this
    have post := EventSet.post_spec .armState (v.notices.events l)
    rw [e1.1, e1.2, e2.1, e2.2, we l, post.1, post.2.1, e3.2]
    exact ⟨rfl, rfl⟩
  · rw [g1.masks, d3.masks]; show (w.notices.events l).mask = _; rw [bc.masks, unot]
  · obtain ⟨n1, n2⟩ := notes l k h1 h2
    rcases h3 with h3 | h3
    · exact EventSet.sameKind_trans (EventSet.sameKind_trans n2 (d3.events l k (dn k h3) h2)) n1
    · rw [out h3] at n1; exact EventSet.sameKind_trans n2 n1
  · have q1 := g1.tallies y (by simp) h1
    have q3 : w.bank.tallies[y.index] = s.bank.tallies[y.index] := (bc.tallies y (by simp) h1).trans (by rw [ubank])
    rcases h2 with h2 | h2
    · exact q1.trans ((d3.tallies y (by simpa using h2) h1).trans q3)
    · rw [out h2] at q1; exact q1.trans q3
  · rw [g1.alarms, d3.alarms]; show w.notices.alarms = _; rw [bc.alarms, us]
  · have hx := out hm
    subst hx
    have := (bc.trans g1 (by decide)).entries src (fun h => hs (by
      revert h; cases src <;> decide)) (fun h => hs (by rw [h]; decide)) (fun h => hs (by rw [h]; decide))
    have uc : u.ceiling = s.ceiling := by rw [us]
    rw [uc] at this
    exact this
  · have hx := out hm
    subst hx
    rw [(bc.trans g1 (by decide)).rest, ubank, us]
  · have f1 : ∀ {γ : Type} (F : State → γ), F t = F { x with
        output := t.output, ceiling := t.ceiling, notices := t.notices, spray := t.spray
        bank := { x.bank with tallies := t.bank.tallies } } := fun F => congrArg F g1.rest
    have f2 : ∀ {γ : Type} (F : State → γ), F x = F { w with
        unit := x.unit, gov := x.gov, output := x.output, ceiling := x.ceiling, notices := x.notices, spray := x.spray
        bank := { w.bank with tallies := x.bank.tallies } } := fun F => congrArg F d3.rest
    have f3 : ∀ {γ : Type} (F : State → γ), F w = F { u with
        output := w.output, ceiling := w.ceiling, notices := w.notices, spray := w.spray
        bank := { u.bank with tallies := w.bank.tallies } } := fun F => congrArg F bc.rest
    have f4 : ∀ {γ : Type} (F : State → γ), F u = F { s with arms := u.arms, output := u.output } := fun F => congrArg F us
    have tb : t.bank = { s.bank with tallies := t.bank.tallies } := by
      have e1 := f1 State.bank
      have e2 := f2 State.bank
      have e3 := f3 State.bank
      rw [e1, e2, e3, ubank]
    have tgov : t.gov = { s.gov with requested := t.gov.requested, shift := t.gov.shift, settle := t.gov.settle } := by
      rw [tg, ← wgov]; exact d4
    exact State.eq_of_fields ((f1 State.clock).trans ((f2 State.clock).trans ((f3 State.clock).trans (f4 State.clock))))
      ((f1 State.periods).trans ((f2 State.periods).trans ((f3 State.periods).trans (f4 State.periods)))) rfl
      ((f1 State.travel).trans ((f2 State.travel).trans ((f3 State.travel).trans (f4 State.travel)))) rfl tgov rfl rfl
      ((f1 State.scan).trans ((f2 State.scan).trans ((f3 State.scan).trans (f4 State.scan)))) rfl
      ((f1 State.links).trans ((f2 State.links).trans ((f3 State.links).trans (f4 State.links)))) rfl tb
      ((f1 State.settings).trans ((f2 State.settings).trans ((f3 State.settings).trans (f4 State.settings))))
      ((f1 State.freeCount).trans ((f2 State.freeCount).trans ((f3 State.freeCount).trans (f4 State.freeCount))))
      ((f1 State.pending).trans ((f2 State.pending).trans ((f3 State.pending).trans (f4 State.pending))))
  · rw [arm, a4, State.modArm_arm_same]

/-! ### Raising, strikes and yields (R96, R101 to R103) -/

/-- A raise moves the arm (R96); the broom's hold-done flag is cleared before. -/
theorem State.startRaise_spec (a : Arm) (s : State) :
    State.MovesArm a (s.clearHoldDone a) (s.startRaise a) ∧
    (s.startRaise a).arm a = { s.arm a with
      state := .raising, phase := none, pending := false, timer := some (later s.now s.program.raiseTime)
      rot := ((s.startRaise a).arm a).rot, force := ((s.startRaise a).arm a).force } := by
  have c : (s.clearHoldDone a).arm a = s.arm a := by
    unfold State.clearHoldDone; split
    · cases a <;> rfl
    · rfl
  obtain ⟨h1, h2⟩ := State.moveArm_spec a (fun r =>
    { r with state := .raising, phase := none, pending := false, timer := some (later s.now s.program.raiseTime) })
    (s.clearHoldDone a)
  rw [c] at h2
  exact ⟨h1, h2⟩

/-- What the start of a yield changes of the machine: the arm, its channels, and with a change of state what `MovesArm` says.
A start from WORKING is such a change; one in a yield is none. -/
theorem State.startYield_spec (a : Arm) (s : State) :
    (((s.startYield a).arm a).state = .yielding ∧ ((s.startYield a).arm a).phase = some .lift ∧
      ((s.startYield a).arm a).strikes = (s.arm a).strikes ∧
      ((s.startYield a).arm a).timer = some (later s.now s.settings.arms.yieldLift)) ∧
    ((s.arm a).state ≠ .yielding → State.MovesArm a s (s.startYield a)) ∧
    ((s.arm a).state = .yielding → (∀ b, b ≠ a → (s.startYield a).arm b = s.arm b) ∧
      (∀ ch : Channel, armOfChannel ch ≠ some a → (s.startYield a).output.channels[ch] = s.output.channels[ch]) ∧
      s.startYield a = { s with arms := (s.startYield a).arms, output := (s.startYield a).output }) := by
  generalize ht : s.startYield a = t
  unfold State.startYield at ht
  dsimp only at ht
  split at ht <;> subst ht
  · next h1 h2 =>
    have r := State.modArm_arm_same a (fun r => { r with timer := some (later s.now s.settings.arms.yieldLift) }) s
    exact ⟨⟨by rw [r]; exact h1, by rw [r]; exact h2, by rw [r], by rw [r]⟩, fun h => absurd h1 h,
      fun _ => ⟨fun b hb => State.modArm_arm_other hb _ s, fun _ _ => rfl, rfl⟩⟩
  · next h1 h2 =>
    have r := State.modArm_arm_same a
      (fun r => { r with phase := some .lift, timer := some (later s.now s.settings.arms.yieldLift) }) s
    have o := fun b hb => State.modArm_arm_other (a := a) (b := b) hb
      (fun r => { r with phase := some .lift, timer := some (later s.now s.settings.arms.yieldLift) }) s
    obtain ⟨-, c2, -, c4, c5, -, c7⟩ := State.postCoils_spec a (s.modArm a fun r =>
      { r with phase := some .lift, timer := some (later s.now s.settings.arms.yieldLift) })
    rw [r] at c4
    exact ⟨⟨by rw [c4]; exact h1, by rw [c4], by rw [c4], by rw [c4]⟩, fun h => absurd h1 h,
      fun _ => ⟨fun b hb => (c5 b hb).trans (o b hb), c2, by rw [c7]; rfl⟩⟩
  · next h1 _ =>
    obtain ⟨m1, m2⟩ := State.moveArm_spec a (fun r =>
      { r with state := .yielding, phase := some .lift, timer := some (later s.now s.settings.arms.yieldLift) }) s
    refine ⟨⟨by rw [m2], by rw [m2], by rw [m2], by rw [m2]⟩, fun _ => m1, fun h => ?_⟩
    exact (h1 h).elim

/-- A kind once posted stays so through changes that leave it. -/
theorem State.postedOnce_of_same {k : EventKind} {r s t : State} (h : State.postedOnce k r s)
    (ht : ∀ l : Link, (t.notices.events l).sameKind (s.notices.events l) k) : State.postedOnce k r t := fun l => by
  rw [(ht l).1, (ht l).2]; exact h l

/-- A kind that stood until it was posted once. -/
theorem State.postedOnce_after_same {k : EventKind} {r s t : State} (h : State.postedOnce k s t)
    (hr : ∀ l : Link, (s.notices.events l).sameKind (r.notices.events l) k) : State.postedOnce k r t := fun l => by
  rw [← (hr l).2]; exact h l

/-- A posting to both links is one of its kind. -/
theorem State.postBoth_once (k : EventKind) (s : State) : s.postedOnce k (s.postBoth k) := fun l => by
  rw [State.postBoth_events]; exact ⟨(EventSet.post_spec k _).1, (EventSet.post_spec k _).2.1⟩

/-- A kerb strike (R101 to R103). -/
theorem State.strike_spec (a : SideArm) (s : State) : State.Strikes a s (s.strike a) := by
  have tal := State.bumpBy_tallies (.strikes a) 1 s
  have e : s.strike a = (fun u : State =>
      if u.settings.arms.strikeLimit ≤ (recordTime u.now u.settings.arms.strikeWindow (u.arm a.arm).strikes).length then
        (((u.modArm a.arm fun r => { r with strikes := [] }).startRaise a.arm).raiseAlarm .strikeRepeat
          a.arm.number).alarmGone .strikeRepeat a.arm.number
      else (u.modArm a.arm fun r => { r with
        strikes := recordTime u.now u.settings.arms.strikeWindow (u.arm a.arm).strikes }).startYield a.arm)
      ((s.bump (.strikes a)).postBoth .strike) := rfl
  have upost : ∀ l, ((s.bump (.strikes a)).postBoth .strike).notices.events l = (s.notices.events l).post .strike :=
    fun l => State.postBoth_events _ _ l
  have ueq : (s.bump (.strikes a)).postBoth .strike = { s with
      notices := ((s.bump (.strikes a)).postBoth .strike).notices
      bank := { s.bank with tallies := (s.bumpBy (.strikes a) 1).bank.tallies } } := rfl
  have ual : ((s.bump (.strikes a)).postBoth .strike).notices.alarms = s.notices.alarms := rfl
  generalize (s.bump (.strikes a)).postBoth .strike = u at *
  have ut : u.bank.tallies = (s.bumpBy (.strikes a) 1).bank.tallies := by rw [ueq]
  have post := fun l => EventSet.post_spec .strike (s.notices.events l)
  have uk : ∀ (l : Link) (k : EventKind), k ≠ .strike → (u.notices.events l).sameKind (s.notices.events l) k :=
    fun l k hk => by rw [upost]; exact (post l).2.2.2 k hk
  have um : ∀ l, (u.notices.events l).mask = (s.notices.events l).mask := fun l => by rw [upost]; exact (post l).2.2.1
  have u1 : s.postedOnce .strike u := fun l => by rw [upost]; exact ⟨(post l).1, (post l).2.1⟩
  have uarm : ∀ b, u.arm b = s.arm b := fun b => by rw [ueq]; rfl
  have hl : recordTime u.now u.settings.arms.strikeWindow (u.arm a.arm).strikes = s.strikeList a := by rw [ueq]; rfl
  dsimp only at e
  rw [hl] at e
  have nm : a.arm ≠ .main := by cases a <;> decide
  have us : u.settings = s.settings := by rw [ueq]
  rw [us] at e
  by_cases hlen : s.settings.arms.strikeLimit ≤ (s.strikeList a).length
  · rw [if_pos hlen] at e
    rw [e]
    have v1 : (u.modArm a.arm fun r => { r with strikes := [] }).arm a.arm = { s.arm a.arm with strikes := [] } := by
      rw [State.modArm_arm_same, uarm]
    have v2 : ∀ b, b ≠ a.arm → (u.modArm a.arm fun r => { r with strikes := [] }).arm b = s.arm b := fun b hb => by
      rw [State.modArm_arm_other hb, uarm]
    have veq : (u.modArm a.arm fun r => { r with strikes := [] }) = { u with
      arms := (u.modArm a.arm fun r => { r with strikes := [] }).arms } := rfl
    generalize (u.modArm a.arm fun r => { r with strikes := [] }) = v at *
    obtain ⟨x1, x2⟩ := State.startRaise_spec a.arm v
    have hv : v.clearHoldDone a.arm = v := by unfold State.clearHoldDone; rw [if_neg nm]
    rw [hv] at x1
    generalize v.startRaise a.arm = x at *
    have xs : (x.arm a.arm).state = .raising := by rw [x2]
    have still : State.staysOut a.arm v x := .inr (by rw [xs]; decide)
    have vn : v.notices = u.notices := by rw [veq]
    have vb : v.bank = u.bank := by rw [veq]
    have y1 := State.raiseAlarm_raises .strikeRepeat a.arm.number x
    have y2 := State.raiseAlarm_tallies .strikeRepeat a.arm.number x
    have y3 := State.raiseAlarm_events .strikeRepeat a.arm.number x
    have ynow : (x.raiseAlarm .strikeRepeat a.arm.number).now = x.now := by simp [State.now]
    have ybank : (x.raiseAlarm .strikeRepeat a.arm.number).bank =
        { x.bank with tallies := (x.raiseAlarm .strikeRepeat a.arm.number).bank.tallies } := by
      unfold State.raiseAlarm; split <;> rfl
    have yeq : x.raiseAlarm .strikeRepeat a.arm.number = { x with
        notices := (x.raiseAlarm .strikeRepeat a.arm.number).notices
        bank := (x.raiseAlarm .strikeRepeat a.arm.number).bank } := by unfold State.raiseAlarm; split <;> rfl
    generalize x.raiseAlarm .strikeRepeat a.arm.number = y at *
    have t1 := State.alarmGone_goes .strikeRepeat a.arm.number y
    obtain ⟨t2, t3, t4⟩ := State.alarmGone_events .strikeRepeat a.arm.number y
    have teq : y.alarmGone .strikeRepeat a.arm.number = { y with
        notices := (y.alarmGone .strikeRepeat a.arm.number).notices } := by unfold State.alarmGone; split <;> rfl
    generalize y.alarmGone .strikeRepeat a.arm.number = t at *
    have full : t = { x with notices := t.notices, bank := { x.bank with tallies := t.bank.tallies } } := by
      have tb : t.bank = y.bank := by rw [teq]
      have : t = { x with notices := t.notices, bank := y.bank } := by rw [teq, yeq]
      rw [this]
      exact State.eq_of_fields rfl rfl rfl rfl rfl rfl rfl rfl rfl rfl rfl rfl ybank rfl rfl rfl
    have tt : t.bank.tallies = y.bank.tallies := by rw [teq]
    have arm : ∀ b, t.arm b = x.arm b := fun b => by rw [full]; rfl
    have ypost := fun l => EventSet.post_spec .alarmRaised (x.notices.events l)
    have xsame : ∀ (l : Link) (k : EventKind), k ≠ .armState → k ≠ .ceilingBinding →
        (x.notices.events l).sameKind (u.notices.events l) k := fun l k h1 h2 => by
      have := x1.events l k h1 h2 (.inr still); rwa [vn] at this
    have xt : ∀ (l : Link) (k : EventKind), k ≠ .alarmRaised → k ≠ .alarmGone →
        (t.notices.events l).sameKind (x.notices.events l) k := fun l k h1 h2 => by
      refine EventSet.sameKind_trans ?_ (t2 l k h2)
      rw [y3]; exact (ypost l).2.2.2 k h1
    have onceArm : s.postedOnce .armState t := by
      have h1 : State.postedOnce .armState u x := by have := x1.told; unfold State.postedOnce at this; rwa [vn] at this
      exact State.postedOnce_of_same (State.postedOnce_after_same h1 fun l => uk l _ (by decide))
        fun l => xt l _ (by decide) (by decide)
    have posted : t.armPosted a.arm := State.armPosted_congr x1.posted (by rw [full]) (fun ch _ => by rw [full]) fun _ => by
      rw [full]; exact ⟨rfl, rfl⟩
    have judged : t.armEntriesJudged ∧ t.barsJudged := by rw [full]; exact x1.judged
    refine
      { counted := ?_, posted := ?_, others := fun b hb => ?_, channels := fun ch h1 h2 => ?_, masks := fun l => ?_
        events := fun l k hk => ?_, tallies := fun z hz => ?_, moves := fun _ => ⟨posted, judged.1, judged.2, onceArm⟩
        stays := fun _ h => absurd hlen (by omega), repeats := fun _ => ⟨?_, ?_, ?_, ?_, fun l => ?_, y.notices.alarms, ?_,
          t1.1, fun hx => ?_⟩, yields := fun h => absurd hlen (by omega), rest := ?_ }
    · rw [tt, y2 _ (by simp), x1.tallies _ (by simp) (.inl (by simp)), vb, ut]; exact tal.1
    · exact State.postedOnce_of_same (State.postedOnce_of_same u1 fun l => xsame l _ (by decide) (by decide))
        fun l => xt l _ (by decide) (by decide)
    · rw [arm, x1.others b hb, v2 b hb]
    · rw [full]; exact (x1.channels ch h1 h2).trans (by rw [veq, ueq])
    · rw [t3, y3, (ypost l).2.2.1, x1.masks, vn, um]
    · simp only [List.mem_cons, List.not_mem_nil, or_false, not_or] at hk
      exact EventSet.sameKind_trans (EventSet.sameKind_trans (uk l k hk.1) (xsame l k hk.2.1 hk.2.2.1))
        (xt l k hk.2.2.2.1 hk.2.2.2.2)
    · simp only [List.mem_cons, List.not_mem_nil, or_false, not_or] at hz
      rw [tt, y2 _ hz.2.2, x1.tallies _ hz.2.1 (.inr still), vb, ut]; exact tal.2 z hz.1
    · rw [arm, xs]
    · rw [arm, x2]
    · rw [arm, x2, v1]
    · rw [arm, x2, veq, ueq]; rfl
    · have h1 := t2 l .alarmRaised (by decide)
      have h2 := xsame l .alarmRaised (by decide) (by decide)
      have h3 := uk l .alarmRaised (by decide)
      rw [h1.1, h1.2, y3, (ypost l).2.1, h2.2, h3.2]
      exact ⟨(ypost l).1, rfl⟩
    · have hn : y.now = s.now := by rw [yeq]; show x.now = _; rw [x1.leaving]; show v.now = _; rw [veq, ueq]; rfl
      rw [← hn, ← ual, ← vn, ← x1.alarms]; exact y1.1
    · have once := t4 hx
      refine State.postedOnce_after_same once fun l => ?_
      refine EventSet.sameKind_trans (EventSet.sameKind_trans (uk l _ (by decide)) (xsame l _ (by decide) (by decide))) ?_
      rw [y3]; exact (ypost l).2.2.2 _ (by decide)
    · have h1 := x1.rest still
      have hb : x.bank = { s.bank with tallies := x.bank.tallies } := by
        have := congrArg State.bank h1
        rw [this, vb]; show _ = _; rw [ueq]
      rw [full]
      refine State.eq_of_fields ?_ ?_ ?_ ?_ rfl ?_ rfl rfl ?_ rfl ?_ rfl ?_ ?_ ?_ ?_
      all_goals first
        | (show ({ x.bank with tallies := t.bank.tallies } : TallyBank) = _; rw [hb])
        | (show x.clock = _; rw [h1, veq, ueq])
        | (show x.periods = _; rw [h1, veq, ueq])
        | (show x.unit = _; rw [h1, veq, ueq])
        | (show x.travel = _; rw [h1, veq, ueq])
        | (show x.gov = _; rw [h1, veq, ueq])
        | (show x.scan = _; rw [h1, veq, ueq])
        | (show x.links = _; rw [h1, veq, ueq])
        | (show x.settings = _; rw [h1, veq, ueq])
        | (show x.freeCount = _; rw [h1, veq, ueq])
        | (show x.pending = _; rw [h1, veq, ueq])
  · rw [if_neg hlen] at e
    rw [e]
    have v1 := State.modArm_arm_same a.arm (fun r => { r with strikes := s.strikeList a }) u
    have v2 := fun b hb => State.modArm_arm_other (a := a.arm) (b := b) hb (fun r => { r with strikes := s.strikeList a }) u
    have veq : (u.modArm a.arm fun r => { r with strikes := s.strikeList a }) = { u with
      arms := (u.modArm a.arm fun r => { r with strikes := s.strikeList a }).arms } := rfl
    generalize (u.modArm a.arm fun r => { r with strikes := s.strikeList a }) = v at *
    obtain ⟨⟨y1, y2, y3, y4⟩, y5, y6⟩ := State.startYield_spec a.arm v
    generalize v.startYield a.arm = t at *
    have vst : (v.arm a.arm).state = (s.arm a.arm).state := by rw [v1, uarm]
    rw [vst] at y5 y6
    have vn : v.notices = u.notices := by rw [veq]
    have vb : v.bank = u.bank := by rw [veq]
    have still : State.staysOut a.arm v t := .inr (by rw [y1]; decide)
    have ev : ∀ (l : Link) (k : EventKind), k ≠ .armState → k ≠ .ceilingBinding →
        (t.notices.events l).sameKind (u.notices.events l) k := fun l k h1 h2 => by
      by_cases hs : (s.arm a.arm).state = .yielding
      · rw [(y6 hs).2.2, ← vn]; exact ⟨rfl, rfl⟩
      · have := (y5 hs).events l k h1 h2 (.inr still); rwa [vn] at this
    have ta : ∀ z : Tally, z ≠ .urgentStops → t.bank.tallies[z.index] = (s.bumpBy (.strikes a) 1).bank.tallies[z.index] :=
      fun z hz => by
        by_cases hs : (s.arm a.arm).state = .yielding
        · rw [(y6 hs).2.2, ← ut, ← vb]
        · rw [(y5 hs).tallies z hz (.inr still), vb, ut]
    refine
      { counted := ?_, posted := ?_, others := fun b hb => ?_, channels := fun ch h1 h2 => ?_, masks := fun l => ?_
        events := fun l k hk => ?_, tallies := fun z hz => ?_, moves := fun hm => ?_
        stays := fun hs _ => ⟨fun l => ?_, ?_, ?_⟩, repeats := fun h => absurd h hlen
        yields := fun _ => ⟨y1, y2, ?_, ?_, ?_, fun l => ⟨?_, ?_⟩, ?_⟩, rest := ?_ }
    · rw [ta _ (by simp)]; exact tal.1
    · exact State.postedOnce_of_same u1 fun l => ev l _ (by decide) (by decide)
    · by_cases hs : (s.arm a.arm).state = .yielding
      · rw [(y6 hs).1 b hb, v2 b hb, uarm]
      · rw [(y5 hs).others b hb, v2 b hb, uarm]
    · by_cases hs : (s.arm a.arm).state = .yielding
      · rw [(y6 hs).2.1 ch h2, veq, ueq]
      · rw [(y5 hs).channels ch h1 h2, veq, ueq]
    · by_cases hs : (s.arm a.arm).state = .yielding
      · rw [(y6 hs).2.2, ← um, ← vn]
      · rw [(y5 hs).masks, vn, um]
    · simp only [List.mem_cons, List.not_mem_nil, or_false, not_or] at hk
      exact EventSet.sameKind_trans (uk l k hk.1) (ev l k hk.2.1 hk.2.2.1)
    · simp only [List.mem_cons, List.not_mem_nil, or_false, not_or] at hz
      rw [ta z hz.2.1]; exact tal.2 z hz.1
    · have hs : (s.arm a.arm).state ≠ .yielding := by
        rcases hm with hm | hm
        · rw [hm]; decide
        · exact absurd hm hlen
      have m := y5 hs
      refine ⟨m.posted, m.judged.1, m.judged.2, ?_⟩
      have h1 : State.postedOnce .armState u t := by have := m.told; unfold State.postedOnce at this; rwa [vn] at this
      exact State.postedOnce_after_same h1 fun l => uk l _ (by decide)
    · rw [(y6 hs).2.2]
      show (v.notices.events l).sameKind _ _
      rw [vn]; exact uk l _ (by decide)
    · rw [(y6 hs).2.2, veq, ueq]
    · rw [(y6 hs).2.2, veq, ueq]
    · rw [y3, v1]
    · rw [y4, veq, ueq]; rfl
    · by_cases hs : (s.arm a.arm).state = .yielding
      · rw [(y6 hs).2.2, ← ual, ← vn]
      · rw [(y5 hs).alarms, vn, ual]
    · exact EventSet.sameKind_trans (uk l _ (by decide)) (ev l _ (by decide) (by decide))
    · exact EventSet.sameKind_trans (uk l _ (by decide)) (ev l _ (by decide) (by decide))
    · rw [ta _ (by simp)]; exact tal.2 _ (by simp)
    · by_cases hs : (s.arm a.arm).state = .yielding
      · rw [(y6 hs).2.2, veq, ueq]
      · rw [(y5 hs).rest still, veq, ueq]

/-! ### The broom (R105, R106, R108) -/

/-- Under its latch, channel 13 is off whatever its record (R159, R169). -/
theorem ChannelRec.reform_cut (r : RangeSettings) (c : ChannelRec) :
    c.reform true r 13 = { c with target := 0, carrier := c.carrier.follow 0, openSince := none } := by
  by_cases h : c.fault = .none <;>
    simp [ChannelRec.reform, ChannelRec.stateWith, targetIn, ChannelState.judged, isPropChannel, h]

/-- A cut of comparator 2, as the two blocks take it (R105, R150, R169). -/
theorem State.takesBroomCut_spec (cut : Bool) (s : State) :
    State.TakesBroomCut cut s (if cut then s.setBroomCut.seeBroomCut else s) := by
  cases cut
  · exact ⟨fun _ => rfl, nofun, nofun, nofun, nofun, nofun, fun _ _ => rfl, rfl⟩
  · generalize ht : (if true then s.setBroomCut.seeBroomCut else s) = t
    have e : t.output = (s.setBroomCut.postSetpoint 13 0).output := by rw [← ht]; rfl
    have h1 := State.changeChannel_spec 13 ChannelRec.release (s.modOutput fun o => { o with broomCut := true })
    have h2 := State.changeChannel_spec 13 (fun c => { c with setpoint := 0 }) s.setBroomCut
    have f1 : (s.modOutput fun o => { o with broomCut := true }).output.cutFlag 13 = true := rfl
    have f2 : s.setBroomCut.output.cutFlag 13 = true := rfl
    rw [f1, ChannelRec.reform_cut] at h1
    rw [f2, ChannelRec.reform_cut] at h2
    have c : t.output.channels[(13 : Channel)] = { s.output.channels[(13 : Channel)] with
        setpoint := 0, target := 0, holder := none, level := 0, openSince := none
        carrier := s.output.channels[(13 : Channel)].carrier.follow 0 } := by
      rw [e]
      refine h2.1.trans ?_
      show ({ s.setBroomCut.output.channels[(13 : Channel)] with
        setpoint := 0, target := 0, carrier := s.setBroomCut.output.channels[(13 : Channel)].carrier.follow 0
        openSince := none } : ChannelRec) = _
      unfold State.setBroomCut
      rw [h1.1]
      simp [ChannelRec.release, Carrier.follow, Carrier.load]
    refine ⟨nofun, fun _ => by rw [← ht]; rfl, fun _ => by rw [← ht]; rfl, fun _ => ?_, fun _ => ?_, fun _ => ?_,
      fun k hk => ?_, by rw [← ht]; rfl⟩
    · rw [c]
    · rw [c]
      exact ⟨fun _ => by simp [Carrier.follow, Carrier.load], nofun, nofun⟩
    · unfold Output.commanded
      rw [c]
      simp [ChannelRec.commandedOn, isPropChannel, Carrier.follow]
    · rw [e]
      exact (h2.2.1 k hk).trans (h1.2.1 k hk)

/-- A jam counts one in the tallies. -/
theorem State.bump_jams (s : State) : s.bump .jams = s.jamCounted := rfl

/-- The broom has no down-force, so a change of its state leaves that field. -/
theorem State.moveArm_main_force (f : ArmRec → ArmRec) (s : State) :
    (s.moveArm .main f).arms.main.force = (f s.arms.main).force := by
  have h : (s.moveArm .main f).arms = ((s.modArm .main f).postCoils .main).arms := by
    simp [State.moveArm, State.announceArms]
  rw [h]
  unfold State.postCoils State.postLiftLower
  dsimp only
  split <;> rfl

/-- The broom that enters JAMMED turns no more (R88). -/
theorem State.moveArm_jammed (f : ArmRec → ArmRec) (s : State) (hf : (f s.arms.main).state = .jammed) :
    State.MovesArm .main s (s.moveArm .main f) ∧ (s.moveArm .main f).arms.main = { f s.arms.main with rot := 0 } := by
  obtain ⟨h1, h2⟩ := State.moveArm_spec .main f s
  have h3 := State.moveArm_main_force f s
  generalize s.moveArm .main f = t at *
  have h2 : t.arms.main = { f s.arms.main with rot := t.arms.main.rot, force := t.arms.main.force } := h2
  have hs : (t.arm .main).state = .jammed := by show t.arms.main.state = _; rw [h2]; exact hf
  have hr : t.arms.main.rot = 0 := (h1.posted.2.2.2.2.2.1 ⟨by rw [hs]; decide, by rw [hs]; decide⟩).2
  refine ⟨h1, ?_⟩
  rw [h2, h3, hr]

/-- A jam of the broom (R106, R108). -/
theorem State.jam_spec (s : State) : State.Jams s s.jam := by
  have e : s.jam = if 3 ≤ s.jamList.length then
      ((s.jamCounted.modArms fun x => { x with lock := true }).moveArm .main fun r =>
        { r with state := .jammed, phase := none, timer := none, strikes := [] }).raiseAlarm .jamRepeat 2
    else (s.jamCounted.modArms fun x => { x with holdDone := false }).moveArm .main fun r =>
      { r with state := .jammed, phase := none, strikes := s.jamList
               timer := some (later s.now s.settings.arms.jamHold) } := rfl
  refine ⟨fun h => ?_, fun h => ?_⟩
  · rw [e, if_neg (by omega)]
    exact State.moveArm_jammed _ (s.jamCounted.modArms fun x => { x with holdDone := false }) rfl
  · rw [e, if_pos h]
    obtain ⟨h1, h2⟩ := State.moveArm_jammed
      (fun r => { r with state := .jammed, phase := none, timer := none, strikes := [] })
      (s.jamCounted.modArms fun x => { x with lock := true }) rfl
    generalize State.moveArm .main _ _ = v at h1 h2 ⊢
    refine ⟨v, h1, h2, State.raiseAlarm_raises _ _ v, fun l => ?_, fun l => ?_, fun l k hk => ?_,
      fun x hx => State.raiseAlarm_tallies _ _ v x hx, ?_⟩
    · rw [State.raiseAlarm_events]
      exact ⟨(EventSet.post_spec _ _).1, (EventSet.post_spec _ _).2.1⟩
    · rw [State.raiseAlarm_events]; exact (EventSet.post_spec _ _).2.2.1
    · rw [State.raiseAlarm_events]; exact (EventSet.post_spec _ _).2.2.2 k hk
    · unfold State.raiseAlarm; split <;> rfl

/-- A detection of comparator 2, after its cut (R105, R106): a jam in WORKING, a jam hold started anew in JAMMED without the
lock, and nothing else in the other states. -/
theorem State.broomDetection_spec (cut : Bool) (s : State) :
    ∃ w : State, State.TakesBroomCut cut s w ∧
      (if cut then s.setBroomCut.broomDetection true else s.broomDetection false) =
        (match w.arms.main.state with
         | .working => w.jam
         | .jammed => if w.arms.lock = true then w else { w with arms := { w.arms with
             holdDone := false, main := { w.arms.main with timer := some (later w.now w.settings.arms.jamHold) } } }
         | .stowed | .lowering | .yielding | .raising | .fault => w) := by
  refine ⟨_, State.takesBroomCut_spec cut s, ?_⟩
  unfold State.broomDetection
  cases cut
  · simp only [Bool.false_eq_true, if_false]
    (repeat' split) <;> first | rfl | simp_all
  · simp only [if_true]
    generalize s.setBroomCut.seeBroomCut = w
    (repeat' split) <;> first | rfl | simp_all

end Sys2Proof.Machine
end

