-- ==== Sys2Proof/Laws/Links.lean ====
section
/-! SUPPORT. What the port does with a complete frame (R180, R188): the three cases of `State.serve`, the record of the link, and
the end of DIRECT and of SERVICE, which the loss of a link brings (R13, R172, R185). -/

namespace Sys2Proof.Machine

/-! ### The records of the links -/

@[simp] theorem Links.mod_same (l : Link) (f : LinkRec → LinkRec) (x : Links) : (x.mod l f).get l = f (x.get l) := by
  cases l <;> rfl

theorem Links.mod_other {l k : Link} (h : k ≠ l) (f : LinkRec → LinkRec) (x : Links) : (x.mod l f).get k = x.get k := by
  cases l <;> cases k <;> first | rfl | exact absurd rfl h

@[simp] theorem State.modLink_same (l : Link) (f : LinkRec → LinkRec) (s : State) : (s.modLink l f).link l = f (s.link l) :=
  Links.mod_same l f s.links

theorem State.modLink_other {l k : Link} (h : k ≠ l) (f : LinkRec → LinkRec) (s : State) :
    (s.modLink l f).link k = s.link k := Links.mod_other h f s.links

/-- An answer changes the answer buffer of its link alone (R177). -/
theorem State.putAnswer_spec (l : Link) (kind tag : Byte) (r : Reply) (s : State) :
    (s.putAnswer l kind tag r).link l = { s.link l with answer := ⟨kind, tag, r.code, answerData r.data⟩ } ∧
    (s.putAnswer l kind tag r).link l.other = s.link l.other ∧
    s.putAnswer l kind tag r = { s with links := (s.putAnswer l kind tag r).links } :=
  ⟨State.modLink_same _ _ _, State.modLink_other (by cases l <;> decide) _ _, rfl⟩

/-! ### A complete frame (R180, R188) -/

/-- A request that passes the gate: its owner acts on the state that step 1 leaves, and its answer is put. -/
theorem State.serve_passes {h : Head} {kind : Nat} {s : State} (hp : s.passes h kind) (act : State → State × Reply) :
    s.serve h kind act =
      (act (s.taken h)).1.putAnswer h.link (BitVec.ofNat 8 kind) h.tag (act (s.taken h)).2 := by
  obtain ⟨h1, h2⟩ := hp
  have h1 : ((s.elapse h.after).link h.link).discard = false := by simpa [State.link] using h1
  simp only [State.serve, h1, Bool.false_eq_true, if_false]
  rw [if_pos (show gatePasses kind (((s.elapse h.after).receive h).link h.link).state = true from h2)]
  rfl

/-- A request held back at the gate is answered STATE. -/
theorem State.serve_gated {h : Head} {kind : Nat} {s : State} (hd : (s.link h.link).discard = false)
    (hg : gatePasses kind ((s.taken h).link h.link).state = false) (act : State → State × Reply) :
    s.serve h kind act = (s.taken h).answered h kind .state [] := by
  have h1 : ((s.elapse h.after).link h.link).discard = false := by simpa [State.link] using hd
  simp only [State.serve, h1, Bool.false_eq_true, if_false]
  rw [if_neg (show ¬gatePasses kind (((s.elapse h.after).receive h).link h.link).state = true by
    rw [Bool.not_eq_true]; exact hg)]
  rfl

/-- A frame marked at a joint restart is discarded. -/
theorem State.serve_discards {h : Head} {s : State} (hd : (s.link h.link).discard = true) (kind : Nat)
    (act : State → State × Reply) :
    s.serve h kind act = (s.elapse h.after).modLink h.link fun x => { x with selected := false, discard := false } := by
  have h1 : ((s.elapse h.after).link h.link).discard = true := by simpa [State.link] using hd
  simp only [State.serve, h1, if_true]

/-- What the port's step 1 may change (R180, R184): the link's record, and with a loss entry that goes, its reports. -/
theorem State.taken_rest (h : Head) (s : State) :
    s.taken h = { s.elapse h.after with
      links := (s.taken h).links, ceiling := (s.taken h).ceiling, notices := (s.taken h).notices
      bank := { (s.elapse h.after).bank with tallies := (s.taken h).bank.tallies } } ∧
    (s.taken h).link h.link = LinkRec.receive (s.elapse h.after).now h.live (s.link h.link) ∧
    (s.taken h).link h.link.other = s.link h.link.other ∧ (s.taken h).notices.alarms = s.notices.alarms := by
  have ll : (s.elapse h.after).links = s.links := by simp
  have same : ((s.elapse h.after).modLink h.link (LinkRec.receive (s.elapse h.after).now h.live)).link h.link =
      LinkRec.receive (s.elapse h.after).now h.live (s.link h.link) := by
    rw [State.modLink_same]; simp only [State.link, ll]
  have oth : ((s.elapse h.after).modLink h.link (LinkRec.receive (s.elapse h.after).now h.live)).link h.link.other =
      s.link h.link.other := by
    rw [State.modLink_other (by cases h.link <;> decide)]; simp only [State.link, ll]
  have al : (s.elapse h.after).notices = s.notices := by simp
  unfold State.taken State.receive
  dsimp only
  split
  · have d := (State.deactivate_spec (lossEntry h.link)
      ((s.elapse h.after).modLink h.link (LinkRec.receive (s.elapse h.after).now h.live))).2.2.2
    have dl : ∀ k, (State.deactivate (lossEntry h.link)
        ((s.elapse h.after).modLink h.link (LinkRec.receive (s.elapse h.after).now h.live))).link k =
        ((s.elapse h.after).modLink h.link (LinkRec.receive (s.elapse h.after).now h.live)).link k := fun k => by
      simp [State.link]
    refine ⟨?_, (dl _).trans same, (dl _).trans oth, ?_⟩
    · have da := d.rest
      have sp : (State.deactivate (lossEntry h.link)
        ((s.elapse h.after).modLink h.link (LinkRec.receive (s.elapse h.after).now h.live))).spray =
        (s.elapse h.after).spray := by simp [State.modLink]
      have ou : (State.deactivate (lossEntry h.link)
        ((s.elapse h.after).modLink h.link (LinkRec.receive (s.elapse h.after).now h.live))).output =
        (s.elapse h.after).output := by simp [State.modLink]
      rw [sp, ou] at da
      exact da.trans (by simp [State.modLink])
    · rw [d.alarms]; exact congrArg Notices.alarms al
  · exact ⟨rfl, same, oth, congrArg Notices.alarms al⟩

/-! ### The end of DIRECT and of SERVICE (R13, R172) -/

/-- One channel leaves DIRECT: its own record is released, the others stand. -/
theorem State.endDirect_spec (ch : Channel) (s : State) :
    (s.endDirect ch).output.channels[ch] =
      s.output.channels[ch].release.reform (s.output.cutFlag ch) s.settings.ranges[ch] ch ∧
    (∀ k, k ≠ ch → (s.endDirect ch).output.channels[k] = s.output.channels[k]) ∧
    (s.endDirect ch).output.driveCut = s.output.driveCut ∧ (s.endDirect ch).output.broomCut = s.output.broomCut ∧
    s.endDirect ch = { s with output := (s.endDirect ch).output } :=
  let h := State.changeChannel_spec ch ChannelRec.release s
  ⟨h.1, h.2.1, h.2.2.1, h.2.2.2, rfl⟩

/-- DIRECT ends on the channels of a list whose holder meets a condition. -/
theorem State.endDirect_fold (p : Link → Bool) (list : List Channel) (hn : list.Nodup) (s t : State)
    (ht : list.foldl (fun s ch => if s.output.channels[ch].holder.any p then s.endDirect ch else s) s = t) :
    (∀ ch : Channel, t.output.channels[ch] =
      if ch ∈ list ∧ s.output.channels[ch].holder.any p = true then
        s.output.channels[ch].release.reform (s.output.cutFlag ch) s.settings.ranges[ch] ch
      else s.output.channels[ch]) ∧
    t.output.driveCut = s.output.driveCut ∧ t.output.broomCut = s.output.broomCut ∧ t = { s with output := t.output } := by
  induction list generalizing s with
  | nil => subst ht; exact ⟨fun ch => by simp, rfl, rfl, rfl⟩
  | cons c rest ih =>
    rw [List.foldl_cons] at ht
    obtain ⟨hc, hr⟩ := List.nodup_cons.1 hn
    by_cases hp : s.output.channels[c].holder.any p = true
    · rw [if_pos hp] at ht
      obtain ⟨a1, a2, a3, a4, a5⟩ := State.endDirect_spec c s
      obtain ⟨b1, b2, b3, b4⟩ := ih hr (s.endDirect c) ht
      have cut : ∀ k, (s.endDirect c).output.cutFlag k = s.output.cutFlag k := fun k => by
        simp only [Output.cutFlag, a3, a4]
      have set : (s.endDirect c).settings = s.settings := by rw [a5]
      refine ⟨fun ch => ?_, b2.trans a3, b3.trans a4, ?_⟩
      · rw [b1 ch, cut, set]
        by_cases hch : ch = c
        · subst hch
          rw [if_neg (fun h => hc h.1), a1, if_pos ⟨List.mem_cons_self, hp⟩]
        · rw [a2 ch hch]
          simp only [List.mem_cons, hch, false_or]
      · rw [b4, a5]
    · rw [if_neg hp] at ht
      obtain ⟨b1, b2, b3, b4⟩ := ih hr s ht
      refine ⟨fun ch => ?_, b2, b3, b4⟩
      rw [b1 ch]
      by_cases hch : ch = c
      · subst hch
        rw [if_neg (fun h => hc h.1), if_neg (fun h => hp h.2)]
      · simp only [List.mem_cons, hch, false_or]

/-- DIRECT ends on every channel whose holder meets a condition (R172). -/
theorem State.endDirectWhere_spec (p : Link → Bool) (s : State) :
    (∀ ch : Channel, (s.endDirectWhere p).output.channels[ch] = if s.output.channels[ch].holder.any p = true then
        s.output.channels[ch].release.reform (s.output.cutFlag ch) s.settings.ranges[ch] ch
      else s.output.channels[ch]) ∧
    (s.endDirectWhere p).output.driveCut = s.output.driveCut ∧ (s.endDirectWhere p).output.broomCut = s.output.broomCut ∧
    s.endDirectWhere p = { s with output := (s.endDirectWhere p).output } := by
  obtain ⟨h1, h2, h3, h4⟩ := State.endDirect_fold p allChannels (by decide) s (s.endDirectWhere p) rfl
  generalize s.endDirectWhere p = t at *
  refine ⟨fun ch => ?_, h2, h3, h4⟩
  have hm : ch ∈ allChannels := by revert ch; decide
  rw [h1 ch]
  simp only [hm, true_and]

/-- SERVICE is left (R13). -/
theorem State.leaveService_spec (s : State) : State.LeavesService s s.leaveService := by
  obtain ⟨a1, a2, -⟩ := State.setMode_spec .transport s
  have e : s.leaveService = ((s.setMode .transport).postBoth .serviceLeft).endDirectWhere fun _ => true := rfl
  generalize s.setMode .transport = u at *
  have b := State.postBoth_settlesTo .serviceLeft u
  have ab := a1.trans b (by decide)
  generalize u.postBoth .serviceLeft = v at *
  obtain ⟨c1, c2, c3, c4⟩ := State.endDirectWhere_spec (fun _ => true) v
  rw [e]
  generalize v.endDirectWhere (fun _ => true) = t at *
  have ns : t.notices = v.notices := by rw [c4]
  have cl : t.ceiling = v.ceiling := by rw [c4]
  have vs : v.settings = s.settings := by rw [ab.rest]
  refine ⟨fun l => ?_, fun l => ?_, ?_, fun ch => ?_, fun src h1 h2 h3 => ?_, ?_, ?_⟩
  · rw [ns]; exact ab.posts _ (by decide) l
  · rw [ns]; exact ab.posts _ (by decide) l
  · rw [cl, (b.entries .mode (by decide) (by decide) (by decide)).2.1, a2]; rfl
  · have hold : v.output.channels[ch].holder = s.output.channels[ch].holder := (ab.owners ch).2.1
    have flt : v.output.channels[ch].fault = s.output.channels[ch].fault := (ab.owners ch).1
    have low : ch.val < 14 → v.output.channels[ch] = s.output.channels[ch] := ab.channels ch
    have gone : t.output.channels[ch].holder = none := by
      rw [c1 ch]; split
      · rfl
      · next h =>
        cases hh : v.output.channels[ch].holder with
        | none => rfl
        | some x => exact absurd (by rw [hh]; rfl) h
    refine ⟨gone, ?_, ?_, fun h => ⟨?_, fun hn => ?_⟩⟩
    · unfold Output.stateOf ChannelRec.stateWith
      rw [gone]
      split
      · decide
      · split
        · decide
        · split
          · next h => exact absurd h (by decide)
          · split <;> decide
    · rw [c1 ch]; split <;> exact flt
    · rw [← low h, c1 ch]; split <;> rfl
    · rw [c1 ch, hold, hn]; exact low h
  · have := ab.entries src (by simpa using h1) h2 h3
    rw [cl]; exact this
  · rw [ns, ab.alarms]
  · rw [c4, ab.rest]

end Sys2Proof.Machine
end

