-- ==== Sys2Proof/Laws/Travel.lean ====
section
/-! SUPPORT. What distance ticks do (R45, R112, R122, R123), said once as `State.TicksTaken` for any number of them, and what
forming ground speed does (R40, R41, R187). -/

namespace Sys2Proof.Machine

/-! ### One bar's share of a tick (R122, R123) -/

/-- The tally of shortfall after one bar's share, from a bar's remainder and what its owed water exceeds the cap by. -/
theorem State.barTick_spec (b : Bar) (s : State) (hr : (s.spray.bar b).shortfallRem < 1000)
    (ht : s.bank.tallies[Tally.index .shortfall] ≤ 16777215) (t : State)
    (e : s.barTick b = t) :
    t.spray.bar b = (if (s.spray.bar b).active = true then { s.spray.bar b with
        owed := min (owedCap s.program (s.settings.spray.flow b)) (s.owedWith b 1)
        shortfallRem := ((s.spray.bar b).shortfallRem + s.shortOf b 1) % 1000 } else s.spray.bar b) ∧
    (∀ k, k ≠ b → t.spray.bar k = s.spray.bar k) ∧
    t.bank.tallies[Tally.index .shortfall] = min 16777215
      (s.bank.tallies[Tally.index .shortfall] + ((s.spray.bar b).shortfallRem + s.shortOf b 1) / 1000) ∧
    (∀ x : Tally, x ≠ .shortfall → t.bank.tallies[x.index] = s.bank.tallies[x.index]) ∧
    t.spray.tank = s.spray.tank ∧
    t = { s with
      spray := t.spray, bank := { s.bank with tallies := t.bank.tallies } } := by
  subst e
  unfold State.barTick
  split
  · next ha =>
    have hw : s.owedWith b 1 = (s.spray.bar b).owed + (effectiveDose s.spray.tank s.program b).getD 0 := by
      simp only [State.owedWith, Nat.one_mul]
    have hs : s.shortOf b 1 = s.owedWith b 1 - owedCap s.program (s.settings.spray.flow b) := by
      simp [State.shortOf, ha]
    simp only [hs, hw]
    set d := (effectiveDose s.spray.tank s.program b).getD 0
    set u := s.modBar b fun x => { x with owed := x.owed + d } with hu
    have ub : u.spray.bar b = { s.spray.bar b with owed := (s.spray.bar b).owed + d } := Spray.modBar_same _ _ _
    have uo : ∀ k, k ≠ b → u.spray.bar k = s.spray.bar k := fun k hk => Spray.modBar_other hk _ _
    have uc : owedCap u.program (u.settings.spray.flow b) = owedCap s.program (s.settings.spray.flow b) := rfl
    have utank : u.spray.tank = s.spray.tank := (Spray.modBar_rest b _ s.spray).2.2.2.1
    unfold State.holdOwed
    dsimp only
    rw [uc]
    set c := owedCap s.program (s.settings.spray.flow b)
    rw [ub]
    dsimp only
    split
    · next hx =>
      have hx : c < (s.spray.bar b).owed + d := by simpa [ha] using hx
      set q := (s.spray.bar b).owed + d - c with hq
      have n1 := State.bumpBy_tallies .shortfall (((s.spray.bar b).shortfallRem + q) / 1000)
        (u.modBar b fun x => { x with shortfallRem := ((s.spray.bar b).shortfallRem + q) % 1000 })
      have bars : ∀ k, ((u.addShortfall b q).modBar b fun x => { x with owed := c }).spray.bar k =
          if k = b then { s.spray.bar k with
            owed := c, shortfallRem := ((s.spray.bar b).shortfallRem + q) % 1000 } else s.spray.bar k := by
        intro k
        simp only [State.addShortfall, State.modBar, State.modSpray_spray, State.bumpBy_frame]
        by_cases hk : k = b
        · subst hk; rw [Spray.modBar_same, Spray.modBar_same, if_pos rfl, ub]
        · rw [Spray.modBar_other hk, Spray.modBar_other hk, if_neg hk, uo k hk]
      have rem : (u.spray.bar b).shortfallRem = (s.spray.bar b).shortfallRem := by rw [ub]
      refine ⟨?_, fun k hk => by rw [bars, if_neg hk], ?_, fun x hx => ?_, ?_, rfl⟩
      · rw [bars, if_pos rfl, Nat.min_eq_left (by omega)]
      · have := n1.1
        rw [← rem] at this ⊢
        exact this
      · have := n1.2 x hx
        rw [← rem] at this
        exact this
      · exact (Spray.modBar_rest b _ _).2.2.2.1.trans ((Spray.modBar_rest b _ _).2.2.2.1.trans utank)
    · next hx =>
      have hx : (s.spray.bar b).owed + d ≤ c := by simpa [ha] using hx
      rw [Nat.sub_eq_zero_of_le hx, Nat.add_zero, Nat.mod_eq_of_lt hr, Nat.div_eq_of_lt hr, Nat.add_zero,
        Nat.min_eq_right ht]
      refine ⟨?_, uo, rfl, fun _ _ => rfl, utank, rfl⟩
      rw [ub, Nat.min_eq_right hx]
  · next ha =>
    have hs : s.shortOf b 1 = 0 := by simp [State.shortOf, ha]
    simp only [hs, Nat.add_zero, Nat.div_eq_of_lt hr, Nat.min_eq_right ht]
    simp

/-- What the shares of the other bars leave of a bar's own. -/
theorem State.owedWith_congr {s t : State} {b : Bar} (hb : t.spray.bar b = s.spray.bar b)
    (ht : t.spray.tank = s.spray.tank) (hr : t.unit = s.unit ∧ t.settings = s.settings) (n : Nat) :
    t.owedWith b n = s.owedWith b n ∧ t.shortOf b n = s.shortOf b n ∧
    owedCap t.program (t.settings.spray.flow b) = owedCap s.program (s.settings.spray.flow b) := by
  have hp : t.program = s.program := by simp only [State.program, State.inForce, hr.1]
  have h1 : t.owedWith b n = s.owedWith b n := by simp only [State.owedWith, hb, ht, hp]
  exact ⟨h1, by simp only [State.shortOf, h1, hb, hp, hr.2], by rw [hp, hr.2]⟩

/-- A distance tick at the Spray Controller (R122, R123). -/
theorem State.sprayTick_spec (s : State) (hr : ∀ b, (s.spray.bar b).shortfallRem < 1000)
    (ht : s.bank.tallies[Tally.index .shortfall] ≤ 16777215) (w : State) (e : s.sprayTick = w) :
    (∀ b, w.spray.bar b = (if (s.spray.bar b).active = true then { s.spray.bar b with
        owed := min (owedCap s.program (s.settings.spray.flow b)) (s.owedWith b 1)
        shortfallRem := ((s.spray.bar b).shortfallRem + s.shortOf b 1) % 1000 } else s.spray.bar b)) ∧
    w.bank.tallies[Tally.index .shortfall] = min 16777215 (s.bank.tallies[Tally.index .shortfall] +
      (((s.spray.bar .left).shortfallRem + s.shortOf .left 1) / 1000 +
        ((s.spray.bar .right).shortfallRem + s.shortOf .right 1) / 1000 +
        ((s.spray.bar .main).shortfallRem + s.shortOf .main 1) / 1000)) ∧
    (∀ x : Tally, x ≠ .shortfall → w.bank.tallies[x.index] = s.bank.tallies[x.index]) ∧
    w.spray.tank = s.spray.tank ∧
    w = { s with
      spray := w.spray, bank := { s.bank with tallies := w.bank.tallies } } := by
  simp only [State.sprayTick, Bar.all, List.foldl] at e
  obtain ⟨t, et⟩ : ∃ t, s.barTick .left = t := ⟨_, rfl⟩
  obtain ⟨v, ev⟩ : ∃ v, t.barTick .right = v := ⟨_, rfl⟩
  rw [et, ev] at e
  obtain ⟨a1, a2, a3, a4, a5, a6⟩ := State.barTick_spec .left s (hr _) ht t et
  have tr : ∀ k, k ≠ .left → (t.spray.bar k).shortfallRem < 1000 := fun k hk => by rw [a2 k hk]; exact hr k
  obtain ⟨b1, b2, b3, b4, b5, b6⟩ := State.barTick_spec .right t (tr _ (by decide)) (by rw [a3]; omega) v ev
  have cR := State.owedWith_congr (s := s) (t := t) (b := .right) (a2 _ (by decide)) a5
    ⟨by rw [a6], by rw [a6]⟩ 1
  rw [a2 _ (by decide), cR.1, cR.2.1, cR.2.2] at b1
  rw [a2 _ (by decide), cR.2.1] at b3
  have vm : v.spray.bar .main = s.spray.bar .main := (b2 _ (by decide)).trans (a2 _ (by decide))
  obtain ⟨c1, c2, c3, c4, c5, c6⟩ := State.barTick_spec .main v (by rw [vm]; exact hr _) (by rw [b3]; omega) w e
  have cM := State.owedWith_congr (s := s) (t := v) (b := .main) vm (b5.trans a5)
    ⟨by rw [b6, a6], by rw [b6, a6]⟩ 1
  rw [vm, cM.1, cM.2.1, cM.2.2] at c1
  rw [vm, cM.2.1] at c3
  refine ⟨fun b => ?_, ?_, fun x hx => ?_, c5.trans (b5.trans a5), ?_⟩
  · cases b
    · rw [c2 _ (by decide), b2 _ (by decide)]; exact a1
    · rw [c2 _ (by decide)]; exact b1
    · exact c1
  · rw [c3, b3, a3]; omega
  · rw [c4 x hx, b4 x hx, a4 x hx]
  · rw [c6, b6, a6]

/-! ### One arm's share of a tick (R112) -/

@[simp] theorem TallyBank.swept_setSwept (a : Arm) (n : Nat) (b : TallyBank) : (b.setSwept a n).swept a = n := by
  cases a <;> rfl

theorem TallyBank.swept_setSwept_other {a k : Arm} (h : k ≠ a) (n : Nat) (b : TallyBank) :
    (b.setSwept a n).swept k = b.swept k := by cases a <;> cases k <;> first | rfl | exact absurd rfl h

/-- A distance tick at the Tally Bank for one arm (R112). -/
theorem State.sweptTick_spec (a : Arm) (s : State) (hs : s.bank.swept a < 100)
    (ht : s.bank.tallies[Tally.index (.swept a)] ≤ 16777215) (t : State)
    (e : s.sweptTick a = t) :
    (armSweeps a (s.arm a).state = true → t.bank.swept a = (s.bank.swept a + 1) % 100 ∧
      t.bank.tallies[Tally.index (.swept a)] =
        min 16777215 (s.bank.tallies[Tally.index (.swept a)] + (s.bank.swept a + 1) / 100)) ∧
    (armSweeps a (s.arm a).state = false → t = s) ∧
    (∀ k, k ≠ a → t.bank.swept k = s.bank.swept k) ∧
    (∀ x : Tally, x ≠ .swept a → t.bank.tallies[x.index] = s.bank.tallies[x.index]) ∧
    t = { s with bank := { s.bank with
      tallies := t.bank.tallies, sweptLeft := t.bank.sweptLeft
      sweptRight := t.bank.sweptRight, sweptMain := t.bank.sweptMain } } := by
  subst e
  unfold State.sweptTick
  split
  · next ha =>
    split
    · next h =>
      have n := State.bumpBy_tallies (.swept a) 1 (s.modBank (TallyBank.setSwept a 0))
      have hb : ∀ k, ((s.modBank (TallyBank.setSwept a 0)).bump (.swept a)).bank.swept k =
          (s.bank.setSwept a 0).swept k := fun k => by cases k <;> rfl
      have tl : (s.modBank (TallyBank.setSwept a 0)).bank.tallies = s.bank.tallies := by cases a <;> rfl
      have e2 : (s.bank.swept a + 1) % 100 = 0 ∧ (s.bank.swept a + 1) / 100 = 1 := by omega
      refine ⟨fun _ => ⟨?_, ?_⟩, fun hn => ?_, fun k hk => ?_, fun x hx => ?_, ?_⟩
      · rw [hb, TallyBank.swept_setSwept, e2.1]
      · rw [e2.2]; have := n.1; rw [tl] at this; exact this
      · rw [ha] at hn; exact absurd hn (by decide)
      · rw [hb, TallyBank.swept_setSwept_other hk]
      · have := n.2 x hx; rw [tl] at this; exact this
      · cases a <;> rfl
    · next h =>
      have e2 : (s.bank.swept a + 1) % 100 = s.bank.swept a + 1 ∧ (s.bank.swept a + 1) / 100 = 0 := by omega
      refine ⟨fun _ => ⟨?_, ?_⟩, fun hn => ?_, fun k hk => TallyBank.swept_setSwept_other hk _ _, fun x hx => ?_, ?_⟩
      · rw [State.modBank_bank, TallyBank.swept_setSwept, e2.1]
      · have tl : (s.modBank fun b => b.setSwept a (b.swept a + 1)).bank.tallies = s.bank.tallies := by cases a <;> rfl
        simp only [e2.2, Nat.add_zero, Nat.min_eq_right ht, tl]
      · rw [ha] at hn; exact absurd hn (by decide)
      · cases a <;> rfl
      · cases a <;> rfl
  · next ha =>
    exact ⟨fun h => absurd h ha, fun _ => rfl, fun _ _ => rfl, fun _ _ => rfl, rfl⟩

/-- The swept distances of the three arms at a tick. -/
theorem State.sweptTicks_spec (s : State) (hs : ∀ a, s.bank.swept a < 100)
    (ht : ∀ a, s.bank.tallies[Tally.index (.swept a)] ≤ 16777215) (t : State)
    (e : Arm.all.foldl State.sweptTick s = t) :
    (∀ a, armSweeps a (s.arm a).state = true → t.bank.swept a = (s.bank.swept a + 1) % 100 ∧
      t.bank.tallies[Tally.index (.swept a)] =
        min 16777215 (s.bank.tallies[Tally.index (.swept a)] + (s.bank.swept a + 1) / 100)) ∧
    (∀ a, armSweeps a (s.arm a).state = false → t.bank.swept a = s.bank.swept a ∧
      t.bank.tallies[Tally.index (.swept a)] = s.bank.tallies[Tally.index (.swept a)]) ∧
    (∀ x : Tally, (∀ a, x ≠ .swept a) → t.bank.tallies[x.index] = s.bank.tallies[x.index]) ∧
    t = { s with bank := { s.bank with
      tallies := t.bank.tallies, sweptLeft := t.bank.sweptLeft, sweptRight := t.bank.sweptRight
      sweptMain := t.bank.sweptMain } } := by
  simp only [Arm.all, List.foldl] at e
  obtain ⟨u, eu⟩ : ∃ u, s.sweptTick .left = u := ⟨_, rfl⟩
  obtain ⟨v, ev⟩ : ∃ v, u.sweptTick .right = v := ⟨_, rfl⟩
  rw [eu, ev] at e
  obtain ⟨a1, a2, a3, a4, a5⟩ := State.sweptTick_spec .left s (hs _) (ht _) u eu
  have uarm : ∀ k, u.arm k = s.arm k := fun k => by rw [a5]; rfl
  obtain ⟨b1, b2, b3, b4, b5⟩ := State.sweptTick_spec .right u (by rw [a3 _ (by decide)]; exact hs _)
    (by rw [a4 _ (by decide)]; exact ht _) v ev
  rw [uarm, a3 _ (by decide), a4 _ (by decide)] at b1
  rw [uarm] at b2
  have varm : ∀ k, v.arm k = s.arm k := fun k => by rw [b5]; exact uarm k
  obtain ⟨c1, c2, c3, c4, c5⟩ := State.sweptTick_spec .main v
    (by rw [b3 _ (by decide), a3 _ (by decide)]; exact hs _)
    (by rw [b4 _ (by decide), a4 _ (by decide)]; exact ht _) t e
  rw [varm, b3 _ (by decide), a3 _ (by decide), b4 _ (by decide), a4 _ (by decide)] at c1
  rw [varm] at c2
  refine ⟨fun a ha => ?_, fun a ha => ?_, fun x hx => ?_, ?_⟩
  · cases a
    · rw [c3 _ (by decide), b3 _ (by decide), c4 _ (by decide), b4 _ (by decide)]; exact a1 ha
    · rw [c3 _ (by decide), c4 _ (by decide)]; exact b1 ha
    · exact c1 ha
  · cases a
    · rw [c3 _ (by decide), b3 _ (by decide), c4 _ (by decide), b4 _ (by decide), a2 ha]; exact ⟨rfl, rfl⟩
    · rw [c3 _ (by decide), c4 _ (by decide), b2 ha]; exact ⟨a3 _ (by decide), a4 _ (by decide)⟩
    · rw [c2 ha]
      exact ⟨(b3 _ (by decide)).trans (a3 _ (by decide)), (b4 _ (by decide)).trans (a4 _ (by decide))⟩
  · rw [c4 x (hx _), b4 x (hx _), a4 x (hx _)]
  · rw [c5, b5, a5]

/-! ### Ticks (R45) -/

/-- One distance tick. -/
theorem State.tick_spec (s : State) (h : s.CountLaw) :
    State.TicksTaken 1 s s.tick ∧ s.tick.spray.tank = s.spray.tank ∧
    (∀ x : Tally, x ≠ .shortfall → (∀ a, x ≠ .swept a) → s.tick.bank.tallies[x.index] = s.bank.tallies[x.index]) ∧
    s.tick = { s with
      spray := s.tick.spray
      bank := { s.bank with
        tallies := s.tick.bank.tallies, sweptLeft := s.tick.bank.sweptLeft, sweptRight := s.tick.bank.sweptRight
        sweptMain := s.tick.bank.sweptMain }
      travel := { s.travel with
        tickCount := s.tick.travel.tickCount, metreRem := s.tick.travel.metreRem, odometer := s.tick.travel.odometer } } := by
  obtain ⟨-, h2, h3, h4, h5, -⟩ := h
  obtain ⟨u, eu⟩ : ∃ u, s.sprayTick = u := ⟨_, rfl⟩
  obtain ⟨v, ev⟩ : ∃ v, Arm.all.foldl State.sweptTick u = v := ⟨_, rfl⟩
  obtain ⟨a1, a2, a3, a4, a5⟩ := State.sprayTick_spec s (fun b => (h4 b).1) (h5 .shortfall) u eu
  have e : s.tick = v.modTravel Travel.countTick := by rw [← ev, ← eu]; rfl
  have ub : u.bank.swept = s.bank.swept := by rw [a5]; funext a; cases a <;> rfl
  have ua : ∀ a, u.arm a = s.arm a := fun a => by rw [a5]; rfl
  have ut : ∀ a, u.bank.tallies[Tally.index (.swept a)] = s.bank.tallies[Tally.index (.swept a)] := fun a => a3 _ (by simp)
  obtain ⟨b1, b2, b3, b4⟩ := State.sweptTicks_spec u (fun a => by rw [ub]; exact h3 a)
    (fun a => by rw [ut]; exact h5 (.swept a)) v ev
  have vtr : v.travel = s.travel := by rw [b4, a5]
  have tb : s.tick.bank = v.bank := by rw [e]; rfl
  have ts : s.tick.spray = u.spray := by rw [e]; show v.spray = _; rw [b4]
  have tt : s.tick.travel = s.travel.countTick := by rw [e]; show v.travel.countTick = _; rw [vtr]
  have ct : s.travel.countTick = { s.travel with
      tickCount := s.travel.tickCount + BitVec.ofNat 16 1, metreRem := (s.travel.metreRem + 1) % 100
      odometer := s.travel.odometer + BitVec.ofNat 32 ((s.travel.metreRem + 1) / 100) } := by
    unfold Travel.countTick
    split
    · have : (s.travel.metreRem + 1) % 100 = 0 ∧ (s.travel.metreRem + 1) / 100 = 1 := by omega
      rw [this.1, this.2]; rfl
    · have : (s.travel.metreRem + 1) % 100 = s.travel.metreRem + 1 ∧ (s.travel.metreRem + 1) / 100 = 0 := by omega
      rw [this.1, this.2]; simp
  refine ⟨⟨?_, fun a ha => ?_, fun a ha => ?_, fun b hb => ?_, fun b hb _ => ?_, ?_⟩, by rw [ts]; exact a4,
    fun x h1 h6 => ?_, ?_⟩
  · rw [tt, ct]; exact ⟨rfl, rfl, rfl⟩
  · rw [tb, ← ub, ← ut]; exact b1 a (by rw [ua]; exact ha)
  · rw [tb, ← ub, ← ut]; exact b2 a (by rw [ua]; exact ha)
  · rcases hb with hb | hb
    · rw [ts, a1, if_neg (by rw [hb]; decide)]
    · exact absurd hb (by decide)
  · rw [ts, a1, if_pos hb]
  · rw [tb, b3 .shortfall (by simp)]; exact a2
  · rw [tb, b3 x h6]; exact a3 x h1
  · have vbank : v.bank = { s.bank with tallies := v.bank.tallies, sweptLeft := v.bank.sweptLeft
                                        sweptRight := v.bank.sweptRight, sweptMain := v.bank.sweptMain } := by
      refine (congrArg State.bank b4 :).trans ?_
      show ({ u.bank with tallies := v.bank.tallies, sweptLeft := v.bank.sweptLeft, sweptRight := v.bank.sweptRight
                          sweptMain := v.bank.sweptMain } : TallyBank) = _
      rw [a5]
    have ct' : s.travel.countTick = { s.travel with
        tickCount := v.travel.countTick.tickCount, metreRem := v.travel.countTick.metreRem
        odometer := v.travel.countTick.odometer } := by rw [vtr, ct]
    rw [e]
    have g_clock : v.clock = u.clock := (congrArg State.clock b4 :)
    have h_clock : u.clock = s.clock := (congrArg State.clock a5 :)
    have g_periods : v.periods = u.periods := (congrArg State.periods b4 :)
    have h_periods : u.periods = s.periods := (congrArg State.periods a5 :)
    have g_unit : v.unit = u.unit := (congrArg State.unit b4 :)
    have h_unit : u.unit = s.unit := (congrArg State.unit a5 :)
    have g_ceiling : v.ceiling = u.ceiling := (congrArg State.ceiling b4 :)
    have h_ceiling : u.ceiling = s.ceiling := (congrArg State.ceiling a5 :)
    have g_gov : v.gov = u.gov := (congrArg State.gov b4 :)
    have h_gov : u.gov = s.gov := (congrArg State.gov a5 :)
    have g_arms : v.arms = u.arms := (congrArg State.arms b4 :)
    have h_arms : u.arms = s.arms := (congrArg State.arms a5 :)
    have g_scan : v.scan = u.scan := (congrArg State.scan b4 :)
    have h_scan : u.scan = s.scan := (congrArg State.scan a5 :)
    have g_output : v.output = u.output := (congrArg State.output b4 :)
    have h_output : u.output = s.output := (congrArg State.output a5 :)
    have g_links : v.links = u.links := (congrArg State.links b4 :)
    have h_links : u.links = s.links := (congrArg State.links a5 :)
    have g_notices : v.notices = u.notices := (congrArg State.notices b4 :)
    have h_notices : u.notices = s.notices := (congrArg State.notices a5 :)
    have g_settings : v.settings = u.settings := (congrArg State.settings b4 :)
    have h_settings : u.settings = s.settings := (congrArg State.settings a5 :)
    have g_freeCount : v.freeCount = u.freeCount := (congrArg State.freeCount b4 :)
    have h_freeCount : u.freeCount = s.freeCount := (congrArg State.freeCount a5 :)
    have g_pending : v.pending = u.pending := (congrArg State.pending b4 :)
    have h_pending : u.pending = s.pending := (congrArg State.pending a5 :)
    exact State.eq_of_fields (g_clock.trans h_clock) (g_periods.trans h_periods) (g_unit.trans h_unit) ((congrArg Travel.countTick vtr).trans ct') (g_ceiling.trans h_ceiling) (g_gov.trans h_gov)
      (g_arms.trans h_arms) rfl (g_scan.trans h_scan) (g_output.trans h_output) (g_links.trans h_links) (g_notices.trans h_notices) vbank
      (g_settings.trans h_settings) (g_freeCount.trans h_freeCount) (g_pending.trans h_pending)

/-- The counts keep their widths at a tick. -/
theorem State.tick_counts {s u : State} (h : s.CountLaw) (a : State.TicksTaken 1 s u)
    (o : ∀ x : Tally, x ≠ .shortfall → (∀ a, x ≠ .swept a) → u.bank.tallies[x.index] = s.bank.tallies[x.index])
    (e : u = { s with
      spray := u.spray
      bank := { s.bank with
        tallies := u.bank.tallies, sweptLeft := u.bank.sweptLeft, sweptRight := u.bank.sweptRight
        sweptMain := u.bank.sweptMain }
      travel := { s.travel with
        tickCount := u.travel.tickCount, metreRem := u.travel.metreRem, odometer := u.travel.odometer } }) :
    u.CountLaw := by
  obtain ⟨l1, l2, l3, l4, l5, l6, l7⟩ := h
  refine ⟨by rw [e]; exact l1, by rw [a.travel.2.1]; omega, fun k => ?_, fun k => ?_, fun x => ?_, by rw [e]; exact l6,
    by rw [e]; exact l7⟩
  · cases hk : armSweeps k (s.arm k).state
    · rw [(a.rests k hk).1]; exact l3 k
    · rw [(a.sweeps k hk).1]; omega
  · by_cases hk : (s.spray.bar k).active = true
    · rw [a.wets k hk (by decide)]
      exact ⟨Nat.mod_lt _ (by decide), (l4 k).2⟩
    · rw [a.dry k (.inl (by simpa using hk))]; exact l4 k
  · by_cases h1 : x = .shortfall
    · subst h1; rw [a.shortfall]; exact Nat.min_le_left _ _
    · by_cases h2 : ∀ k, x ≠ .swept k
      · rw [o x h1 h2]; exact l5 x
      · simp only [ne_eq, not_forall, not_not] at h2
        obtain ⟨k, rfl⟩ := h2
        cases hk : armSweeps k (s.arm k).state
        · rw [(a.rests k hk).2]; exact l5 _
        · rw [(a.sweeps k hk).2]; exact Nat.min_le_left _ _

/-- Ticks in turn add up. -/
theorem State.TicksTaken.add {n : Nat} {s u t : State} (h : s.CountLaw) (a : State.TicksTaken 1 s u)
    (ha : u.settings = s.settings ∧ u.unit = s.unit ∧ u.arms = s.arms ∧ u.spray.tank = s.spray.tank)
    (b : State.TicksTaken n u t) : State.TicksTaken (n + 1) s t := by
  obtain ⟨hs, hu, hm, ht⟩ := ha
  obtain ⟨-, l2, l3, l4, l5, -⟩ := h
  have arm : ∀ k, u.arm k = s.arm k := fun k => by simp only [State.arm, hm]
  have prog : u.program = s.program := by simp only [State.program, State.inForce, hu]
  have act : ∀ k, (u.spray.bar k).active = (s.spray.bar k).active := fun k => by
    by_cases hk : (s.spray.bar k).active = true
    · rw [a.wets k hk (by decide)]
    · rw [a.dry k (.inl (by simpa using hk))]
  have share : ∀ k, ((s.spray.bar k).shortfallRem + s.shortOf k (n + 1)) =
      ((s.spray.bar k).shortfallRem + s.shortOf k 1) + u.shortOf k n := fun k => by
    by_cases hk : (s.spray.bar k).active = true
    · simp only [State.shortOf, hk, true_and, Nat.zero_lt_succ, State.owedWith, prog, hs, ht, a.wets k hk (by decide),
        Nat.succ_mul, Nat.zero_mul, if_true]
      by_cases hn : 0 < n
      · simp only [hn, if_true]; omega
      · have : n = 0 := by omega
        subst this; simp
    · simp [State.shortOf, act, hk]
  have rem : ∀ k, (u.spray.bar k).shortfallRem = ((s.spray.bar k).shortfallRem + s.shortOf k 1) % 1000 := fun k => by
    by_cases hk : (s.spray.bar k).active = true
    · rw [a.wets k hk (by decide)]
    · rw [a.dry k (.inl (by simpa using hk))]
      have : s.shortOf k 1 = 0 := by simp [State.shortOf, hk]
      rw [this, Nat.add_zero, Nat.mod_eq_of_lt (l4 k).1]
  refine ⟨⟨?_, ?_, ?_⟩, fun k hk => ?_, fun k hk => ?_, fun k hk => ?_, fun k hk hn => ?_, ?_⟩
  · rw [b.travel.1, a.travel.1, Nat.add_comm n 1, BitVec.ofNat_add, BitVec.add_assoc]
  · rw [b.travel.2.1, a.travel.2.1]; omega
  · rw [b.travel.2.2, a.travel.2.2, a.travel.2.1, BitVec.add_assoc, ← BitVec.ofNat_add]
    congr 2; omega
  · have h1 := a.sweeps k hk
    have h2 := b.sweeps k (by rw [arm]; exact hk)
    rw [h1.1, h1.2] at h2
    exact ⟨by rw [h2.1]; omega, by rw [h2.2]; omega⟩
  · have h1 := a.rests k hk
    have h2 := b.rests k (by rw [arm]; exact hk)
    exact ⟨h2.1.trans h1.1, h2.2.trans h1.2⟩
  · have hk : (s.spray.bar k).active = false := by
      rcases hk with h | h
      · exact h
      · exact absurd h (by omega)
    rw [b.dry k (.inl (by rw [act]; exact hk)), a.dry k (.inl hk)]
  · by_cases h0 : 0 < n
    · rw [b.wets k (by rw [act]; exact hk) h0, a.wets k hk (by decide)]
      have sh := share k
      simp only [State.owedWith, a.wets k hk (by decide), prog, ht, hs]
      congr 1
      · have : (n + 1) * (effectiveDose s.spray.tank s.program k).getD 0 =
            n * (effectiveDose s.spray.tank s.program k).getD 0 + (effectiveDose s.spray.tank s.program k).getD 0 :=
          Nat.succ_mul _ _
        omega
      · rw [sh]; omega
    · have : n = 0 := by omega
      subst this
      rw [b.dry k (.inr rfl), a.wets k hk (by decide)]
  · rw [b.shortfall, a.shortfall, share, share, share, rem, rem, rem]
    omega

/-- Some distance ticks, in turn (R45): the counts, and everything else as it was. -/
theorem State.ticks_spec (n : Nat) : ∀ (s t : State), s.CountLaw → State.ticks n s = t →
    State.TicksTaken n s t ∧ t.CountLaw ∧ t.spray.tank = s.spray.tank ∧
    (∀ x : Tally, x ≠ .shortfall → (∀ a, x ≠ .swept a) → t.bank.tallies[x.index] = s.bank.tallies[x.index]) ∧
    t = { s with
      spray := t.spray
      bank := { s.bank with
        tallies := t.bank.tallies, sweptLeft := t.bank.sweptLeft, sweptRight := t.bank.sweptRight
        sweptMain := t.bank.sweptMain }
      travel := { s.travel with
        tickCount := t.travel.tickCount, metreRem := t.travel.metreRem, odometer := t.travel.odometer } } := by
  induction n with
  | zero =>
    intro s t h e
    cases e
    refine ⟨⟨?_, fun a _ => ?_, fun a _ => ⟨rfl, rfl⟩, fun b _ => rfl, fun b _ h0 => absurd h0 (by decide), ?_⟩, h, rfl,
      fun _ _ _ => rfl, rfl⟩
    · have := h.2.1
      exact ⟨by simp [State.ticks], by simp only [State.ticks]; omega, by
        simp only [State.ticks, Nat.add_zero, Nat.div_eq_of_lt this]; simp⟩
    · have h1 := h.2.2.1 a
      have h2 := h.2.2.2.2.1 (.swept a)
      have : Tally.limit (.swept a) = 16777215 := rfl
      exact ⟨by simp only [State.ticks]; omega, by simp only [State.ticks]; omega⟩
    · have h1 := fun b => (h.2.2.2.1 b).1
      have h2 := h.2.2.2.2.1 .shortfall
      have : Tally.limit .shortfall = 16777215 := rfl
      have h3 := h1 .left
      have h4 := h1 .right
      have h5 := h1 .main
      simp only [State.ticks, State.shortOf, Nat.lt_irrefl, and_false, if_false, Nat.add_zero, Nat.div_eq_of_lt h3,
        Nat.div_eq_of_lt h4, Nat.div_eq_of_lt h5]
      omega
  | succ n ih =>
    intro s t h e
    obtain ⟨u, eu⟩ : ∃ u, s.tick = u := ⟨_, rfl⟩
    have t1 := State.tick_spec s h
    rw [eu] at t1
    obtain ⟨a1, a2, a3, a4⟩ := t1
    have hu : u.CountLaw := State.tick_counts h a1 a3 a4
    rw [State.ticks, eu] at e
    obtain ⟨b1, b2, b3, b4, b5⟩ := ih u t hu e
    refine ⟨.add h a1 ⟨by rw [a4], by rw [a4], by rw [a4], a2⟩ b1, b2, b3.trans a2,
      fun x h1 h2 => (b4 x h1 h2).trans (a3 x h1 h2), ?_⟩
    rw [b5, a4]

/-! ### Ground speed, direction, the restart window and the watch (R40 to R42, R187) -/

/-- The values that ground speed and direction take are those of the wheels (R40, R41). -/
theorem Travel.formed_of (t : Travel) : ({ t with ground := t.groundOf, dir := t.dirOf } : Travel).Formed t.dir := by
  refine ⟨fun h => ?_, fun w h => ?_⟩ <;> simp only at h
  · simp only [Travel.groundOf, Travel.dirOf, h, true_and]
  · simp only [Travel.groundOf, Travel.dirOf, h]; exact ⟨by cases w <;> rfl, by cases w <;> rfl⟩

/-- The restart window and RESTART_LAPSED where the window closes as lapsed (R187). -/
theorem State.lapseWindow_follows {rises : Prop} (h : rises) (s : State) : State.WindowFollows rises s s.lapseWindow := by
  unfold State.lapseWindow
  split
  · next e => exact ⟨fun _ => rfl, fun _ a ha => by simp [e] at ha, fun _ => ⟨rfl, fun _ => ⟨rfl, rfl⟩⟩⟩
  · next w e =>
    refine ⟨fun l => ?_, fun _ a ha => ?_, fun k => ?_⟩
    · cases l <;> cases w.holder <;> rfl
    · obtain rfl : w = a := by rw [e] at ha; exact Option.some.inj ha
      have p := EventSet.post_spec .restartLapsed (s.notices.events w.holder)
      have q := State.post_events .restartLapsed w.holder
      refine ⟨?_, ?_, ?_, ?_⟩
      · rfl
      · rw [q, if_pos rfl]; exact p.1
      · rw [q, if_pos rfl]; exact p.2.1
      · rw [q, if_neg (by cases w.holder <;> decide)]; exact ⟨rfl, rfl⟩
    · rcases k with k | k
      · exact absurd h k
      · simp [e] at k

/-- Forming ground speed anew: the values formed, and the restart window, which a rise closes. -/
theorem State.formGround_spec (s : State) :
    s.formGround.travel = { s.travel with ground := s.travel.groundOf, dir := s.travel.dirOf } ∧
    s.formGround.travel.Formed s.travel.dir ∧
    State.WindowFollows (Travel.Rises s.travel s.formGround.travel) s s.formGround := by
  have ht : s.formGround.travel = { s.travel with ground := s.travel.groundOf, dir := s.travel.dirOf } := by
    simp only [State.formGround]
    split <;> simp
  refine ⟨ht, ht ▸ Travel.formed_of _, ?_⟩
  by_cases h : s.travel.groundOf ≠ s.travel.ground ∧ 0 < s.travel.groundOf
  · have e : s.formGround = ({ s with travel := s.formGround.travel } : State).lapseWindow := by
      rw [ht]; exact if_pos h
    have w := State.lapseWindow_follows (show Travel.Rises s.travel s.formGround.travel by rw [ht]; exact h)
      { s with travel := s.formGround.travel }
    rw [← e] at w
    exact w
  · have e : s.formGround = { s with travel := s.formGround.travel } := by rw [ht]; exact if_neg h
    have hl : s.formGround.links = s.links := by rw [e]
    have hn : s.formGround.notices = s.notices := by rw [e]
    have hr : ¬Travel.Rises s.travel s.formGround.travel := by rw [ht]; exact h
    exact ⟨fun l => by unfold State.link; rw [hl], fun k => absurd k hr, fun _ => ⟨hl, fun l => by rw [hn]; exact ⟨rfl, rfl⟩⟩⟩

/-- A check of the watch (R42); nothing else of the unit moves. -/
theorem State.checkWatch_spec (s : State) :
    Travel.WatchChecked s.now s.travel s.checkWatch.travel ∧
    s.checkWatch = { s with travel := { s.travel with watch := s.checkWatch.travel.watch } } := by
  unfold State.checkWatch
  split
  · next h =>
    refine ⟨⟨fun _ => rfl, fun k => ?_⟩, rfl⟩
    rw [k] at h; cases h
  · next h =>
    refine ⟨⟨fun k => absurd (Option.isSome_iff_ne_none.2 k) h, fun _ => ?_⟩, rfl⟩
    have hold : ∀ w, s.travel.watchHolds w = true ↔ (s.travel.wheel w).speed = 0 ∧ 500 < (s.travel.wheel w.other).speed := by
      intro w; simp [Travel.watchHolds]
    constructor
    · intro x hx hs
      have : s.travel.watchHolds x.wheel = true := (hold _).2 hs
      simp [State.modTravel, Travel.nextWatch, hx, Option.filter, this]
    · intro hs
      have hf : s.travel.watch.filter (fun x => s.travel.watchHolds x.wheel) = none := by
        cases hx : s.travel.watch with
        | none => rfl
        | some x =>
          have : s.travel.watchHolds x.wheel = false := by
            rw [Bool.eq_false_iff]; exact fun k => hs x hx ((hold _).1 k)
          simp [Option.filter, this]
      simp only [State.modTravel, Travel.nextWatch, hf, hold]
      rfl

end Sys2Proof.Machine
end

