-- ==== Sys2Proof/Tests/Slice0.lean ====
section
/-! SUPPORT. Tests of the model: the shapes that WellFormed refuses, frames written out byte by byte from R174 and R176, the
manual's worked examples one step at a time, and for every statement with hypotheses concrete states that meet them. The
expected values are the manual's, or computed by hand from its rules; each test names its source. -/

namespace Sys2Proof.Tests

set_option Elab.async false

open Sys2Proof Sys2Proof.Machine

/-! ### Small states -/

/-- The next state of a command, or the same state where it gives none. -/
def run (c : Instr) (s : State) : State :=
  match exec c s with
  | .next t => t
  | _ => s

/-- Requests of the two links, with no time passed since the command before. -/
def dh : Head := ⟨.drive, 7, 1, 0⟩
def bh : Head := ⟨.body, 9, 1, 0⟩

/-- Both links LIVE, in TRANSPORT, no program. -/
def live : State :=
  { State.reset with
    links := {
      drive := { State.reset.links.drive with state := .live, lastCount := some 0, timer := some 100 }
      body := { State.reset.links.body with state := .live, lastCount := some 0, timer := some 100 } }
    ceiling := { State.reset.ceiling with
      entries := (State.reset.ceiling.entries.set 11 { cap := 0 }).set 12 { cap := 800 } } }

/-- `live` with the default program, and doses on the left and main bars, active in slot 2. -/
def loaded : State :=
  { live with unit := { live.unit with
      slots := live.unit.slots.set 2 (some { doseLeft := some 150, doseMain := some 100 })
      active := some 2, boundary := some 250 } }

/-- `loaded` in SWEEP, driving forward in the work range. -/
def sweeping : State :=
  { loaded with
    unit := { loaded.unit with mode := .sweep }
    gov := { loaded.gov with setRange := .work, held := .forward, demandDir := .forward, demandMag := 1000 }
    ceiling := { loaded.ceiling with entries := loaded.ceiling.entries.set 0 { active := true, cap := 2200 } }
    scan := { loaded.scan with input3 := .forward } }

/-- `live` in SERVICE. -/
def serving : State :=
  { live with
    unit := { live.unit with mode := .service }
    ceiling := { live.ceiling with entries := live.ceiling.entries.set 0 { active := true, cap := 0 } } }

/-- A state with its clocks at a time in milliseconds. -/
def clockAt (ms : Nat) (s : State) : State :=
  { s with clock := { timebase := BitVec.ofNat 32 ms, us := BitVec.ofNat 32 (1000 * ms), frac := 0 } }

/-- A state with one arm's record changed. -/
def withArm (a : Arm) (f : ArmRec → ArmRec) (s : State) : State :=
  { s with arms := match a with
      | .left => { s.arms with left := f s.arms.left }
      | .right => { s.arms with right := f s.arms.right }
      | .main => { s.arms with main := f s.arms.main } }

/-- A state with a channel's record changed. -/
def withChannel (ch : Channel) (f : ChannelRec → ChannelRec) (s : State) : State :=
  { s with output := { s.output with channels := s.output.channels.set ch (f s.output.channels[ch]) } }

/-- A state in which the last conversion of a channel of the fast group runs. -/
def converting (ch : Fin 6) (s : State) : State :=
  { s with scan := { s.scan with fast := some ch, seq := some ⟨1, 0, 4095, 0, 0⟩, convStart := some 0 } }

/-! ### Well-formedness -/

/-- One ill-formed command for each check: a part above 7, a value of another width than its field's, an open timer of a
channel that has none, a carrier of a channel that has none. -/
theorem test_wellFormed_refuses :
    ([.readStatusTravel dh 8, .readStatusCeilingSummary dh 8, .readStatusGovernor dh 8, .readStatusArms dh 8,
      .readStatusSpray dh 8, .readStatusTankAndPump dh 8, .readStatusLinks dh 8, .readStatusModeAndProgram dh 8,
      .readCeilingEntry dh 0 8, .readChannel dh 0 8, .readScan dh 0 8, .readProgram dh 0 0 8, .readSetting dh 1 0 0 8,
      .readAlarm dh 0 8, .readEvents dh 8, .readSnapshot dh 0 255,
      .writeField bh 1 0 (.word 0), .writeField bh 14 0 (.word 0), .writeField bh 16 0 (.label (Vector.replicate 8 32)),
      .writeField bh 7 0 (.point 0 0), .writeField bh 2 0 (.label (Vector.replicate 8 32)),
      .openTimerExpiry 0 2, .openTimerExpiry 0 14, .ditherPartEnd 0 3, .ditherPartEnd 0 17] : List Instr).all
      (fun i => !i.wellFormed) = true := by decide

/-- The boundary values that each check takes. -/
theorem test_wellFormed_takes :
    ([.readStatusTravel dh 7, .readSnapshot dh 0 0, .writeField bh 1 0 (.label (Vector.replicate 8 32)),
      .writeField bh 16 5 (.point 4000 1000), .writeField bh 21 0 (.word 0), .openTimerExpiry 0 0, .openTimerExpiry 0 15,
      .ditherPartEnd 0 13, .null dh] : List Instr).all (fun i => i.wellFormed) = true := by decide

/-! ### Frames (R174, R176, R178, R179), the CRC computed by hand from R176 -/

/-- WRITE_SETTING of group 2, index 0, item 3 to 900; WRITE_FIELD 14, place 2, to (3000, 1000); WRITE_FIELD 1 to "SWEEPER ";
DRIVE_DEMAND reverse 400. -/
theorem test_frames_of_writes :
    readFrame 0 .drive [0x07, 0x21, 0x02, 0x00, 0x03, 0x84, 0x03, 0, 0, 0, 0, 0, 0, 0, 0x05, 0x36] =
      .writeSetting ⟨.drive, 0x21, 5, 0⟩ 2 0 3 900 ∧
    readFrame 0 .body [0x0D, 0x22, 0x0E, 0x02, 0xB8, 0x0B, 0xE8, 0x03, 0, 0, 0, 0, 0, 0, 0x06, 0x7D] =
      .writeField ⟨.body, 0x22, 6, 0⟩ 14 2 (.point 3000 1000) ∧
    readFrame 0 .body [0x0D, 0x23, 0x01, 0x00, 0x53, 0x57, 0x45, 0x45, 0x50, 0x45, 0x52, 0x20, 0, 0, 0x07, 0x47] =
      .writeField ⟨.body, 0x23, 7, 0⟩ 1 0 (.label #v[83, 87, 69, 69, 80, 69, 82, 32]) ∧
    readFrame 0 .drive [0x12, 0x24, 0x02, 0x90, 0x01, 0, 0, 0, 0, 0, 0, 0, 0, 0, 0x08, 0x7C] =
      .driveDemand ⟨.drive, 0x24, 8, 0⟩ 2 400 := by decide +kernel

/-- NULL; READ_PROGRAM of the staging record, page 3, part 7; ACK_EVENTS of kinds 3 to 5; a kind of 255; READ_STATUS with
selector 255. Bytes after the sixteenth are ignored (R175). -/
theorem test_frames_of_reads :
    readFrame 0 .drive [0, 0, 0, 0, 0, 0, 0, 0, 0, 0, 0, 0, 0, 0, 0, 0x90] = .null ⟨.drive, 0, 0, 0⟩ ∧
    readFrame 0 .drive [0x05, 0x25, 0x08, 0x03, 0, 0, 0, 0, 0, 0, 0, 0, 0, 0x07, 0x09, 0x7C, 0xAA] =
      .readProgram ⟨.drive, 0x25, 9, 0⟩ 8 3 7 ∧
    readFrame 0 .body [0x1F, 0x28, 0x38, 0, 0, 0, 0, 0, 0, 0, 0, 0, 0, 0, 0x0C, 0x90] = .ackEvents ⟨.body, 0x28, 12, 0⟩ 56 ∧
    readFrame 0 .drive [0xFF, 0x26, 0, 0, 0, 0, 0, 0, 0, 0, 0, 0, 0, 0, 0x0A, 0x92] =
      .unknownRequestKind ⟨.drive, 0x26, 10, 0⟩ (.kind 218) ∧
    readFrame 0 .drive [0x01, 0x27, 0xFF, 0, 0, 0, 0, 0, 0, 0, 0, 0, 0, 0, 0x0B, 0x87] =
      .unknownRequestKind ⟨.drive, 0x27, 11, 0⟩ (.selector 247) := by decide +kernel

/-- The queue (the row's cut): the front command runs on the state with the rest. -/
theorem test_step_takes_front :
    step { live with pending := [.sweepSecond 0, .null dh] } = exec (.sweepSecond 0) { live with pending := [.null dh] } := rfl

/-- No row of the opcode table gives bits, so no word spells a command. -/
theorem test_no_row_has_bits : decodeTableWord 8 0 = none ∧ State.reset.withFetchWord 8 0 = State.reset := ⟨rfl, rfl⟩

/-! ### The manual's worked examples, one step each -/

/-- Section 2.3, spin on wet leaves: four periods of 12500, then one of 9000, give 1075 mm/s, a spin test of 8333 and slip
hold for 2000 ms. -/
def rolling : State :=
  clockAt 5000 { loaded with travel := { loaded.travel with
    left := { loaded.travel.left with
      history := [12500, 12500, 12500, 12500], lastEdge := some 4991000, lastEdgeTime := some 4991
      edgeSpeed := some 1000, speed := 1000, movingSince := some 1000, timeout := some 5791 }
    right := { loaded.travel.right with
      history := [12500, 12500, 12500, 12500], lastEdge := some 4995000, lastEdgeTime := some 4995
      edgeSpeed := some 1000, speed := 1000, movingSince := some 1000, timeout := some 5795 }
    ground := 1000 } }

theorem test_spin_on_wet_leaves :
    (let t := run (.wheelEdge 0 .left .forward) rolling
     t.travel.left.speed = 1075 ∧ t.travel.left.accel = 8333 ∧ t.travel.slipHold = some 7000 ∧ t.travel.ground = 1000 ∧
     (t.ceiling.entry .traction).active = true) := by decide +kernel

/-- R30: an edge 100 µs after the last is accepted and one 99 µs after is not. -/
theorem test_edge_acceptance :
    (run (.wheelEdge 99 .left .forward) (run (.wheelEdge 0 .left .forward) rolling)).travel.left.history =
      [12500, 12500, 12500, 9000] ∧
    (run (.wheelEdge 100 .left .forward) (run (.wheelEdge 0 .left .forward) rolling)).travel.left.history =
      [12500, 12500, 9000, 100] := by decide +kernel

/-- Section 4.7: at a reference of 2200 in the work range the current is 1096, and 640 in the transport range. -/
theorem test_current_on_the_line :
    (run (.drivePeriodExpiry 10000) { sweeping with
        gov := { sweeping.gov with vRef := 2200 }, travel := { sweeping.travel with ground := 2200 } }).output.channels[
      (0 : Channel)].setpoint = 1096 ∧
    (run (.drivePeriodExpiry 10000) { sweeping with
        gov := { sweeping.gov with vRef := 2200, setRange := .transport }
        travel := { sweeping.travel with ground := 2200 } }).gov.coil = 640 := by decide +kernel

/-- Section 4.7: a shortfall of 150 adds 3 to the trim, a difference of 30 nothing. -/
theorem test_trim_on_a_climb :
    (run (.drivePeriodExpiry 10000) { loaded with
        gov := { loaded.gov with vRef := 3450, held := .forward, demandDir := .forward, demandMag := 500 }
        travel := { loaded.travel with ground := 3300 } }).gov.coil = 808 ∧
    (run (.drivePeriodExpiry 10000) { loaded with
        gov := { loaded.gov with vRef := 3450, trim := 30, held := .forward, demandDir := .forward, demandMag := 500 }
        travel := { loaded.travel with ground := 3420 } }).gov.trim = 30 := by decide +kernel

/-- Section 4.6: an urgent stop takes the stop step of 30, a normal fall the program's step of 12. -/
theorem test_ramp_steps :
    (run (.drivePeriodExpiry 10000) { sweeping with
        gov := { sweeping.gov with vRef := 1400 }
        ceiling := { sweeping.ceiling with entries := sweeping.ceiling.entries.set 11 { active := true, cap := 0 } } }
      ).gov.vRef = 1370 ∧
    (run (.drivePeriodExpiry 10000) { sweeping with
        gov := { sweeping.gov with vRef := 1400, demandMag := 0 } }).gov.vRef = 1388 := by decide +kernel

/-- Section 4.8: at standstill the switch comes at the first expiry, with 300 ms of settling. -/
theorem test_range_shift_at_standstill :
    (let t := run (.drivePeriodExpiry 7000) (clockAt 50003 { loaded with
        gov := { loaded.gov with requested := some .work, shift := .waiting }, periods := { loaded.periods with drive := 50010 } })
     t.gov.settle = some 50310 ∧ t.gov.setRange = .work ∧ t.output.channels[(2 : Channel)].setpoint = 1) := by decide +kernel

/-- Section 4.9: a detection of comparator 3 with its cut on stops the reference and the coils and raises DRIVE_STALL. -/
theorem test_cut_on_a_kerb :
    (let s := converting 0 { sweeping with
        gov := { sweeping.gov with vRef := 1500, trim := 12 }
        settings := { sweeping.settings with comps := sweeping.settings.comps.set 3 ⟨.above, 0, 3800, 8, true⟩ }
        scan := { sweeping.scan with comps := sweeping.scan.comps.set 3 ⟨false, 7⟩ } }
     let t := run (.conversionEnd 10 4095) s
     t.gov.vRef = 0 ∧ t.gov.trim = 0 ∧ t.output.driveCut = true ∧ t.gov.cutSeen = true ∧
     t.notices.alarms.map (fun a => (a.code, a.detail, a.present)) = [(.driveStall, 0, true)]) := by decide +kernel

/-- Section 5.2: the curve (0, 300), (1500, 900), (3000, 600) gives 800 at 2003, where a floor would give 799. -/
theorem test_rotation_figures :
    (let c : Curve := ⟨3, #v[⟨0, 300⟩, ⟨1500, 900⟩, ⟨3000, 600⟩, ⟨0, 0⟩, ⟨0, 0⟩, ⟨0, 0⟩]⟩
     c.at 2000 = 800 ∧ c.at 2003 = 800 ∧ Program.default.side.at 800 = 500 ∧ Program.default.side.at 2500 = 800 ∧
     Program.default.main.at 1200 = 700) := by decide +kernel

/-- Section 5.4: the third strike within the window raises the arm, with STRIKE_REPEAT raised and made absent; at 35100 the
oldest entry would be removed and the arm would yield. -/
def thirdStrike (ms : Nat) : State :=
  clockAt ms (converting 2 (withArm .left (fun r => { r with state := .working, strikes := [30005, 32410] })
    { sweeping with scan := { sweeping.scan with comps := sweeping.scan.comps.set 0 ⟨false, 3⟩ } }))

theorem test_three_strikes :
    (let t := run (.conversionEnd 10 4095) (thirdStrike 34860)
     t.arms.left.state = .raising ∧ t.arms.left.timer = some 36360 ∧ t.arms.left.strikes = [] ∧
     t.notices.alarms.map (fun a => (a.code, a.detail, a.present)) = [(.strikeRepeat, 0, false)]) ∧
    (let t := run (.conversionEnd 10 4095) (thirdStrike 35100)
     t.arms.left.state = .yielding ∧ t.arms.left.timer = some 35400 ∧ t.arms.left.strikes = [32410, 35100]) := by
  decide +kernel

/-- Section 5.5: the third jam within the window locks the broom. -/
theorem test_jam_locks :
    (let s := clockAt 74000 (converting 4 (withArm .main (fun r => { r with state := .working, strikes := [50003, 61000] })
        { sweeping with
          settings := { sweeping.settings with comps := sweeping.settings.comps.set 2 ⟨.above, 0, 2200, 6, true⟩ }
          scan := { sweeping.scan with comps := sweeping.scan.comps.set 2 ⟨false, 5⟩ } }))
     let t := run (.conversionEnd 10 4095) s
     t.arms.main.state = .jammed ∧ t.arms.lock = true ∧ t.arms.main.strikes = [] ∧ t.output.broomCut = true ∧
     t.notices.alarms.map (fun a => (a.code, a.present)) = [(.jamRepeat, true)]) := by decide +kernel

/-- R88, R105: a cut that is seen while the broom is LOWERING posts a motor setpoint of 0 at once, and the next arm period
expiries keep it there while the comparator detects. -/
theorem test_cut_while_lowering :
    (let s := converting 4 (withChannel 13 (fun c => { c with setpoint := 700 })
        (withArm .main (fun r => { r with state := .lowering, timer := some 1500, rot := 700 })
          { sweeping with
            settings := { sweeping.settings with comps := sweeping.settings.comps.set 2 ⟨.above, 0, 2200, 6, true⟩ }
            scan := { sweeping.scan with comps := sweeping.scan.comps.set 2 ⟨false, 5⟩ } }))
     let t := run (.conversionEnd 10 4095) s
     t.arms.cutSeen = true ∧ t.arms.main.state = .lowering ∧ t.output.channels[(13 : Channel)].setpoint = 0 ∧
     t.arms.main.rot = 0 ∧ t.output.stateOf 13 = .cut ∧ t.BroomCutLaw ∧
     (run (.armPeriodExpiry 20000) t).output.channels[(13 : Channel)].setpoint = 0) := by
  unfold State.BroomCutLaw; decide +kernel

/-- `sweeping` with the left arm WORKING and the left bar active with some owed water. -/
def spraying (owed : Nat) : State :=
  withArm .left (fun r => { r with state := .working }) { sweeping with spray := { sweeping.spray with
    left := { sweeping.spray.left with enable := true, active := true, owed := owed }, duty := 400 } }

/-- Section 6.5: with 3750 owed a pulse of 220 ms leaves 10; with 8160 a pulse of 240 ms, saturated, leaves 4080. -/
theorem test_metering :
    (let b := (run (.cycleBoundary 250000) (spraying 3750)).spray.left
     b.lastPulse = 220 ∧ b.owed = 10 ∧ b.saturated = false ∧ b.pulseEnd = some 470) ∧
    (let b := (run (.cycleBoundary 250000) (spraying 8160)).spray.left
     b.lastPulse = 240 ∧ b.owed = 4080 ∧ b.saturated = true) := by decide +kernel

/-- `spraying` with a fresh line pressure. -/
def pumping (pressure : Int) (duty dry : Nat) : State :=
  { spraying 0 with
    spray := { (spraying 0).spray with duty := duty, dryCount := dry }
    scan := { sweeping.scan with results := sweeping.scan.results.set 5 { value := pressure, stale := false } } }

/-- Section 6.7, the pump loop: 19 steps the duty up, 28 lies in the band, 34 steps it down; the 30th dry expiry sets the
latch. -/
theorem test_pump_loop :
    (run (.sprayPumpPeriodExpiry 100000) (pumping 19 400 0)).spray.duty = 420 ∧
    (run (.sprayPumpPeriodExpiry 100000) (pumping 28 440 0)).spray.duty = 440 ∧
    (run (.sprayPumpPeriodExpiry 100000) (pumping 34 440 0)).spray.duty = 420 ∧
    (run (.sprayPumpPeriodExpiry 100000) (pumping 6 1000 28)).spray.latch = false ∧
    (run (.sprayPumpPeriodExpiry 100000) (pumping 6 1000 29)).spray.latch = true := by decide +kernel

/-- A state in which the reference of a slow pass ends its last conversion. -/
def checking (s : State) : State :=
  { s with scan := { s.scan with slow := some ⟨.reference, .converting⟩, seq := some ⟨1, 0, 4095, 0, 0⟩, convStart := some 0 } }

/-- Section 7.6, a drifting mid reference: the second failure in a row begins a fault with detail 1; the sixth pass in a row
ends it. -/
theorem test_drifting_reference :
    (let t := run (.conversionEnd 10 2093) (checking { loaded with
        scan := { loaded.scan with nextRef := .mid, passRun := 2, mid := { loaded.scan.mid with fail := true } } })
     t.scan.fault = true ∧ t.scan.causes = #v[false, true, false, false] ∧ t.ceiling.effective .forward = 1400) ∧
    (let t := run (.conversionEnd 10 2051) (checking { loaded with
        scan := { loaded.scan with nextRef := .mid, passRun := 5, fault := true, causes := #v[false, true, false, false] } })
     t.scan.fault = false ∧ t.scan.passRun = 6 ∧ t.scan.nextRef = .high) := by decide +kernel

/-- Section 7.5: three results in a row counted, the fourth qualifying result of the filter of 4 detects; one on the other
side of the threshold zeroes the counter. -/
theorem test_filter_of_four :
    (run (.conversionEnd 10 1450) (converting 2 { loaded with
        scan := { loaded.scan with comps := loaded.scan.comps.set 0 ⟨false, 3⟩ } })).scan.comps[(0 : Fin 4)] = ⟨true, 0⟩ ∧
    (run (.conversionEnd 10 1300) (converting 2 { loaded with
        scan := { loaded.scan with comps := loaded.scan.comps.set 0 ⟨false, 2⟩ } })).scan.comps[(0 : Fin 4)] = ⟨false, 0⟩ ∧
    (run (.conversionEnd 10 1400) (converting 2 { loaded with
        scan := { loaded.scan with comps := loaded.scan.comps.set 0 ⟨false, 2⟩ } })).scan.comps[(0 : Fin 4)] = ⟨false, 0⟩ := by
  decide +kernel

/-- Section 8.3, dither on a direct-driven brush motor: 1080 in the high part, 920 in the low part, and amplitude 40 loaded at
the end of the low part. -/
theorem test_dither :
    (let s := run (.directDrive bh 6 1000) serving
     s.output.commanded 6 = 1080 ∧
     (run (.ditherPartEnd 0 6) (withChannel 6 (fun c => { c with carrier := { c.carrier with pos := 10 } }) s)
       ).output.commanded 6 = 920 ∧
     (run (.ditherPartEnd 0 6) (withChannel 6 (fun c => { c with
         carrier := { c.carrier with part := .low, pos := 10, nextAmp := some 40 } }) s)).output.commanded 6 = 1040 ∧
     (run (.directDrive bh 6 0) s).output.commanded 6 = 0) := by decide +kernel

/-- Section 8.6, two masters in SERVICE: HELD, STATE for the lower coil while the lift coil is on, the level of 1500 clamped
to 1000, and the wheel edge that ends SERVICE. -/
theorem test_two_masters_in_service :
    (let s := run (.directDrive bh 3 1) serving
     ((run (.directDrive dh 3 0) s).link .drive).answer.code = .held ∧
     ((run (.directDrive dh 4 1) s).link .drive).answer.code = .state ∧
     (run (.directDrive bh 14 1500) s).output.commanded 14 = 1000 ∧
     ((run (.directDrive dh 0 900) s).link .drive).answer.code = .denied ∧
     (let t := run (.wheelEdge 0 .left .forward) s
      t.unit.mode = .transport ∧ t.output.commanded 3 = 0 ∧ t.output.channels[(3 : Channel)].holder = none)) := by
  decide +kernel

/-- Section 9.4, the body master stalls: the loss raises the left arm, ends the spray and gives a ceiling of 800. -/
theorem test_body_master_stalls :
    (let t := run (.deadlineExpiry 100000 .body) (spraying 0)
     (t.link .body).state = .lost ∧ t.ceiling.effective .forward = 800 ∧ t.ceiling.binding .forward = .bodyLoss ∧
     t.unit.mode = .leaving ∧ t.arms.left.state = .raising ∧ t.spray.left.active = false ∧
     t.notices.alarms.map (fun a => (a.code, a.present)) = [(.bodyLinkLost, true)]) := by decide +kernel

/-- Section 1.6: the body master may not write the work max speed; a third point with speed 0 makes the record invalid. -/
theorem test_editing :
    (let s := run (.openEdit bh 2) sweeping
     ((run (.writeField bh 2 0 (.word 1800)) s).link .body).answer.code = .denied ∧
     (let t := run (.writeField bh 13 0 (.word 3)) s
      ((run (.commitEdit bh) t).link .body).answer.code = .invalid ∧
      ((run (.commitEdit bh) (run (.writeField bh 14 2 (.point 3000 1000)) t)).link .body).answer.code = .accepted)) := by
  decide +kernel

/-- Section 8.1, per-mille to current: 500 of channel 5 is 900 mA, 480 of channel 6 is 976 mA, 700 of channel 13 is
1380 mA. -/
theorem test_per_mille_to_current :
    (((loaded.postSetpoint 5 500).postSetpoint 6 480).postSetpoint 13 700).output.channels.map (·.target) =
      #v[0, 0, 0, 0, 0, 900, 976, 0, 0, 0, 0, 0, 0, 1380, 0, 0, 0, 0] := by decide +kernel

/-! ### Witnesses: states and operands that meet the hypotheses of each statement, clause by clause -/

/-- `live` with one link in another state, its liveness count the one that the requests carry. -/
def linkIn (l : Link) (st : LinkState) : State :=
  { live with links := match l with
      | .drive => { live.links with drive := { live.links.drive with state := st, lastCount := some 1 } }
      | .body => { live.links with body := { live.links.body with state := st, lastCount := some 1 } } }

/-- `live` with a frame of the drive link marked for discarding. -/
def marked : State :=
  { live with links := { live.links with drive := { live.links.drive with selected := true, discard := true } } }

/-- `live` with an open restart window. -/
def windowed (l : Link) : State := { live with links := { live.links with window := some ⟨l, 3, 1000⟩ } }

theorem test_witness_StepTakesFront :
    ({ live with pending := [.null dh, .sweepSecond 0] } : State).pending = .null dh :: [.sweepSecond 0] ∧
    live.pending = [] := by decide +kernel

theorem test_witness_RequestFramesReadBack :
    (let i := Instr.writeField bh 14 5 (.point 4000 1000)
     i.wellFormed = true ∧ requestParts i = some (bh, 13, [14, 5, 0xA0, 0x0F, 0xE8, 0x03, 0, 0, 0, 0]) ∧
     (frameOf i).isSome = true) ∧
    (let i := Instr.unknownRequestKind dh (.selector 247)
     i.wellFormed = true ∧ requestParts i = some (dh, 1, [255]) ∧ (frameOf i).isSome = true) := by decide +kernel

theorem test_witness_BadFramesTold :
    (List.replicate 15 (0 : Byte)).length < 16 ∧
    (let b : Vector Byte 16 := Vector.replicate 16 0
     crc8 (b.toList.take 15) ≠ b[15]) := by decide +kernel

theorem test_witness_OneByteErrorsCaught : (0 : Byte) ≠ 0x80 := by decide

theorem test_witness_BadFramesCounted :
    (live.link .drive).discard = false ∧ (marked.link .drive).discard = true := by decide +kernel

theorem test_witness_GateHoldsBack :
    requestParts (.restart dh) = some (dh, 36, []) ∧ requestParts (.sweepStart dh) = some (dh, 8, []) ∧
    ((linkIn .drive .lost).link .drive).discard = false ∧
    (((linkIn .drive .lost).taken dh).link .drive).state = .lost ∧
    (((linkIn .drive .returned).taken dh).link .drive).state = .returned ∧
    (8 : Nat) ∉ ([0, 1, 2, 3, 4, 5, 6, 28, 30, 34, 29, 31, 32, 35, 36] : List Nat) ∧
    (marked.link .drive).discard = true := by decide +kernel

theorem test_witness_UnknownRequestAnswered :
    (live.link .drive).discard = false ∧ ((live.taken dh).link .drive).state = .live ∧
    (((linkIn .drive .returned).taken dh).link .drive).state = .returned := by decide +kernel

theorem test_witness_NullRefreshes :
    (live.link .drive).discard = false ∧ (live.link .drive).lastCount ≠ some dh.live ∧
    ((linkIn .drive .live).link .drive).lastCount = some dh.live ∧ (State.reset.link .drive).state = .waiting ∧
    (State.reset.link .drive).lastCount ≠ some dh.live ∧
    ((run (.null dh) (linkIn .drive .lost)).link .drive).state = .lost ∧
    ((run (.null ⟨.drive, 7, 2, 0⟩) (linkIn .drive .lost)).link .drive).state = .returned ∧
    ((run (.null dh) State.reset).link .drive).state = .live := by decide +kernel

theorem test_witness_ResumeRestoresLink :
    (live.link .drive).discard = false ∧ (((linkIn .drive .returned).taken dh).link .drive).state = .returned ∧
    ((live.taken dh).link .drive).state = .live := by decide +kernel

theorem test_witness_RestartWindowOpensAndLapses :
    live.passes dh 36 ∧ live.travel.ground = 0 ∧ live.gov.vRef = 0 ∧ live.links.window = none ∧
    (linkIn .drive .returned).passes dh 36 ∧
    { live with gov := { live.gov with vRef := 1 } }.passes dh 36 ∧
    (windowed .drive).passes dh 36 ∧ (windowed .drive).links.window = some ⟨.drive, 3, 1000⟩ ∧
    reached ((windowed .drive).elapse 1000000).now 1000 = true := by
  unfold State.passes; decide +kernel

/-- A joint restart with no swap and with one. -/
theorem test_witness_JointRestartPerformed :
    (windowed .drive).passes bh 36 ∧ (windowed .drive).travel.ground = 0 ∧ (windowed .drive).gov.vRef = 0 ∧
    (windowed .drive).links.window = some ⟨.drive, 3, 1000⟩ ∧ Link.drive ≠ bh.link ∧ (windowed .drive).unit.swap = none ∧
    (let s := { windowed .drive with unit := { loaded.unit with mode := .leaving, swap := some ⟨3, {}⟩ } }
     s.passes bh 36 ∧ s.unit.swap = some ⟨3, {}⟩ ∧ (run (.restart bh) s).unit.active = some 3) := by
  unfold State.passes; decide +kernel

theorem test_witness_DeadlineLosesLink :
    (live.link .drive).timer = some 100 ∧ reached (live.elapse 100000).now 100 = true ∧ (live.link .drive).state = .live ∧
    (sweeping.link .body).timer = some 100 ∧ (sweeping.link .body).state = .live ∧
    (serving.link .body).timer = some 100 ∧ (serving.link .body).state = .live ∧ serving.unit.mode = .service ∧
    (windowed .drive).links.window = some ⟨.drive, 3, 1000⟩ ∧ ((windowed .drive).link .drive).state = .live ∧
    ((linkIn .drive .returned).link .drive).timer = some 100 ∧
    ((linkIn .drive .returned).link .drive).state = .returned := by decide +kernel

theorem test_witness_PowerOnResets :
    ((run (.powerOnReset ⟨true, false⟩) sweeping).link .drive).deadline = 400 ∧
    ((run (.powerOnReset ⟨true, false⟩) sweeping).link .body).deadline = 100 ∧
    (run (.powerOnReset ⟨true, false⟩) sweeping).unit.mode = .transport := by decide +kernel

theorem test_witness_FieldsAndParts :
    byte2 65535 = [255, 255] ∧ byte4 4294967295 = [255, 255, 255, 255] ∧ int2 (-32768) = [0, 128] ∧
    int2 32767 = [255, 127] ∧ 11 * (3 : Byte).toNat < live.travelRun.length ∧
    live.travelRun.length ≤ 11 * (4 : Byte).toNat := by decide +kernel

theorem test_witness_StatusReadsAnswer :
    live.passes dh 1 ∧ loaded.passes dh 1 ∧ loaded.inForce = some { doseLeft := some 150, doseMain := some 100 } ∧
    loaded.spray.tank ≠ .empty := by
  unfold State.passes; decide +kernel

/-- Every kind of read passes in LIVE and in RETURNED; the numbers at the ends of their ranges name what they read. -/
theorem test_witness_RecordReadsAnswer :
    (live.passes dh 2 ∧ live.passes dh 3 ∧ live.passes dh 4 ∧ live.passes dh 5 ∧ live.passes dh 6 ∧ live.passes dh 28 ∧
      live.passes dh 30 ∧ live.passes dh 34) ∧
    (linkIn .drive .returned).passes dh 34 ∧
    Source.driveFault.slot.val = (13 : Byte).toNat ∧ (17 : Channel).val = (17 : Byte).toNat ∧
    (8 : Fin 9).val = (8 : Byte).toNat ∧ 12 + (3 : Fin 4).val = (15 : Byte).toNat ∧
    (loaded.passes dh 5 ∧ loaded.unit.slots[(2 : Fin 8)].isSome = true ∧ loaded.unit.slots[(7 : Fin 8)] = none ∧
      loaded.unit.staging = none ∧ (Program.default.page 3).isSome = true ∧ Program.default.page 4 = none) ∧
    settingAt 1 0 0 = some .pitchLeft ∧ settingAt 0 0 0 = none ∧ settingAt 6 8 2 = some (.span 8) ∧ settingAt 6 9 0 = none ∧
    (live.bank.snapDrive.page 3).isSome = true ∧ live.bank.snapDrive.page 4 = none := by
  unfold State.passes; decide +kernel

theorem test_witness_SettingsAreWritten :
    live.passes dh 7 ∧ settingAt 255 0 0 = none ∧ settingAt 2 0 3 = some .yieldCap ∧ Setting.yieldCap.owner = .drive ∧
    Setting.yieldCap.owner ≠ bh.link ∧ live.passes bh 7 ∧ sweeping.passes dh 7 ∧ sweeping.unit.mode ≠ .transport ∧
    sweeping.unit.mode ≠ .service ∧ live.unit.mode = .transport ∧ live.travel.ground = 0 ∧ live.gov.vRef = 0 ∧
    Setting.yieldCap.accepts live.settings 900 = true ∧ Setting.yieldCap.accepts live.settings (-1) = false ∧
    (run (.writeSetting dh 2 0 3 900) live).settings.caps.yieldCap = 900 := by
  unfold State.passes; decide +kernel

/-- The ranges of settings at their ends: pulse timeout 200 to 2000 (R31), an addition count of 3 (R143), I_high below I_low
(R161), a dither high count of 40 (R161). -/
theorem test_setting_ranges :
    Setting.pulseTimeout.accepts {} 200 = true ∧ Setting.pulseTimeout.accepts {} 199 = false ∧
    Setting.pulseTimeout.accepts {} 2000 = true ∧ Setting.pulseTimeout.accepts {} 2001 = false ∧
    (Setting.count 0).accepts {} 8 = true ∧ (Setting.count 0).accepts {} 3 = false ∧
    (Setting.iHigh 5).accepts {} 299 = false ∧ (Setting.iHigh 5).accepts {} 300 = true ∧
    (Setting.ditherHigh 6).accepts {} 40 = true ∧ (Setting.ditherHigh 6).accepts {} 41 = false := by decide +kernel

/-- What a taken write does beside: a comparator's counter cleared with its state kept (R148), a dither value pending on a running
carrier and loaded at rest (R164). The tables of R31, R49, R65, R92 and R116 have 46 settings. -/
theorem test_written_comparator_and_dither :
    settingRows.length = 46 ∧
    (let s := { live with scan := { live.scan with comps := live.scan.comps.set 3 ⟨true, 5⟩ } }
     s.passes dh 7 ∧ settingAt 7 3 3 = some (.filter 3) ∧
     (run (.writeSetting dh 7 3 3 15) s).scan.comps[(3 : Fin 4)] = ⟨true, 0⟩) ∧
    (let s := run (.directDrive bh 6 1000) serving
     let k := (run (.writeSetting bh 8 6 4 40) s).output.channels[(6 : Channel)].carrier
     s.output.channels[(6 : Channel)].carrier.part = .high ∧ k.nextAmp = some 40 ∧ k.amp = 80) ∧
    (let k := (run (.writeSetting bh 8 6 4 40) live).output.channels[(6 : Channel)].carrier
     k.part = .rest ∧ k.nextAmp = none ∧ k.amp = 40) := by
  unfold State.passes; decide +kernel

theorem test_witness_CapSettingsPosted :
    live.passes dh 7 ∧ settingAt 2 0 (0 : Byte).toNat = some .transportMax ∧ live.settingsOpen = true ∧ dh.link = .drive ∧
    Setting.transportMax.accepts live.settings (6000 : Half).toInt = true ∧
    (run (.writeSetting dh 2 0 0 6000) live).answerIs dh 7 .done ∧
    settingAt 2 0 5 = some .slopeCap1 ∧ live.scan.slope = .zero ∧
    (let s := { live with scan := { live.scan with slope := .one } }
     s.passes dh 7 ∧ (run (.writeSetting dh 2 0 5 1700) s).answerIs dh 7 .done ∧
     ((run (.writeSetting dh 2 0 5 1700) s).ceiling.entry .slope).cap = 1700) := by
  unfold State.passes State.answerIs; decide +kernel

/-- A start is taken from `loaded`; each refusal has its state. -/
theorem test_witness_SweepStartsAndEnds :
    loaded.passes bh 8 ∧ loaded.unit.mode = .transport ∧ loaded.unit.active.isSome = true ∧
    (∀ l, ((loaded.taken bh).link l).state = .live) ∧ loaded.gov.setRange = .transport ∧
    live.passes dh 8 ∧ live.unit.active = none ∧ serving.passes bh 8 ∧ serving.unit.mode = .service ∧
    sweeping.passes bh 8 ∧ sweeping.unit.mode = .sweep ∧
    ({ linkIn .drive .lost with unit := loaded.unit }.passes bh 8 ∧
      ∃ l, (({ linkIn .drive .lost with unit := loaded.unit }.taken bh).link l).state ≠ .live) ∧
    sweeping.passes bh 9 ∧ live.passes bh 9 ∧ live.passes dh 9 ∧ live.unit.mode = .transport := by
  unfold State.passes
  refine ⟨by decide +kernel, by decide +kernel, by decide +kernel, fun l => by cases l <;> decide +kernel, by decide +kernel,
    by decide +kernel, by decide +kernel, by decide +kernel, by decide +kernel, by decide +kernel, by decide +kernel,
    ⟨by decide +kernel, .drive, by decide +kernel⟩, by decide +kernel, by decide +kernel, by decide +kernel,
    by decide +kernel⟩

/-- SWEEP_END with the arms up asks for the transport range at once; with an arm WORKING the arm raises and the governor stands;
a lower-pending mark is cleared (R10, R75, R96). -/
theorem test_sweep_ends :
    (let t := run (.sweepEnd bh) sweeping
     t.unit.requested = true ∧ t.gov.requested = some .transport ∧ t.gov.shift = .waiting ∧
     t.ceiling.entry .rangeShift = { active := true, cap := 1200, engagements := 1 }) ∧
    (let s := withArm .left (fun r => { r with state := .working }) sweeping
     let t := run (.sweepEnd bh) s
     s.passes bh 9 ∧ t.arms.left.state = .raising ∧ t.arms.left.timer = some 1500 ∧ t.unit.requested = false ∧
     t.gov = s.gov ∧ (t.ceiling.entry .armTransition).active = true) ∧
    (run (.sweepEnd bh) (withArm .main (fun r => { r with pending := true }) sweeping)).arms.main.pending = false := by
  unfold State.passes; decide +kernel

theorem test_witness_ServiceEnteredAndLeft :
    live.passes dh 10 ∧ live.unit.mode = .transport ∧ live.travel.ground = 0 ∧ live.gov.vRef = 0 ∧ live.gov.demandMag = 0 ∧
    serving.passes bh 10 ∧ serving.unit.mode = .service ∧ sweeping.passes bh 10 ∧ sweeping.unit.mode = .sweep ∧
    0 < { live with gov := { live.gov with demandMag := 1 } }.gov.demandMag ∧ serving.passes bh 11 ∧ live.passes bh 11 ∧
    live.unit.mode ≠ .service := by
  unfold State.passes; decide +kernel

/-- `loaded` with the staging record held by the body link for a slot. -/
def claimed (slot : Fin 8) : State :=
  { loaded with unit := { loaded.unit with staging := some ⟨.body, slot, {}, 2000⟩ } }

/-- `loaded` with a pending swap into a slot. -/
def swapping (slot : Fin 8) : State := { sweeping with unit := { sweeping.unit with swap := some ⟨slot, {}⟩ } }

theorem test_witness_EditOpensAndIsAbandoned :
    live.passes dh 12 ∧ (7 : Byte).toNat = (7 : Fin 8).val ∧ live.unit.staging = none ∧ live.unit.swap = none ∧
    7 < (8 : Byte).toNat ∧ (claimed 2).passes dh 12 ∧ (claimed 2).unit.staging = some ⟨.body, 2, {}, 2000⟩ ∧
    Link.body ≠ dh.link ∧ (claimed 2).passes bh 12 ∧ Link.body = bh.link ∧ (swapping 2).passes dh 12 ∧
    (swapping 2).unit.staging = none ∧ (swapping 2).unit.swap.isSome = true ∧ live.passes dh 15 ∧
    (claimed 2).passes bh 15 ∧ (claimed 2).passes dh 15 := by
  unfold State.passes; decide +kernel

theorem test_witness_FieldWritesAndLapse :
    live.passes bh 13 ∧ live.unit.staging = none ∧ (claimed 2).passes bh 13 ∧
    (claimed 2).unit.staging = some ⟨.body, 2, {}, 2000⟩ ∧
    fieldAccepts 7 (.word 1000) = true ∧ fieldAccepts 7 (.word 1001) = false ∧ fieldAccepts 9 (.word 9) = false ∧
    fieldAccepts 9 (.word 0) = true ∧ fieldAccepts 9 (.word 500) = true ∧ fieldAccepts 14 (.point 4000 1001) = false ∧
    fieldAccepts 1 (.label (Vector.replicate 8 126)) = true ∧ fieldAccepts 1 (.label (Vector.replicate 8 127)) = false ∧
    ((run (.writeField bh 21 0 (.word 600)) (claimed 2)).link .body).answer.code = .done ∧
    ((run (.writeField bh 22 0 (.word 600)) (claimed 2)).link .body).answer.code = .unknown ∧
    ((run (.writeField bh 14 6 (.point 0 0)) (claimed 2)).link .body).answer.code = .unknown ∧
    reached ((claimed 2).elapse 2000000).now 2000 = true := by
  unfold State.passes; decide +kernel

theorem test_witness_EditIsCommitted :
    (claimed 3).passes bh 14 ∧ (claimed 3).unit.active ≠ some 3 ∧ (claimed 3).unit.swap = none ∧ (claimed 2).passes bh 14 ∧
    (claimed 2).unit.active = some 2 ∧ (claimed 2).unit.mode.working = false ∧
    (let s := { claimed 2 with unit := { (claimed 2).unit with mode := .sweep } }
     s.passes bh 14 ∧ s.unit.mode.working = true) ∧ live.passes bh 14 ∧ live.unit.staging = none ∧ (claimed 2).passes dh 14 ∧
    (let s := { claimed 3 with unit := { (claimed 3).unit with swap := some ⟨2, {}⟩ } }
     s.passes bh 14 ∧ s.unit.swap.isSome = true) := by
  unfold State.passes; decide +kernel

/-- The default curves rise, and a curve whose third used point has speed 0 does not (R22). -/
theorem test_witness_Rising :
    Program.default.side.Rising ∧ Program.default.main.Rising ∧ ¬({ Program.default.side with count := 3 } : Curve).Rising := by
  unfold Curve.Rising
  refine ⟨fun k h1 h2 => ?_, fun k h1 h2 => ?_, fun h => absurd (h 1 (by decide) (by decide)) (by decide)⟩ <;>
    obtain rfl : k = 0 := by
      have : Program.default.side.count = 2 ∧ Program.default.main.count = 2 := ⟨rfl, rfl⟩
      omega
  · exact (by decide : (0 : Nat) < 2000)
  · exact (by decide : (0 : Nat) < 2000)

theorem test_witness_ProgramIsErased :
    loaded.passes dh 16 ∧ 7 < (8 : Byte).toNat ∧ (2 : Byte).toNat = (2 : Fin 8).val ∧ loaded.unit.active = some 2 ∧
    (claimed 3).passes dh 16 ∧ (claimed 3).unit.staging = some ⟨.body, 3, {}, 2000⟩ ∧ dh.link.other = .body ∧
    (claimed 3).passes bh 16 ∧ (swapping 3).passes dh 16 ∧ (swapping 3).unit.swap = some ⟨3, {}⟩ ∧
    loaded.unit.slots[(7 : Fin 8)] = none ∧
    (let s := { loaded with unit := { loaded.unit with slots := loaded.unit.slots.set 7 (some {}) } }
     s.passes dh 16 ∧ s.unit.slots[(7 : Fin 8)].isSome = true ∧
     (run (.eraseProgram dh 7) s).unit.slots[(7 : Fin 8)] = none) := by
  unfold State.passes; decide +kernel

/-- `loaded` and `sweeping` with a second program in slot 5. -/
def second (s : State) : State := { s with unit := { s.unit with slots := s.unit.slots.set 5 (some { reverseCap := 300 }) } }

theorem test_witness_ProgramIsSelected :
    loaded.passes dh 17 ∧ loaded.unit.slots[(7 : Fin 8)] = none ∧ (second loaded).passes dh 17 ∧
    (second loaded).unit.slots[(5 : Fin 8)] = some { reverseCap := 300 } ∧ (second loaded).unit.active ≠ some 5 ∧
    (second loaded).unit.swap = none ∧ (second loaded).unit.mode.working = false ∧ (second sweeping).passes dh 17 ∧
    (second sweeping).unit.mode.working = true ∧ loaded.unit.active = some 2 ∧ (swapping 2).passes dh 17 ∧
    (swapping 2).unit.swap.isSome = true ∧
    ((run (.selectProgram dh 5) (second loaded)).ceiling.entry .reverseArms).cap = 300 := by
  unfold State.passes; decide +kernel

theorem test_witness_CyclesBegin :
    (spraying 0).unit.boundary = some 250 ∧ reached ((spraying 0).elapse 250000).now 250 = true ∧
    (spraying 0).unit.swap = none ∧ (swapping 5).unit.boundary = some 250 ∧
    (swapping 5).unit.swap = some ⟨5, {}⟩ ∧ (run (.cycleBoundary 250000) (swapping 5)).unit.active = some 5 ∧
    (let s := { loaded with unit := { loaded.unit with halfMark := some 125 } }
     s.unit.halfMark = some 125 ∧ reached (s.elapse 125000).now 125 = true) := by decide +kernel

/-- The four cases of a cycle start (R125): inactive, pulse open, below Mmin at 339 owed, and taken at 340. -/
theorem test_witness_startsCycle :
    sweeping.spray.left.active = false ∧ (spraying 340).spray.left.active = true ∧
    (run (.cycleBoundary 250000) (spraying 339)).spray.left.pulseEnd = none ∧
    (run (.cycleBoundary 250000) (spraying 340)).spray.left.pulseEnd = some 270 := by decide +kernel

/-- A swap and the cycle start of the left bar under the new program, at one boundary (R26, R128): the pulse of the new period. -/
theorem test_swap_starts_cycle :
    (let s := { spraying 8160 with unit := { sweeping.unit with swap := some ⟨5, { doseLeft := some 150, period := 500 }⟩ } }
     let t := run (.cycleBoundary 250000) s
     t.unit.boundary = some 750 ∧ t.spray.left.lastPulse = 480 ∧ t.spray.left.saturated = false) := by decide +kernel

theorem test_witness_WheelEdgesTaken :
    rolling.travel.left.lastEdge = some 4991000 ∧ 100 ≤ since (rolling.elapse 0).nowUs 4991000 ∧
    rolling.travel.left.dir = .forward ∧ since (clockAt 4991 rolling).nowUs 4991000 < 100 ∧
    live.travel.left.lastEdge = none ∧ rolling.travel.sensorFault = none ∧ serving.unit.mode = .service ∧
    { rolling with travel := { rolling.travel with sensorFault := some .right } }.travel.sensorFault = some .right := by
  decide +kernel

/-- `rolling` with the right wheel standing since the reset (R38, R42). -/
def oneStands : State :=
  { rolling with travel := { rolling.travel with
      right := { live.travel.right with timeout := none }, ground := 500 } }

/-- The further clauses of a wheel edge: the stillness test and the watch (R38, R42), a doubled distance in a fault of the other
wheel with its tick (R44, R45), the end of the wheel's own fault (R43), and the lapse of a restart window at motion (R187). -/
theorem test_witness_WheelEdgesTaken_more :
    (let t := run (.wheelEdge 0 .left .forward) oneStands
     t.travel.slipHold = some 7000 ∧ t.travel.watch = some ⟨.right, 5000⟩ ∧ t.travel.ground = 0) ∧
    (let t := run (.wheelEdge 0 .left .forward)
        { rolling with travel := { rolling.travel with sensorFault := some .right, metreRem := 99, odometer := 7 } }
     t.travel.accumulator = 50 ∧ t.travel.metreRem = 0 ∧ t.travel.odometer = 8) ∧
    (run (.wheelEdge 0 .left .forward)
        { rolling with travel := { rolling.travel with sensorFault := some .left } }).travel.sensorFault = none ∧
    (let t := run (.wheelEdge 0 .left .forward)
        { rolling with travel := { rolling.travel with ground := 0 }, links := (windowed .body).links }
     t.links.window = none ∧ (t.notices.body.pending.getLsbD 10 = true) ∧ t.notices.drive.pending.getLsbD 10 = false) := by
  decide +kernel

/-- A tick in SWEEP: the left arm's swept distance fills its metre, and the bar owes one dose of 150 more, held to its cap of
8160 with the rest a shortfall (R112, R122, R123). -/
theorem test_tick_of_distance :
    (let s := { spraying 8100 with
        travel := { rolling.travel with accumulator := 100 }, bank := { live.bank with sweptLeft := 99 }, clock := rolling.clock
        spray := { (spraying 8100).spray with left := { (spraying 8100).spray.left with shortfallRem := 950 } } }
     let t := run (.wheelEdge 3500 .left .forward) s
     t.bank.sweptLeft = 0 ∧ t.bank.tallies[Tally.index (.swept .left)] = 1 ∧ t.spray.left.owed = 8160 ∧
     t.spray.left.shortfallRem = 40 ∧ t.bank.tallies[Tally.index .shortfall] = 1) := by decide +kernel

theorem test_witness_TravelTimersAct :
    reached (live.elapse 10000).now live.periods.travel = true ∧ rolling.travel.left.history ≠ [] ∧
    rolling.travel.left.timeout = some 5791 ∧ reached (rolling.elapse 791000).now 5791 = true ∧
    (let s := { rolling with travel := { rolling.travel with slipHold := some 5000 } }
     s.travel.slipHold = some 5000 ∧ reached (s.elapse 0).now 5000 = true) ∧
    (let s := { rolling with travel := { rolling.travel with
        right := { rolling.travel.right with speed := 0, history := [], lastEdge := none, movingSince := none }
        watch := some ⟨.right, 2000⟩ } }
     s.travel.sensorFault = none ∧ s.travel.watch = some ⟨.right, 2000⟩ ∧ 3000 ≤ since (s.elapse 0).now 2000 ∧
     s.travel.watchHolds .right = true ∧ reached (s.elapse 0).now s.periods.travel = true ∧
     (run (.travelUpdateExpiry 0) s).travel.watchHolds .right = true ∧
     (run (.travelUpdateExpiry 0) s).travel.sensorFault = some .right) := by decide +kernel

/-- The wheels slow at the update, and the window lapses at motion; a watch of the standing right wheel begins; its fault ends slip hold and takes the left wheel's speed and direction, with detail 1 (R34, R40 to R43, R187). -/
theorem test_travel_update_follows :
    (let s := { rolling with travel := { rolling.travel with ground := 0 }, links := (windowed .body).links }
     let t := run (.travelUpdateExpiry 9000) s
     t.links.window = none ∧ (t.notices.body.pending.getLsbD 10 = true) ∧ t.notices.drive.pending.getLsbD 10 = false) ∧
    (let still := { rolling.travel.right with speed := 0, history := [], lastEdge := none, movingSince := none }
     (run (.travelUpdateExpiry 9000) { rolling with travel := { rolling.travel with right := still, ground := 500 }
       }).travel.watch = some ⟨.right, 5009⟩ ∧
     (let t := run (.travelUpdateExpiry 0) { rolling with
        travel := { rolling.travel with right := still, watch := some ⟨.right, 2000⟩, slipHold := some 6000, ground := 0 }
        ceiling := { rolling.ceiling with entries := rolling.ceiling.entries.set 8 { active := true, cap := 1000 } } }
      t.travel.slipHold = none ∧ t.travel.ground = t.travel.left.speed ∧ t.travel.dir = t.travel.left.dir ∧
      (t.ceiling.entry .traction).active = false ∧
      t.notices.alarms.map (fun a => (a.code, a.detail, a.present)) = [(.wheelSensor, 1, true)])) := by decide +kernel

theorem test_witness_CeilingIsLowestCap :
    (live.ceiling.entry .mode).active = true ∧ live.ceiling.effective .forward = 6900 ∧
    live.ceiling.binding .forward = .mode ∧
    (let t := ({ live with gov := { live.gov with vRef := 1 } } : State).activate .driveLoss 0
     t.bank.tallies[Tally.index .urgentStops] = 1 ∧ (t.ceiling.entry .driveLoss).engagements = 1 ∧
     t.told .ceilingBinding) := by
  refine ⟨by decide +kernel, by decide +kernel, by decide +kernel, by decide +kernel, by decide +kernel, fun l => ?_⟩
  cases l <;> decide +kernel

theorem test_witness_DemandIsHeld :
    live.passes dh 18 ∧ live.passes bh 18 ∧ 2 < (3 : Byte).toNat ∧ (2 : Byte).toNat = 2 ∧ serving.passes dh 18 ∧
    serving.unit.mode = .service ∧ live.unit.mode ≠ .service ∧
    (run (.driveDemand dh 1 1001) live).gov.demandMag = 1000 := by
  unfold State.passes; decide +kernel

theorem test_witness_DrivePeriodRuns :
    reached (sweeping.elapse 10000).now sweeping.periods.drive = true ∧
    (run (.drivePeriodExpiry 10000) sweeping).gov.vRef = 6 ∧
    (let s := { sweeping with
        gov := { sweeping.gov with cutSeen := true }, output := { sweeping.output with driveCut := true } }
     s.gov.cutSeen = true ∧ (run (.drivePeriodExpiry 10000) s).output.driveCut = false) ∧
    (let s := { loaded with gov := { loaded.gov with requested := some .transport } }
     s.gov.shift = .none ∧ s.gov.requested.isSome = true ∧ (run (.drivePeriodExpiry 10000) s).gov.requested = none) := by
  decide +kernel

/-- A request that found its range set completes at the expiry (R75, R77): ENTERING becomes SWEEP with the MODE cap of the
program, and LEAVING becomes TRANSPORT with its swap, or keeps the reached mark while an arm is out (R7, R11, R28). -/
theorem test_request_completes_at_expiry :
    (let s := { loaded with
        unit := { loaded.unit with mode := .entering, awaited := some .work }
        gov := { loaded.gov with setRange := .work, requested := some .work } }
     let t := run (.drivePeriodExpiry 10000) s
     t.unit.mode = .sweep ∧ t.unit.awaited = none ∧ (t.ceiling.entry .mode).cap = 2200 ∧ t.told .modeChanged) ∧
    (let s := { loaded with
        unit := { loaded.unit with
          mode := .leaving, awaited := some .transport, requested := true, swap := some ⟨5, { reverseCap := 300 }⟩ }
        gov := { loaded.gov with requested := some .transport } }
     let t := run (.drivePeriodExpiry 10000) s
     t.unit.mode = .transport ∧ t.unit.active = some 5 ∧ (t.ceiling.entry .reverseArms).cap = 300 ∧
     (run (.drivePeriodExpiry 10000) (withArm .right (fun r => { r with state := .raising }) s)).unit.reached = true) := by
  refine ⟨⟨by decide +kernel, by decide +kernel, by decide +kernel, fun l => by cases l <;> decide +kernel⟩, ?_⟩
  decide +kernel

/-- R68, R80, R151: a direction change that ends a stall clears stall hold at once, and the reference rises from the next
expiry. -/
theorem test_stall_ends_at_turn :
    (let s := { sweeping with
        gov := { sweeping.gov with demandDir := .reverse, stallHold := true, stallTimer := some 500 }
        scan := { sweeping.scan with comps := sweeping.scan.comps.set 3 ⟨true, 0⟩ } }
     let t := run (.drivePeriodExpiry 10000) s
     s.HeldLaw ∧ t.HeldLaw ∧ t.gov.held = .reverse ∧ t.gov.stallHold = false ∧ t.gov.vRef = 0 ∧
     (run (.drivePeriodExpiry 10000) t).gov.vRef = 6) := by
  unfold State.HeldLaw; decide +kernel

/-- A settle timer in ENTERING and in LEAVING, and a stall timer. -/
theorem test_witness_ShiftAndStallEnd :
    reached (live.elapse 300000).now 300 = true ∧
    (let s := { loaded with
        unit := { loaded.unit with mode := .entering, awaited := some .work }
        gov := { loaded.gov with setRange := .work, requested := some .work, shift := .settling, settle := some 300 } }
     s.gov.settle = some 300 ∧ s.unit.awaited = some s.gov.setRange ∧
     (run (.settleExpiry 300000) s).unit.mode = .sweep) ∧
    (let s := { loaded with
        unit := { loaded.unit with mode := .leaving, awaited := some .transport, requested := true }
        gov := { loaded.gov with requested := some .transport, shift := .settling, settle := some 300 } }
     s.gov.settle = some 300 ∧ (run (.settleExpiry 300000) s).unit.mode = .transport ∧
     (run (.settleExpiry 300000) (withArm .right (fun r => { r with state := .raising }) s)).unit.reached = true) ∧
    (let s := { sweeping with gov := { sweeping.gov with stallHold := true, stallTimer := some 300 } }
     s.gov.stallTimer = some 300 ∧ s.gov.stallHold = true ∧
     (run (.stallTimerExpiry 300000) s).gov.stallRaised = true) := by decide +kernel

/-- `live` with one alarm. -/
def alarmed (present : Bool) : State :=
  { live with notices := { live.notices with alarms := [⟨.oilHot, 0, 1, 1, 1, present⟩] } }

theorem test_witness_NoticesAreHandled :
    live.passes dh 29 ∧ 13 < (14 : Byte).toNat ∧ (alarmed true).passes dh 29 ∧ (alarmed false).passes dh 29 ∧
    (alarmed false).notices.alarms = [] ++ ⟨.oilHot, 0, 1, 1, 1, false⟩ :: [] ∧ AlarmCode.oilHot.number = (12 : Byte).toNat ∧
    (linkIn .drive .returned).passes dh 29 ∧ live.passes bh 31 ∧ live.passes bh 32 ∧
    (run (.clearAlarm dh 12 0) (alarmed false)).notices.alarms = [] := by
  unfold State.passes; decide +kernel

theorem test_witness_TalliesAreKept :
    live.passes dh 33 ∧ 1 < (2 : Byte).toNat ∧ (1 : Byte).toNat ≤ 1 ∧
    1000 ≤ (sweeping.elapse 1000000).bank.sweepRem ∧
    (run (.sweepSecond 1000000) sweeping).bank.tallies[(16 : Fin 19)] = 1 := by
  unfold State.passes; decide +kernel

/-- The side arms and the broom: a mark above the arm move cap, the lock, and a kerb under an arm that has come down. -/
theorem test_witness_ArmsAreLowered :
    sweeping.passes bh 19 ∧ sweeping.passes dh 19 ∧ 2 < (3 : Byte).toNat ∧ (2 : Byte).toNat = Arm.main.number ∧
    live.passes bh 19 ∧ live.unit.mode ≠ .sweep ∧ (sweeping.arm .left).state = .stowed ∧
    (sweeping.arm .left).pending = false ∧ sweeping.travel.ground ≤ sweeping.settings.caps.armMove ∧
    (let s := { sweeping with travel := { sweeping.travel with ground := 1001 } }
     s.passes bh 19 ∧ s.settings.caps.armMove < s.travel.ground ∧ (run (.armLower bh 1) s).arms.right.pending = true) ∧
    (let s := { sweeping with arms := { sweeping.arms with lock := true } }
     s.passes bh 19 ∧ s.arms.lock = true ∧ ((run (.armLower bh 2) s).link .body).answer.code = .state) ∧
    (let s := withArm .left (fun r => { r with state := .lowering, timer := some 1500 }) sweeping
     (s.arm .left).timer = some 1500 ∧ reached (s.elapse 1500000).now 1500 = true ∧
     (run (.lowerExpiry 1500000 .left) s).arms.left.state = .working ∧
     (let v := { s with scan := { s.scan with comps := s.scan.comps.set 0 ⟨true, 0⟩ } }
      (run (.lowerExpiry 1500000 .left) v).arms.left.state = .yielding)) := by
  unfold State.passes; decide +kernel

theorem test_witness_ArmsAreRaised :
    (spraying 0).passes bh 20 ∧ ((spraying 0).arm .left).state = .working ∧ ((spraying 0).arm .right).state = .stowed ∧
    (spraying 0).passes dh 20 ∧
    (let s := withArm .right (fun r => { r with pending := true }) sweeping
     s.passes bh 20 ∧ (s.arm .right).pending = true ∧ s.unit.mode ≠ .leaving) ∧
    (let s := withArm .right (fun r => { r with state := .fault }) sweeping
     s.passes bh 20 ∧ s.passes bh 21 ∧ (s.arm .right).state = .fault ∧ s.unit.mode.working = true ∧
     (∀ ch : Channel, armOfChannel ch = some .right → s.output.channels[ch].fault = .none) ∧
     (let v := withChannel 10 (fun c => { c with fault := .openLoad }) s
      v.passes bh 21 ∧ armOfChannel 10 = some .right ∧ v.output.channels[(10 : Channel)].fault ≠ .none)) ∧
    (let s := withArm .main (fun r => { r with state := .fault }) loaded
     s.passes bh 21 ∧ s.unit.mode.working = false ∧ (run (.armClear bh 2) s).arms.main.state = .stowed) := by
  unfold State.passes; decide +kernel

/-- The last arm to rise in LEAVING, with the transport range not yet asked for and with it already reached. -/
theorem test_witness_raiseExpiry :
    (let s := withArm .left (fun r => { r with state := .raising, timer := some 1500 })
        { loaded with unit := { loaded.unit with mode := .leaving } }
     (s.arm .left).state = .raising ∧ (s.arm .left).phase = none ∧ (s.arm .left).timer = some 1500 ∧
     reached (s.elapse 1500000).now 1500 = true ∧ s.unit.mode = .leaving ∧
     (run (.raiseExpiry 1500000 .left) s).unit.requested = true ∧
     (let v := { s with unit := { s.unit with requested := true, reached := true } }
      (run (.raiseExpiry 1500000 .left) v).unit.mode = .transport)) := by decide +kernel

theorem test_witness_YieldsEnd :
    (let s := withArm .right (fun r => { r with state := .yielding, phase := some .lift, timer := some 300 }) sweeping
     (s.arm SideArm.right.arm).state = .yielding ∧ (s.arm .right).timer = some 300 ∧
     reached (s.elapse 300000).now 300 = true ∧ (s.arm .right).phase = some .lift ∧
     (run (.yieldLiftExpiry 300000 .right) s).arms.right.timer = some 800) ∧
    (let s := withArm .left (fun r => { r with state := .yielding, phase := some .settle, timer := some 500 }) sweeping
     (s.arm .left).phase = some .settle ∧ s.scan.comps[Arm.left.comparator].detected = false ∧
     (run (.yieldSettleExpiry 500000 .left) s).arms.left.state = .working ∧
     (let v := { s with scan := { s.scan with comps := s.scan.comps.set 0 ⟨true, 0⟩ } }
      v.scan.comps[Arm.left.comparator].detected = true ∧
      (run (.yieldSettleExpiry 500000 .left) v).arms.left.timer = some 1000)) := by decide +kernel

/-- `sweeping` with the broom JAMMED. -/
def jammed (lock : Bool) : State :=
  let s := withArm .main (fun r => { r with state := .jammed, timer := some 2000 }) sweeping
  { s with arms := { s.arms with lock := lock } }

theorem test_witness_BroomIsFreed :
    (jammed true).passes bh 22 ∧ (jammed true).passes dh 22 ∧ (jammed true).arms.lock = true ∧
    (jammed true).arms.main.state = .jammed ∧ (jammed true).scan.comps[(2 : Fin 4)].detected = false ∧
    (jammed false).passes bh 22 ∧ (jammed false).arms.lock = false ∧
    (let s := { jammed true with scan := { sweeping.scan with comps := sweeping.scan.comps.set 2 ⟨true, 0⟩ } }
     s.passes bh 22 ∧ s.scan.comps[(2 : Fin 4)].detected = true) ∧
    (let s := { sweeping with arms := { sweeping.arms with lock := true } }
     s.passes bh 22 ∧ s.arms.main.state ≠ .jammed) ∧
    (jammed false).arms.main.timer = some 2000 ∧ (jammed false).arms.main.phase = none ∧
    reached ((jammed false).elapse 2000000).now 2000 = true ∧ (jammed false).arms.cutSeen = false ∧
    (run (.jamHoldExpiry 2000000) (jammed false)).arms.main.state = .working ∧
    (run (.broomClearJam bh) (jammed true)).arms.main.state = .working := by
  unfold State.passes; decide +kernel

theorem test_witness_ArmPeriodRuns :
    reached (sweeping.elapse 20000).now sweeping.periods.arm = true ∧
    (let s := withArm .right (fun r => { r with pending := true })
        { sweeping with travel := { sweeping.travel with ground := 1000 } }
     s.travel.ground ≤ s.settings.caps.armMove ∧ (run (.armPeriodExpiry 20000) s).arms.right.state = .lowering) ∧
    (let s := { jammed false with arms := { (jammed false).arms with holdDone := true } }
     (run (.armPeriodExpiry 20000) s).arms.main.state = .working) ∧
    2 ≤ Program.default.side.count ∧ Program.default.side.count ≤ 6 := by decide +kernel

/-- The working broom's motor is posted 0 at the expiry that releases the cut, and turns again at the next one: 400 at standstill
(R88, R89, R105). -/
theorem test_released_broom_turns_at_the_next_expiry :
    (let s := withArm .main (fun r => { r with state := .working, rot := 0 }) { sweeping with
        arms := { sweeping.arms with cutSeen := true }, output := { sweeping.output with broomCut := true } }
     let t := run (.armPeriodExpiry 20000) s
     t.arms.cutSeen = false ∧ t.output.broomCut = false ∧ t.output.channels[(13 : Channel)].setpoint = 0 ∧
     (run (.armPeriodExpiry 20000) t).output.channels[(13 : Channel)].setpoint = 400) := by decide +kernel

theorem test_witness_SprayRequestsTaken :
    loaded.passes bh 23 ∧ loaded.passes dh 23 ∧ 2 < (3 : Byte).toNat ∧ (2 : Byte).toNat = 2 ∧ (1 : Byte).toNat ≤ 1 ∧
    live.passes bh 24 ∧ live.spray.latch = false ∧
    (let s := { sweeping with spray := { sweeping.spray with latch := true } }
     s.passes bh 24 ∧ s.spray.latch = true ∧ s.output.channels[(14 : Channel)].fault = .none ∧
     (run (.clearSprayFault bh) s).spray.latch = false ∧
     (let v := withChannel 14 (fun c => { c with fault := .shortLoad }) s
      v.passes bh 24 ∧ v.output.channels[(14 : Channel)].fault ≠ .none)) ∧
    (run (.sprayEnable bh 0 1) (withArm .left (fun r => { r with state := .working }) sweeping)).spray.left.active = true := by
  unfold State.passes; decide +kernel

theorem test_witness_SprayTimersAct :
    reached (live.elapse 100000).now live.periods.pump = true ∧ live.spray.anyActive = false ∧
    (pumping 19 400 0).spray.anyActive = true ∧ (pumping 6 1000 29).spray.latch = false ∧
    (let s := { spraying 0 with spray := { (spraying 0).spray with
        left := { (spraying 0).spray.left with pulseEnd := some 220 } } }
     (s.spray.bar .left).pulseEnd = some 220 ∧ reached (s.elapse 220000).now 220 = true ∧
     (run (.pulseEnd 220000 .left) s).spray.left.pulseEnd = none) := by decide +kernel

/-- `loaded` with a channel in FAULT. -/
def faulted (ch : Channel) (k : FaultKind) : State :=
  withChannel ch (fun c => { c with fault := k })
    { loaded with notices := { loaded.notices with alarms := [⟨.channelOpen, ch.val, 1, 1, 1, true⟩] } }

theorem test_witness_ChannelFaultsComeAndGo :
    (faulted 17 .openLoad).passes bh 25 ∧ 17 < (18 : Byte).toNat ∧ (17 : Byte).toNat = (17 : Channel).val ∧
    (faulted 17 .openLoad).output.channels[(17 : Channel)].setpoint = 0 ∧
    (faulted 17 .openLoad).output.channels[(17 : Channel)].fault ≠ .none ∧
    (faulted 2 .shortLoad).passes dh 25 ∧ loaded.output.channels[(2 : Channel)].fault = .none ∧
    0 < (withChannel 2 (fun c => { c with setpoint := 1 }) (faulted 2 .shortLoad)).output.channels[(2 : Channel)].setpoint ∧
    (let s := withChannel 10 (fun c => { c with setpoint := 500, target := 1000, openSince := some 0 }) sweeping
     s.output.channels[(10 : Channel)].openSince = some 0 ∧ 200000 ≤ since (s.elapse 200000).nowUs 0 ∧
     (run (.openTimerExpiry 200000 10) s).output.channels[(10 : Channel)].fault = .openLoad ∧
     (run (.openTimerExpiry 199999 10) s).output.channels[(10 : Channel)].fault = .none) ∧
    (let s := withChannel 15 (fun c => { c with setpoint := 1, target := 1, openSince := some 0 }) sweeping
     10000 ≤ since (s.elapse 10000).nowUs 0 ∧
     (run (.openTimerExpiry 10000 15) s).output.channels[(15 : Channel)].fault = .openLoad) := by
  unfold State.passes; decide +kernel

theorem test_witness_ChannelsAreHeld :
    serving.passes bh 26 ∧ 17 < (18 : Byte).toNat ∧ (17 : Byte).toNat = (17 : Channel).val ∧ live.passes bh 26 ∧
    live.unit.mode ≠ .service ∧ serving.unit.mode = .service ∧
    (let s := withChannel 5 (fun c => { c with holder := some .body, level := 900, target := 900 }) serving
     s.output.channels[(5 : Channel)].holder = some dh.link.other ∧ s.passes dh 26 ∧ s.passes bh 27 ∧ s.passes dh 27 ∧
     s.output.channels[(5 : Channel)].holder = some bh.link) ∧
    serving.output.channels[(5 : Channel)].holder = none ∧ serving.output.cutFlag 5 = false ∧
    (let s := { serving with output := { serving.output with broomCut := true } }
     s.output.cutFlag 13 = true ∧ ((run (.directDrive bh 13 1) s).link .body).answer.code = .state) := by
  unfold State.passes; decide +kernel

/-- R165: a spray valve that DIRECT_DRIVE closes stops its open timer, so the timer's expiry finds nothing. -/
theorem test_closed_valve_stops_timer :
    (let s := run (.directDrive bh 15 0) (withChannel 15 (fun c => { c with
        holder := some .body, level := 1, target := 1, openSince := some 0 }) serving)
     s.output.channels[(15 : Channel)].openSince = none ∧ s.output.stateOf 15 = .direct ∧
     (run (.openTimerExpiry 10000 15) s).output.channels[(15 : Channel)].fault = .none) := by decide +kernel

/-- A sample of 100 mA on every channel, and one of 2501 mA. -/
def sampleOf (mA : Half) (report : BitVec 18) : Samples := ⟨Vector.replicate 18 mA, report⟩

theorem test_witness_SamplesAreTaken :
    reached (live.elapse 500).nowUs live.periods.sample = true ∧
    (let s := withChannel 10 (fun c => { c with setpoint := 500, target := 1000 }) sweeping
     s.output.stateOf 10 = .driven ∧ (run (.currentSample 500 (sampleOf 499 0)) s).output.channels[(10 : Channel)].openSince =
       some 500 ∧
     (run (.currentSample 500 (sampleOf 500 0)) s).output.channels[(10 : Channel)].openSince = none ∧
     (run (.currentSample 500 (sampleOf 2501 0)) s).output.channels[(10 : Channel)].fault = .shortLoad ∧
     (run (.currentSample 500 (sampleOf 2500 0)) s).output.channels[(10 : Channel)].fault = .none) := by decide +kernel

theorem test_witness_ScanTriggersTaken :
    reached (live.elapse 5000).now live.periods.fast = true ∧ live.scan.fast = none ∧ (converting 3 live).scan.fast ≠ none ∧
    reached (live.elapse 100000).now live.periods.slow = true ∧ live.scan.slow = none ∧ (checking live).scan.slow ≠ none ∧
    (let s := { live with scan := { live.scan with slow := some ⟨.a6, .settling 1600⟩ } }
     s.scan.slow = some ⟨.a6, .settling 1600⟩ ∧ reached (s.elapse 1600).nowUs 1600 = true ∧
     (run (.slowSettleEnd 1600) s).scan.slow = some ⟨.a6, .converting⟩) := by decide +kernel

/-- A result at both ends of the scale: code 4095 gives A7 its upper end 1500, code 0 its lower end -400 (R142). -/
theorem test_witness_ConversionsFormResults :
    (converting 5 live).scan.seq = some ⟨1, 0, 4095, 0, 0⟩ ∧ (converting 5 live).scan.convStart = some 0 ∧
    (converting 5 live).scan.fast = some 5 ∧
    (let s := { live with scan := { live.scan with
        slow := some ⟨.a7, .converting⟩, seq := some ⟨8, -400, 1900, 0, 7⟩, convStart := some 0 } }
     s.scan.slow = some ⟨.a7, .converting⟩ ∧ s.scan.fast = none ∧
     (run (.conversionEnd 10 0) s).scan.results[(7 : Fin 9)].value = -400) ∧
    (run (.conversionEnd 10 4095) { live with scan := { live.scan with
        slow := some ⟨.a7, .converting⟩, seq := some ⟨1, -400, 1900, 0, 0⟩, convStart := some 0 } }
      ).scan.results[(7 : Fin 9)].value = 1500 := by decide +kernel

/-- R146: a fast trigger stops a slow conversion, the end that comes with it counts nowhere, and A0's own comes 10 µs later. -/
theorem test_stopped_conversion_counts_nowhere :
    (let s := run (.fastScanTrigger 5000) { live with scan := { live.scan with
        slow := some ⟨.a6, .converting⟩, seq := some ⟨8, 0, 1000, 900, 7⟩, convStart := some 4990 } }
     s.scan.slow = some ⟨.a6, .waiting⟩ ∧ (run (.conversionEnd 0 4095) s).scan = s.scan ∧
     (run (.conversionEnd 10 4095) s).scan.seq = some ⟨4, 0, 4500, 4095, 1⟩) := by decide +kernel

theorem test_witness_ComparatorsDetect :
    (thirdStrike 34860).scan.seq = some ⟨1, 0, 4095, 0, 0⟩ ∧ (thirdStrike 34860).scan.convStart = some 0 ∧
    (thirdStrike 34860).scan.fast = some 2 ∧ (thirdStrike 34860).gov.held = (thirdStrike 34860).scan.input3 ∧
    (converting 0 sweeping).gov.held = .forward ∧ (converting 0 sweeping).scan.input3 = .forward ∧
    (thirdStrike 34860).scan.fault = false := by decide +kernel

/-- Comparator 3 at its filter: a detection without a cut sets stall hold and its 3000 ms, and a return to CLEAR ends the stall and
its alarm (R78, R80). -/
theorem test_witness_comparator_of_the_drive :
    (let s := converting 0 { sweeping with scan := { sweeping.scan with comps := sweeping.scan.comps.set 3 ⟨false, 7⟩ } }
     let t := run (.conversionEnd 10 4095) s
     s.HeldLaw ∧ s.settings.comps[(3 : Fin 4)].cut = false ∧ t.scan.comps[(3 : Fin 4)] = ⟨true, 0⟩ ∧
     t.gov.stallHold = true ∧ t.gov.stallTimer = some 3000 ∧ t.notices = s.notices) ∧
    (let s := converting 0 { sweeping with
        scan := { sweeping.scan with comps := sweeping.scan.comps.set 3 ⟨true, 7⟩ }
        gov := { sweeping.gov with stallHold := true, stallRaised := true }
        notices := { sweeping.notices with alarms := [⟨.driveStall, 0, 1, 1, 1, true⟩] } }
     let t := run (.conversionEnd 10 0) s
     s.HeldLaw ∧ t.scan.comps[(3 : Fin 4)] = ⟨false, 0⟩ ∧ t.gov.stallHold = false ∧ t.gov.stallRaised = false ∧
     t.notices.alarms = [⟨.driveStall, 0, 1, 1, 1, false⟩]) := by
  unfold State.HeldLaw; decide +kernel

theorem test_witness_ConversionsAbandoned :
    (converting 5 live).scan.convStart = some 0 ∧ 120 ≤ since ((converting 5 live).elapse 120).nowUs 0 ∧
    live.scan.fault = false ∧
    (run (.conversionTimeout 120) (converting 5 live)).scan.fault = true ∧
    (run (.conversionTimeout 119) (converting 5 live)).scan.fault = false ∧
    (let t := run (.conversionTimeout 120) { live with scan := { live.scan with
        slow := some ⟨.a7, .converting⟩, seq := some ⟨8, -400, 1900, 0, 7⟩, convStart := some 0 } }
     t.scan.slow = some ⟨.a8, .settling 1720⟩ ∧ t.scan.results[(7 : Fin 9)].stale = true) := by decide +kernel

/-- A pass at the edges of its judgements: 24 off passes and 25 off fails; hot oil at 950; slope 1 at 80. -/
theorem test_witness_PassesComplete :
    (checking live).scan.seq = some ⟨1, 0, 4095, 0, 0⟩ ∧ (checking live).scan.convStart = some 0 ∧
    (checking live).scan.fast = none ∧ (checking live).scan.slow = some ⟨.reference, .converting⟩ ∧
    (run (.conversionEnd 10 434) (checking live)).scan.low.fail = false ∧
    (run (.conversionEnd 10 435) (checking live)).scan.low.fail = true ∧
    (let s := checking { live with scan := { live.scan with
        results := (live.scan.results.set 7 { value := 950, stale := false }).set 8 { value := -80, stale := false } } }
     ((run (.conversionEnd 10 410) s).ceiling.entry .oilHot).active = true ∧
     (run (.conversionEnd 10 410) s).scan.slope = .one) := by decide +kernel

/-- A level of 100 leaves EMPTY for LOW and oil at 899 ends OIL_HOT; both alarms go absent (R54, R135, R136). -/
theorem test_tank_and_oil_return :
    (let s := checking { live with
        spray := { live.spray with tank := .empty }
        ceiling := { live.ceiling with entries := live.ceiling.entries.set 9 { active := true, cap := 1500 } }
        notices := { live.notices with alarms := [⟨.tankEmpty, 0, 1, 1, 1, true⟩, ⟨.oilHot, 0, 1, 1, 1, true⟩] }
        scan := { live.scan with
          results := (live.scan.results.set 6 { value := 100, stale := false }).set 7 { value := 899, stale := false } } }
     let t := run (.conversionEnd 10 410) s
     t.spray.tank = .low ∧ (t.ceiling.entry .oilHot).active = false ∧
     t.notices.alarms = [⟨.tankEmpty, 0, 1, 1, 1, false⟩, ⟨.oilHot, 0, 1, 1, 1, false⟩] ∧
     t.notices.body.counts[(1 : Fin 16)] = 2) := by decide +kernel

theorem test_witness_EarlyTimersDoNothing :
    reached (live.elapse 9999).now live.periods.drive = false ∧ (live.elapse 9999).clock.frac = 999 ∧
    reached (live.elapse 99999).now 100 = false ∧ live.scan.convStart = none ∧
    (converting 5 live).scan.convStart = some 0 ∧ since ((converting 5 live).elapse 9).nowUs 0 < 10 ∧
    (sweeping.elapse 999999).bank.sweepRem < 1000 := by decide +kernel

theorem test_witness_GovernorTurnsAtZero :
    (let s := { sweeping with pending := [.drivePeriodExpiry 10000] }
     s.pending = .drivePeriodExpiry 10000 :: [] ∧
     (match step s with | .next t => decide (s.gov.vRef < t.gov.vRef) | _ => false) = true) := by decide +kernel

/-- States that meet the laws which every step keeps: the alarm list with an entry, a channel held in SERVICE, a driven pump
coil, and a reference above 0. -/
theorem test_witness_laws :
    (alarmed true).AlarmLaw ∧ (run (.directDrive bh 6 1000) serving).DirectLaw ∧
    ({ sweeping with gov := { sweeping.gov with vRef := 2200 } } : State).SpeedLaw ∧
    (withChannel 0 (fun c => { c with setpoint := 481 }) sweeping).PumpLaw := by
  unfold State.AlarmLaw State.DirectLaw State.SpeedLaw State.PumpLaw ChannelRec.pumpRests
  decide +kernel

/-- A program in force and a pending swap meet the law of the program table; a broom in FAULT that of the arm states. -/
theorem test_witness_programLaw_armLaw :
    loaded.ProgramLaw ∧ (withArm .main (fun r => { r with state := .fault }) loaded).ArmLaw := by
  refine ⟨⟨fun i p h => ?_, fun w h => ?_, fun i h => ?_, by decide⟩, fun _ a => by cases a <;> decide⟩
  · have h' : ∀ i : Fin 8, (match loaded.unit.slots[i] with | some p => p.valid | none => true) = true := by decide
    have := h' i
    rw [h] at this
    exact this
  · exact absurd h (by simp [loaded, live, State.reset, State.initial])
  · have : i = 2 := by
      have h' : loaded.unit.active = some 2 := rfl
      rw [h'] at h
      exact (Option.some.inj h).symm
    subst this
    decide

/-- An arm on its way down meets the laws of the arm states, of direct drive and of the arm coils, and came from SWEEP. -/
theorem test_witness_coilLaw :
    (let t := run (.armLower bh 0) sweeping
     (sweeping.arm .left).state ≠ .lowering ∧ (t.arm .left).state = .lowering ∧ t.ArmLaw ∧ t.DirectLaw ∧ t.CoilLaw ∧
     t.output.commanded 4 = 1) := by
  refine ⟨by decide +kernel, by decide +kernel, fun h => absurd h (by decide +kernel), ?_, fun a => ?_, by decide +kernel⟩
  · unfold State.DirectLaw
    decide +kernel
  · unfold ChannelRec.formed
    cases a <;> decide +kernel

/-- Counts at their ends meet the law of the counts; `sweeping` meets that of the loaded direction. -/
theorem test_witness_countLaw_heldLaw :
    (let s := { spraying 0 with
        travel := { rolling.travel with accumulator := 199, metreRem := 99 }, bank := { live.bank with sweptMain := 99 } }
     s.CountLaw ∧ s.HeldLaw ∧ State.reset.CountLaw) := by
  refine ⟨⟨by decide, by decide, fun a => by cases a <;> decide, fun b => by cases b <;> decide,
      fun x => ?_, fun l k => ?_, fun src => by cases src <;> decide⟩, rfl,
    ⟨by decide, by decide, fun a => by cases a <;> decide, fun b => by cases b <;> decide,
      fun x => ?_, fun l k => ?_, fun src => by cases src <;> decide⟩⟩
  · have h : (spraying 0).bank.tallies = Vector.replicate 19 0 := rfl
    show ((spraying 0).bank.tallies)[x.index] ≤ x.limit
    rw [h]
    simp
  · cases l <;> cases k <;> decide
  · have h : State.reset.bank.tallies = Vector.replicate 19 0 := rfl
    rw [h]
    simp
  · cases l <;> cases k <;> decide

/-- An active bar that owes water up to its cap of 8160 meets the laws of the bars. -/
theorem test_witness_barLaw_owedLaw : (spraying 8160).BarLaw ∧ (spraying 8160).OwedLaw := by
  unfold State.BarLaw State.OwedLaw
  constructor <;> intro b <;> cases b <;> decide +kernel

end Sys2Proof.Tests
end

section
/-! What the Mode and Program Unit answers to OPEN_EDIT, ABANDON_EDIT and ERASE_PROGRAM (R18, R21, R24): one equation for each
answer of its three acts, on any state, and from them the two statements about these requests. -/

namespace Sys2Proof

/-- There are two links. -/
theorem Link.ne_iff_eq_other {k l : Link} : k ≠ l ↔ k = l.other := by
  cases k <;> cases l <;> decide

end Sys2Proof

namespace Sys2Proof.Machine

/-! ### Requests and slot numbers -/

/-- The port's step 1 leaves the unit as it is (R180). -/
@[simp] theorem State.taken_unit (h : Head) (s : State) : (s.taken h).unit = s.unit := by
  rw [(State.taken_rest h s).1]
  simp

/-- A request that passes the gate is answered as its owner's act says on the state that step 1 leaves (R180). -/
theorem State.serve_eq_answered {h : Head} {kind : Nat} {s t : State} {act : State → State × Reply} {c : Code}
    (hp : s.passes h kind) (ha : act (s.taken h) = answer c t) : s.serve h kind act = t.answered h kind c [] := by
  rw [State.serve_passes hp, ha]
  rfl

theorem slotOf_eq_none {n : Nat} (h : 7 < n) : slotOf n = none := dif_neg (by omega)

@[simp] theorem slotOf_val (i : Fin 8) : slotOf i.val = some i := dif_pos i.isLt

theorem exists_slotOf {n : Nat} (h : n ≤ 7) : ∃ i, slotOf n = some i := ⟨_, dif_pos (by omega)⟩

/-! ### OPEN_EDIT (R18) -/

section OpenEdit
variable {l : Link} {slot : Byte} {i : Fin 8} {s : State}

theorem State.openEdit_unknown (hs : slotOf slot.toNat = none) : s.openEdit l slot = answer .unknown s := by
  simp only [State.openEdit, hs]

theorem State.openEdit_claimed {g : Staging} (hs : slotOf slot.toNat = some i) (hg : s.unit.staging = some g) :
    s.openEdit l slot = answer (if g.holder = l then .busy else .held) s := by
  simp only [State.openEdit, hs, hg]
  split <;> rfl

theorem State.openEdit_swapping (hs : slotOf slot.toNat = some i) (hg : s.unit.staging = none)
    (hw : s.unit.swap.isSome = true) : s.openEdit l slot = answer .busy s := by
  simp only [State.openEdit, hs, hg, hw, if_true]

theorem State.openEdit_free (hs : slotOf slot.toNat = some i) (hg : s.unit.staging = none) (hw : s.unit.swap = none) :
    s.openEdit l slot = answer .done { s with unit := { s.unit with
      staging := some ⟨l, i, s.unit.slots[i].getD {}, later s.now 2000⟩ } } := by
  have hn : ¬s.unit.swap.isSome = true := by simp [hw]
  simp only [State.openEdit, hs, hg, if_neg hn]
  rfl

end OpenEdit

/-! ### ABANDON_EDIT (R21) -/

section AbandonEdit
variable {l : Link} {g : Staging} {s : State}

theorem State.abandonEdit_unclaimed (hg : s.unit.staging = none) : s.abandonEdit l = answer .notActive s := by
  simp only [State.abandonEdit, hg]

theorem State.abandonEdit_held (hg : s.unit.staging = some g) (hl : g.holder ≠ l) :
    s.abandonEdit l = answer .held s := by
  simp only [State.abandonEdit, hg, if_neg hl]

theorem State.abandonEdit_holder (hg : s.unit.staging = some g) (hl : g.holder = l) :
    s.abandonEdit l = answer .done { s with unit := { s.unit with staging := none } } := by
  simp only [State.abandonEdit, hg, if_pos hl]
  rfl

end AbandonEdit

/-- Settles O22: each answer is an equation of the unit's act, met by the unit that the port's step 1 leaves as it was. -/
theorem editOpensAndIsAbandoned : Obligations.EditOpensAndIsAbandoned := by
  intro h slot s
  rw [← State.taken_unit h s]
  refine ⟨fun hp => ⟨⟨fun hs => ?unknown, fun g hs hg hl => ?held, fun g hs hg hl => ?own, fun hs hg hw => ?swapping⟩,
      fun i hi hg hw => ?opened⟩,
    fun hp => ⟨fun hg => ?unclaimed, fun g hg hl => ?notHolder, fun g hg hl => ?abandoned⟩⟩ <;>
    refine congrArg Host.Outcome.next (State.serve_eq_answered hp ?_)
  case unknown => exact State.openEdit_unknown (slotOf_eq_none hs)
  case held =>
    obtain ⟨i, hi⟩ := exists_slotOf hs
    rw [State.openEdit_claimed hi hg, if_neg hl]
  case own =>
    obtain ⟨i, hi⟩ := exists_slotOf hs
    rw [State.openEdit_claimed hi hg, if_pos hl]
  case swapping =>
    obtain ⟨i, hi⟩ := exists_slotOf hs
    exact State.openEdit_swapping hi hg hw
  case opened => exact State.openEdit_free (by rw [hi, slotOf_val]) hg hw
  case unclaimed => exact State.abandonEdit_unclaimed hg
  case notHolder => exact State.abandonEdit_held hg hl
  case abandoned => exact State.abandonEdit_holder hg hl

/-! ### ERASE_PROGRAM (R24) -/

/-- A link holds the claim on a slot (R17). -/
def ModeUnit.claims (u : ModeUnit) (i : Fin 8) (l : Link) : Bool :=
  u.staging.any fun g => g.slot == i && g.holder == l

/-- A pending swap targets a slot (R27). -/
def ModeUnit.swapsInto (u : ModeUnit) (i : Fin 8) : Bool := u.swap.any fun w => w.target == i

section EraseProgram
variable {l : Link} {slot : Byte} {i : Fin 8} {s : State} {u : ModeUnit}

theorem ModeUnit.claims_iff : u.claims i l = true ↔ ∃ g, u.staging = some g ∧ g.slot = i ∧ g.holder = l := by
  simp [ModeUnit.claims, Option.any_eq_true]

theorem ModeUnit.swapsInto_iff : u.swapsInto i = true ↔ ∃ w, u.swap = some w ∧ w.target = i := by
  simp [ModeUnit.swapsInto, Option.any_eq_true]

/-- One staging record has one holder. -/
theorem ModeUnit.not_claims_other (h : u.claims i l = true) : ¬u.claims i l.other = true := by
  obtain ⟨g, hg, -, hl⟩ := ModeUnit.claims_iff.1 h
  intro ho
  obtain ⟨g', hg', -, hl'⟩ := ModeUnit.claims_iff.1 ho
  obtain rfl : g = g' := Option.some.inj (hg.symm.trans hg')
  exact Link.ne_iff_eq_other.2 hl' hl

/-- The staging record that ERASE_PROGRAM finds for its slot has another holder. -/
theorem ModeUnit.staging_filter_any :
    ((u.staging.filter fun g => g.slot == i).any fun g => g.holder != l) = u.claims i l.other := by
  rw [Bool.eq_iff_iff, ModeUnit.claims_iff]
  simp [Option.any_eq_true, Link.ne_iff_eq_other]

/-- ERASE_PROGRAM finds a staging record for its slot. -/
theorem ModeUnit.staging_filter_isSome :
    (u.staging.filter fun g => g.slot == i).isSome = (u.claims i l.other || u.claims i l) := by
  rw [Bool.eq_iff_iff, Bool.or_eq_true, ModeUnit.claims_iff, ModeUnit.claims_iff, Option.isSome_iff_exists]
  simp only [Option.filter_eq_some_iff, beq_iff_eq]
  constructor
  · rintro ⟨g, hg, hs⟩
    by_cases hl : g.holder = l
    · exact .inr ⟨g, hg, hs, hl⟩
    · exact .inl ⟨g, hg, hs, Link.ne_iff_eq_other.1 hl⟩
  · rintro (⟨g, hg, hs, -⟩ | ⟨g, hg, hs, -⟩) <;> exact ⟨g, hg, hs⟩

theorem State.eraseProgram_unknown (hs : slotOf slot.toNat = none) : s.eraseProgram l slot = answer .unknown s := by
  simp only [State.eraseProgram, hs]

/-- ERASE_PROGRAM on a slot of the table: the checks of R24 in their order, and the erase when all pass. -/
theorem State.eraseProgram_slot (hs : slotOf slot.toNat = some i) : s.eraseProgram l slot =
    if s.unit.active = some i then answer .state s
    else if s.unit.claims i l.other then answer .held s
    else if s.unit.claims i l then answer .busy s
    else if s.unit.swapsInto i then answer .busy s
    else if s.unit.slots[i] = none then answer .empty s
    else answer .done { s with unit := { s.unit with slots := s.unit.slots.set i none } } := by
  simp only [State.eraseProgram, hs, ModeUnit.staging_filter_any, ModeUnit.staging_filter_isSome (l := l),
    Option.isNone_iff_eq_none]
  by_cases ho : s.unit.claims i l.other = true
  · simp only [ho, if_true]
  · rw [Bool.not_eq_true] at ho
    simp only [ho, Bool.false_or]
    rfl

end EraseProgram

/-- Settles O25: the equation of the unit's act on a slot, with the checks before each answer decided. -/
theorem programIsErased : Obligations.ProgramIsErased := by
  intro h slot s hp
  rw [← State.taken_unit h s]
  have erase {c : Code} {t : State} (ha : (s.taken h).eraseProgram h.link slot = answer c t) :
      exec (.eraseProgram h slot) s = .next (t.answered h 16 c []) :=
    congrArg Host.Outcome.next (State.serve_eq_answered hp ha)
  refine ⟨fun hs => erase (State.eraseProgram_unknown (slotOf_eq_none hs)), fun i hi => ?_⟩
  have checks := State.eraseProgram_slot (l := h.link) (s := s.taken h) (slot := slot) (i := i) (by rw [hi, slotOf_val])
  simp only [← ModeUnit.claims_iff, ← ModeUnit.swapsInto_iff]
  split
  case isTrue ha => exact erase (by rw [checks, if_pos ha])
  case isFalse ha =>
    rw [if_neg ha] at checks
    refine ⟨fun ho => erase (by rw [checks, if_pos ho]), fun hc => erase ?_, fun hd hb => ?_⟩
    · rw [checks, if_neg (ModeUnit.not_claims_other hc), if_pos hc]
    · have free (l : Link) : ¬(s.taken h).unit.claims i l = true := by cases l <;> assumption
      rw [if_neg (free _), if_neg (free _)] at checks
      refine ⟨fun hw => erase (by rw [checks, if_pos hw]), fun hw he => erase ?_, fun hw he => erase ?_⟩
      · rw [checks, if_neg hw, if_pos he]
      · rw [checks, if_neg hw, if_neg (Option.isSome_iff_ne_none.1 he)]

end Sys2Proof.Machine
end

section
/-! One walk over the meaning of every command, for a predicate of a state that the acts of the blocks keep. An invariant of
`step` is then the acts alone: `State.Kept P` lists them, each under the guard that the model's callers meet, and
`State.Kept.step` says that every step keeps `P`. -/

namespace Sys2Proof.Machine

/-! ### The guards -/

/-- STOWED or FAULT: the arm is not out (R10). -/
def ArmState.isDown (st : ArmState) : Prop := st = .stowed ∨ st = .fault

/-- The change of an arm's state is one the Arm Controller makes outside a lowering: the arm comes down, was out already, or
the mode is a working one (R93, R96, R98, R99). -/
def State.mayMove (a : Arm) (f : ArmRec → ArmRec) (s : State) : Prop :=
  (f (s.arm a)).state ≠ .lowering ∧
    ((f (s.arm a)).state.isDown ∨ ¬(s.arm a).state.isDown ∨ s.unit.mode.working = true)

/-- The mode changes that the unit makes with `setMode` alone (R6, R7, R9 to R12). -/
inductive State.MayEnter (s : State) : Mode → Prop
  | entering (h : s.unit.mode = .transport) (ha : s.unit.active.isSome = true) : s.MayEnter .entering
  | sweep (h : s.unit.mode = .entering) : s.MayEnter .sweep
  | leaving (h : s.unit.mode = .entering ∨ s.unit.mode = .sweep) : s.MayEnter .leaving
  | transport (h : s.unit.mode = .leaving) (hd : s.arms.allDown = true) : s.MayEnter .transport
  | service (h : s.unit.mode = .transport) (hs : s.standsForService = true) : s.MayEnter .service

/-- The unit's record changes in its marks, its staging record and its cycle timers only. -/
def ModeUnit.sameProgram (u v : ModeUnit) : Prop :=
  v.mode = u.mode ∧ v.slots = u.slots ∧ v.active = u.active ∧ v.swap = u.swap

/-- A program may stand in a slot or a swap: it is valid, or it stands in the table or the pending swap already. -/
def ModeUnit.mayHold (u : ModeUnit) (p : Program) : Prop :=
  p.valid = true ∨ (∃ i : Fin 8, u.slots[i] = some p) ∨ ∃ w, u.swap = some w ∧ w.record = p

/-- The slot `i` becomes the active one and holds `p`; a pending swap stands or is gone. -/
def ModeUnit.turnsTo (i : Fin 8) (p : Program) (u v : ModeUnit) : Prop :=
  v.mode = u.mode ∧ v.slots = u.slots.set i (some p) ∧ v.active = some i ∧ (v.swap = u.swap ∨ v.swap = none)

/-- The spray record changes in the conditions of the bars only: enables, valve faults, tank and latch. -/
def Spray.sameWater (y z : Spray) : Prop :=
  ∀ b : Bar, z.bar b = { y.bar b with enable := (z.bar b).enable, valveFault := (z.bar b).valveFault }

/-- The spray record changes in the pump's values and the level read only. -/
def Spray.sameBars (y z : Spray) : Prop :=
  (∀ b : Bar, z.bar b = y.bar b) ∧ z.tank = y.tank ∧ z.latch = y.latch

/-- A channel's record changes in its carrier's place and values, its measured current and its open timer only. -/
def ChannelRec.sameTarget (c d : ChannelRec) : Prop :=
  d.setpoint = c.setpoint ∧ d.target = c.target ∧ d.fault = c.fault ∧ d.holder = c.holder ∧ d.level = c.level ∧
    (c.carrier.part = .rest → d.carrier.part = .rest)

/-- No alarm comes and no event is counted. -/
def Notices.quieter (n m : Notices) : Prop :=
  m.alarms.Sublist n.alarms ∧
    ∀ (l : Link) (k : EventKind), (m.events l).counts[k.index] ≤ (n.events l).counts[k.index]

/-! ### The acts -/

/-- The acts that a kept predicate is to be kept by, but for the change of an arm's state. -/
structure State.KeptCore (P : State → Prop) : Prop where
  elapse : ∀ {us s}, P s → P (s.elapse us)
  periods : ∀ {f s}, P s → P (s.modPeriods f)
  links : ∀ {f s}, P s → P (s.modLinks f)
  freeCount : ∀ {f s}, P s → P (s.modFreeCount f)
  post : ∀ {k l s}, P s → P (s.post k l)
  quiet : ∀ {f s}, (∀ n : Notices, n.quieter (f n)) → P s → P (s.modNotices f)
  raiseAlarm : ∀ {c d s}, P s → P (s.raiseAlarm c d)
  alarmGone : ∀ {c d s}, P s → P (s.alarmGone c d)
  bumpBy : ∀ {x n s}, P s → P (s.bumpBy x n)
  bank : ∀ {f s}, (∀ b : TallyBank, (∀ a, (f b).swept a = b.swept a) ∧
    ∀ x : Tally, (f b).tallies[x.index] ≤ b.tallies[x.index]) → P s → P (s.modBank f)
  activate : ∀ {src cap s}, src ≠ .mode → P s → P (s.activate src cap)
  deactivate : ∀ {src s}, src ≠ .mode → P s → P (s.deactivate src)
  updateCap : ∀ {src cap s}, src ≠ .mode → P s → P (s.updateCap src cap)
  travel : ∀ {f s}, (∀ t : Travel, (f t).accumulator = t.accumulator ∧ (f t).metreRem = t.metreRem) →
    P s → P (s.modTravel f)
  addDistance : ∀ {w s}, P s → P (s.addDistance w)
  scan : ∀ {f s}, (∀ x : Scan, (f x).input3 = x.input3) → P s → P (s.modScan f)
  gov : ∀ {f s}, (∀ g : Governor, (f g).held = g.held ∧ (f g).vRef ≤ g.vRef) → P s → P (s.modGov f)
  setpoint : ∀ {ch v s}, ch = 2 ∨ ch = 14 ∨ ch.val < 2 ∧ v = 0 → P s → P (s.postSetpoint ch v)
  trim : ∀ {ch f s}, (∀ c : ChannelRec, c.sameTarget (f c)) → P s → P (s.modOutput (Output.modChannel ch f))
  endDirect : ∀ {ch s}, P s → P (s.endDirect ch)
  faultChannel : ∀ {ch kind s}, kind ≠ FaultKind.none → P s →
    P (s.changeChannel ch fun c => { c.release with fault := kind, openSince := none })
  mendChannel : ∀ {ch s}, s.output.channels[ch].fault ≠ .none → s.output.channels[ch].setpoint = 0 → P s →
    P (s.changeChannel ch fun c => { c with fault := .none })
  takeDirect : ∀ {ch l level s}, 2 ≤ ch.val → s.unit.mode = .service → s.output.channels[ch].fault = .none →
    s.interlocked ch level = false → P s → P (s.takeDirect ch l level)
  setDriveCut : ∀ {s}, P s → P s.setDriveCut
  broomCut : ∀ {s}, P s → P s.setBroomCut.seeBroomCut
  releaseBroom : ∀ {s}, P s → P s.releaseBroom
  unit : ∀ {f s}, (∀ u : ModeUnit, u.sameProgram (f u)) → P s → P (s.modUnit f)
  setMode : ∀ {m s}, s.MayEnter m → P s → P (s.setMode m)
  leaveService : ∀ {s}, s.unit.mode = .service → P s → P s.leaveService
  turn : ∀ {f i p s}, s.unit.turnsTo i p (f s.unit) → s.unit.mayHold p → P s → P (s.modUnit f).programChanged
  store : ∀ {i : Fin 8} {o s}, s.unit.active ≠ some i → (∀ p ∈ o, s.unit.mayHold p) → P s →
    P (s.modUnit fun u => { u with slots := u.slots.set i o })
  pend : ∀ {w s}, s.unit.mayHold w.record → P s → P (s.modUnit fun u => { u with swap := some w })
  armFlags : ∀ {f s}, (∀ x : Arms, (∀ a, (f x).get a = x.get a) ∧ (f x).cutSeen = x.cutSeen) → P s → P (s.modArms f)
  armMarks : ∀ {a f s}, (∀ r : ArmRec, (f r).state = r.state ∧ (f r).phase = r.phase ∧ (f r).rot = r.rot) →
    P s → P (s.modArm a f)
  rephase : ∀ {a f s}, (s.arm a).state = .yielding → (∀ r : ArmRec, (f r).state = r.state) →
    P s → P ((s.modArm a f).postCoils a)
  postRotation : ∀ {a s}, P s → P (s.postRotation a (s.rotation a))
  postForce : ∀ {a v s}, P s → P (s.postForce a v)
  judgeBars : ∀ {s}, P s → P s.judgeBars
  settleBars : ∀ {f s}, (∀ y : Spray, y.sameWater (f y)) → P s → P (s.modSpray f).judgeBars
  pump : ∀ {f s}, s.spray.sameBars (f s.spray) → P s → P (s.modSpray f)
  cycleStart : ∀ {b s}, P s → P (s.cycleStart b)
  closeValve : ∀ {b s}, P s → P ((s.postSetpoint b.valve 0).modBar b fun x => { x with pulseEnd := none })
  settings : ∀ {k v s}, s.settingsOpen = true → k.accepts s.settings v = true → k ≠ .transportMax → P s →
    P (s.modSettings fun x => x.put v k)
  transportMax : ∀ {v s}, s.settingsOpen = true → P s → P (s.modSettings fun x => x.put v .transportMax).writeModeCap

/-- The acts that a kept predicate is to be kept by. -/
structure State.Kept (P : State → Prop) : Prop extends State.KeptCore P where
  moveArm : ∀ {a f s}, s.mayMove a f → P s → P (s.moveArm a f)

/-! ### Reports and ceilings -/

section
variable {P : State → Prop} {s : State}

theorem State.KeptCore.postBoth (k : State.KeptCore P) {e : EventKind} (h : P s) : P (s.postBoth e) := k.post (k.post h)

theorem State.KeptCore.bump (k : State.KeptCore P) {x : Tally} (h : P s) : P (s.bump x) := k.bumpBy h

theorem State.KeptCore.keepEntry (k : State.KeptCore P) {src : Source} {holds : Bool} {cap : Nat} (hs : src ≠ .mode)
    (h : P s) : P (s.keepEntry src holds cap) := by
  unfold State.keepEntry
  split
  · exact k.activate hs h
  · split
    · exact k.deactivate hs h
    · exact h

theorem State.KeptCore.judgeArmEntries (k : State.KeptCore P) (h : P s) : P s.judgeArmEntries :=
  k.keepEntry Source.noConfusion (k.keepEntry Source.noConfusion (k.keepEntry Source.noConfusion h))

/-- What the end of DIRECT on each channel keeps, its end on every channel of some holders keeps (R172). -/
theorem State.endDirectWhere_keeps {p : Link → Bool} (hp : ∀ {ch : Channel} {s : State}, P s → P (s.endDirect ch)) (h : P s) :
    P (s.endDirectWhere p) := by
  unfold State.endDirectWhere
  generalize allChannels = list
  induction list generalizing s with
  | nil => exact h
  | cons c rest ih =>
    rw [List.foldl_cons]
    split
    · exact ih (hp h)
    · exact ih h

theorem State.KeptCore.endDirectWhere (k : State.KeptCore P) {p : Link → Bool} (h : P s) : P (s.endDirectWhere p) :=
  State.endDirectWhere_keeps k.endDirect h

/-! ### The unit and the governor's range request -/

theorem State.modUnit_postBoth (f : ModeUnit → ModeUnit) (e : EventKind) (s : State) :
    (s.modUnit f).postBoth e = (s.postBoth e).modUnit f := rfl

theorem State.KeptCore.applySwap (k : State.KeptCore P) (h : P s) : P s.applySwap := by
  unfold State.applySwap
  split
  · exact h
  · next w hw =>
    rw [State.modUnit_postBoth]
    exact k.turn (i := w.target) (p := w.record) ⟨rfl, rfl, rfl, .inr rfl⟩ (.inr (.inr ⟨w, hw, rfl⟩)) (k.postBoth h)

theorem State.KeptCore.reachTransport (k : State.KeptCore P) (hm : s.unit.mode = .leaving) (hd : s.arms.allDown = true)
    (h : P s) : P s.reachTransport :=
  k.applySwap (k.setMode (.transport hm hd) (k.unit (fun _ => ⟨rfl, rfl, rfl, rfl⟩) h))

theorem State.KeptCore.requestRange (k : State.KeptCore P) {r : Range} (h : P s) : P (s.requestRange r) := by
  have asked := k.activate (src := .rangeShift) (cap := s.settings.caps.shiftSpeed) Source.noConfusion
    (k.gov (f := fun g => { g with requested := some r }) (fun _ => ⟨rfl, le_rfl⟩) h)
  unfold State.requestRange
  refine k.gov (fun g => ?_) asked
  split
  · exact ⟨rfl, le_rfl⟩
  · split <;> exact ⟨rfl, le_rfl⟩

theorem State.KeptCore.leavingCheck (k : State.KeptCore P) (h : P s) : P s.leavingCheck := by
  unfold State.leavingCheck
  split
  · next hl =>
    split
    · exact k.reachTransport hl.1 hl.2 h
    · split
      · exact h
      · exact k.requestRange (k.unit (fun _ => ⟨rfl, rfl, rfl, rfl⟩) h)
  · exact h

theorem State.KeptCore.announceArms (k : State.KeptCore P) (h : P s) : P s.announceArms :=
  k.judgeBars (k.leavingCheck (k.postBoth h))

/-- A change of an arm's state keeps what the posting of its coils for the new state keeps (R110, R111). -/
theorem State.KeptCore.moved (k : State.KeptCore P) {a : Arm} {f : ArmRec → ArmRec}
    (h : P ((s.modArm a f).postCoils a)) : P (s.moveArm a f) := k.announceArms (k.judgeArmEntries h)

/-- A predicate that the posting of an arm's coils for its new state keeps is kept by the whole change (R110, R111). -/
theorem State.KeptCore.kept (k : State.KeptCore P)
    (post : ∀ {a f s}, s.mayMove a f → P s → P ((s.modArm a f).postCoils a)) : State.Kept P where
  toKeptCore := k
  moveArm hm h := k.moved (post hm h)

theorem State.KeptCore.takeRangeDone (k : State.KeptCore P) {r : Range} (h : P s) : P (s.takeRangeDone r) := by
  unfold State.takeRangeDone
  split
  · exact h
  · split
    · next hm _ => exact k.setMode (.sweep hm) (k.unit (fun _ => ⟨rfl, rfl, rfl, rfl⟩) h)
    · next hm _ =>
      split
      · next hd => exact k.reachTransport hm hd h
      · exact k.unit (fun _ => ⟨rfl, rfl, rfl, rfl⟩) h
    · exact h

theorem State.KeptCore.lapseClaim (k : State.KeptCore P) (h : P s) : P s.lapseClaim := by
  unfold State.lapseClaim
  split
  · exact h
  · exact k.post (k.unit (fun _ => ⟨rfl, rfl, rfl, rfl⟩) h)

theorem State.KeptCore.completeRange (k : State.KeptCore P) (h : P s) : P s.completeRange :=
  k.deactivate (by decide) (k.gov (fun _ => ⟨rfl, le_rfl⟩) (k.takeRangeDone h))

theorem State.KeptCore.shiftTest (k : State.KeptCore P) (h : P s) : P s.shiftTest := by
  unfold State.shiftTest
  split
  · split
    · exact k.setpoint (.inl rfl) (k.gov (fun _ => ⟨rfl, le_rfl⟩) h)
    · exact h
  · exact h
  · split
    · exact k.completeRange h
    · exact h

theorem State.KeptCore.governorClear (k : State.KeptCore P) (h : P s) : P s.governorClear := by
  have hg := k.gov (f := fun g => { g with stallHold := false, stallTimer := none, stallRaised := false })
    (fun _ => ⟨rfl, le_rfl⟩) h
  unfold State.governorClear
  dsimp only
  split
  · exact k.alarmGone hg
  · exact hg

theorem State.modGov_postSetpoint (f : Governor → Governor) (ch : Channel) (v : Nat) (s : State) :
    (s.modGov f).postSetpoint ch v = (s.postSetpoint ch v).modGov f := rfl

theorem State.KeptCore.governorDetection (k : State.KeptCore P) {cut : Bool} (h : P s) :
    P (s.governorDetection cut) := by
  unfold State.governorDetection
  dsimp only
  split
  · refine k.raiseAlarm ?_
    rw [State.modGov_postSetpoint, State.modGov_postSetpoint]
    exact k.gov (fun g => ⟨rfl, Nat.zero_le _⟩)
      (k.setpoint (.inr (.inr ⟨by decide, rfl⟩)) (k.setpoint (.inr (.inr ⟨by decide, rfl⟩)) h))
  · exact k.gov (fun _ => ⟨rfl, le_rfl⟩) h

/-- A drive period expiry keeps what its four steps, the values read and the cut release keep (R64). -/
theorem State.KeptCore.drivePeriod (k : State.KeptCore P) (turn : ∀ {s}, P s → P s.takeDirection)
    (read : ∀ {r s}, P s → P (s.keepRead r)) (period : ∀ {r x s}, P s → P (s.modGov (Governor.period r x)))
    (pump : ∀ {s}, P s → P s.postPump) (release : ∀ {s}, P s → P s.releaseDrive) (h : P s) : P s.drivePeriod :=
  release (pump (period (read (turn (k.shiftTest h)))))

/-! ### The bars -/

theorem State.modSpray_postBoth (f : Spray → Spray) (e : EventKind) (s : State) :
    (s.modSpray f).postBoth e = (s.postBoth e).modSpray f := rfl

theorem State.modSpray_raiseAlarm (f : Spray → Spray) (c : AlarmCode) (d : Nat) (s : State) :
    (s.modSpray f).raiseAlarm c d = (s.raiseAlarm c d).modSpray f := by
  have e : raiseIn (s.modSpray f).now c d (s.modSpray f).notices.alarms = raiseIn s.now c d s.notices.alarms := rfl
  unfold State.raiseAlarm
  rw [e]
  split <;> rfl

theorem State.modSpray_alarmGone (f : Spray → Spray) (c : AlarmCode) (d : Nat) (s : State) :
    (s.modSpray f).alarmGone c d = (s.alarmGone c d).modSpray f := by
  unfold State.alarmGone
  rw [State.modSpray_notices]
  split <;> rfl

theorem State.KeptCore.setDryLatch (k : State.KeptCore P) (h : P s) : P s.setDryLatch := by
  unfold State.setDryLatch
  split
  · exact h
  · rw [State.modSpray_raiseAlarm]
    exact k.settleBars (fun _ b => by cases b <;> rfl) (k.raiseAlarm h)

theorem State.KeptCore.clearDryLatch (k : State.KeptCore P) (h : P s) : P s.clearDryLatch := by
  unfold State.clearDryLatch
  rw [State.modSpray_alarmGone]
  exact k.settleBars (fun _ b => by cases b <;> rfl) (k.alarmGone h)

theorem State.KeptCore.takeLevel (k : State.KeptCore P) {r : Result} (h : P s) : P (s.takeLevel r) := by
  unfold State.takeLevel
  dsimp only
  split
  · exact h
  · split
    · next ht => exact k.pump ⟨fun b => by cases b <;> rfl, ht, rfl⟩ h
    · split
      · rw [State.modSpray_postBoth, State.modSpray_raiseAlarm]
        exact k.settleBars (fun _ b => by cases b <;> rfl) (k.raiseAlarm (k.postBoth h))
      · rw [State.modSpray_postBoth]
        split
        · rw [State.modSpray_alarmGone]
          exact k.settleBars (fun _ b => by cases b <;> rfl) (k.alarmGone (k.postBoth h))
        · exact k.settleBars (fun _ b => by cases b <;> rfl) (k.postBoth h)

theorem State.KeptCore.pumpPeriod (k : State.KeptCore P) (h : P s) : P s.pumpPeriod := by
  have hp : ∀ duty dry pressure, P ((s.modSpray fun y =>
      { y with duty := duty, dryCount := dry, pressure := pressure }).postSetpoint 14 duty) := fun _ _ _ =>
    k.setpoint (.inr (.inl rfl)) (k.pump ⟨fun b => by cases b <;> rfl, rfl, rfl⟩ h)
  unfold State.pumpPeriod
  exact iteInduction (fun _ => k.setDryLatch (hp _ _ _)) fun _ => hp _ _ _

end

/-! ### The arms -/

section
variable {P : State → Prop} {s : State}

/-- A change of an arm's state leaves the new record but for the rotation and the force posted. -/
theorem State.moveArm_state (a : Arm) (f : ArmRec → ArmRec) (s : State) :
    ((s.moveArm a f).arm a).state = (f (s.arm a)).state := by
  rw [(State.moveArm_spec a f s).2]

theorem State.KeptCore.markPending (k : State.KeptCore P) {a : Arm} {v : Bool} (h : P s) : P (s.markPending a v) :=
  k.announceArms (k.judgeArmEntries (k.armMarks (fun _ => ⟨rfl, rfl, rfl⟩) h))

theorem State.KeptCore.clearHoldDone (k : State.KeptCore P) {a : Arm} (h : P s) : P (s.clearHoldDone a) := by
  unfold State.clearHoldDone
  split
  · exact k.armFlags (fun _ => ⟨fun b => by cases b <;> rfl, rfl⟩) h
  · exact h

theorem State.clearHoldDone_arm (a b : Arm) (s : State) : (s.clearHoldDone a).arm b = s.arm b := by
  unfold State.clearHoldDone
  split
  · cases b <;> rfl
  · rfl

theorem State.Kept.startRaise (k : State.Kept P) {a : Arm}
    (ho : ¬(s.arm a).state.isDown ∨ s.unit.mode.working = true) (h : P s) : P (s.startRaise a) :=
  k.moveArm ⟨ArmState.noConfusion, .inr (by rw [State.clearHoldDone_arm]; simpa using ho)⟩ (k.clearHoldDone h)

theorem State.Kept.raiseArm (k : State.Kept P) {a : Arm} (h : P s) : P (s.raiseArm a) := by
  unfold State.raiseArm
  split
  all_goals try exact h
  case _ hs => exact k.startRaise (.inl (by rw [hs]; simp [ArmState.isDown])) h
  case _ hs => exact k.startRaise (.inl (by rw [hs]; simp [ArmState.isDown])) h
  case _ hs => exact k.startRaise (.inl (by rw [hs]; simp [ArmState.isDown])) h
  case _ hs => exact k.startRaise (.inl (by rw [hs]; simp [ArmState.isDown])) h
  case _ hs =>
    split
    · exact k.markPending h
    · exact h

theorem State.Kept.stow (k : State.Kept P) {a : Arm} (h : P s) : P (s.stow a) :=
  k.moveArm ⟨ArmState.noConfusion, .inl (.inl rfl)⟩ h

theorem State.Kept.enterLeaving (k : State.Kept P) (hm : s.unit.mode = .entering ∨ s.unit.mode = .sweep) (h : P s) :
    P s.enterLeaving :=
  k.leavingCheck (k.raiseArm (k.raiseArm (k.raiseArm
    (k.setMode (.leaving hm) (k.unit (fun _ => ⟨rfl, rfl, rfl, rfl⟩) h)))))

theorem State.Kept.faultArm (k : State.Kept P) {a : Arm} (h : P s) : P (s.faultArm a) := by
  unfold State.faultArm
  dsimp only
  split
  · exact h
  · refine k.raiseAlarm (k.moveArm ⟨ArmState.noConfusion, .inl (.inr rfl)⟩ (k.clearHoldDone ?_))
    split
    · exact k.postBoth h
    · exact h

theorem State.Kept.startYield (k : State.Kept P) {a : Arm} (ho : ¬(s.arm a).state.isDown) (h : P s) :
    P (s.startYield a) := by
  unfold State.startYield
  dsimp only
  split
  · exact k.armMarks (fun _ => ⟨rfl, rfl, rfl⟩) h
  · next hy _ => exact k.rephase hy (fun _ => rfl) h
  · exact k.moveArm ⟨ArmState.noConfusion, .inr (.inl ho)⟩ h

theorem State.Kept.strike (k : State.Kept P) {a : SideArm} (ho : ¬(s.arm a.arm).state.isDown) (h : P s) :
    P (s.strike a) := by
  have marked : ∀ list, ¬(((((s.bump (.strikes a)).postBoth .strike).modArm a.arm fun r =>
      { r with strikes := list }).arm a.arm).state.isDown) := fun list => by
    rw [State.modArm_arm_same]; exact ho
  have hm := fun list => k.armMarks (a := a.arm) (f := fun r => { r with strikes := list })
    (fun _ => ⟨rfl, rfl, rfl⟩) (k.postBoth (e := .strike) (k.bump (x := .strikes a) h))
  unfold State.strike
  dsimp only
  split
  · exact k.alarmGone (k.raiseAlarm (k.startRaise (.inl (marked [])) (hm [])))
  · exact k.startYield (marked _) (hm _)

theorem State.Kept.sideDetection (k : State.Kept P) {a : SideArm} (h : P s) : P (s.sideDetection a) := by
  unfold State.sideDetection
  split
  all_goals try exact h
  case _ hs => exact k.strike (by rw [hs]; simp [ArmState.isDown]) h
  case _ hs => exact k.strike (by rw [hs]; simp [ArmState.isDown]) h

theorem State.Kept.broomWorks (k : State.Kept P) (ho : s.arms.main.state = .jammed) (h : P s) : P s.broomWorks :=
  k.moveArm ⟨ArmState.noConfusion, .inr (.inl (by
    rw [show (s.arm .main).state = .jammed from ho]; simp [ArmState.isDown]))⟩ h

theorem State.Kept.jam (k : State.Kept P) (ho : s.arms.main.state = .working) (h : P s) : P s.jam := by
  have out : ¬(s.arm .main).state.isDown := by
    rw [show (s.arm .main).state = .working from ho]; simp [ArmState.isDown]
  unfold State.jam
  dsimp only
  split
  · exact k.raiseAlarm (k.moveArm ⟨ArmState.noConfusion, .inr (.inl out)⟩
      (k.armFlags (fun _ => ⟨fun b => by cases b <;> rfl, rfl⟩) (k.bump h)))
  · exact k.moveArm ⟨ArmState.noConfusion, .inr (.inl out)⟩
      (k.armFlags (fun _ => ⟨fun b => by cases b <;> rfl, rfl⟩) (k.bump h))

/-- The broom's part of a detection, after the cut has been seen (R106). -/
theorem State.Kept.broomDetection_false (k : State.Kept P) (h : P s) : P (s.broomDetection false) := by
  unfold State.broomDetection
  simp only [Bool.false_eq_true, if_false]
  split
  all_goals try exact h
  case _ hs => exact k.jam hs h
  case _ =>
    split
    · exact h
    · exact k.armMarks (fun _ => ⟨rfl, rfl, rfl⟩) (k.armFlags (fun _ => ⟨fun b => by cases b <;> rfl, rfl⟩) h)

theorem State.broomDetection_true (s : State) : s.broomDetection true = s.seeBroomCut.broomDetection false := rfl

theorem State.KeptCore.periodicPosts (k : State.KeptCore P) {a : Arm} (h : P s) : P (s.periodicPosts a) := by
  unfold State.periodicPosts
  split
  all_goals first | exact h | exact k.postForce (k.postRotation h) | exact k.postRotation h

theorem State.Kept.broomPeriod (k : State.Kept P) (h : P s) : P s.broomPeriod := by
  have hr : P (if (s.arms.cutSeen && !s.detects .main) = true then s.releaseBroom else s) :=
    iteInduction (fun _ => k.releaseBroom h) fun _ => h
  unfold State.broomPeriod
  exact iteInduction (fun hb => k.broomWorks hb.1 hr) fun _ => hr

theorem State.Kept.armPeriod (k : State.Kept P)
    (lower : ∀ {a s}, s.unit.mode = .sweep → (s.arm a).state = .stowed → P s → P (s.startLower a)) (h : P s) :
    P s.armPeriod := by
  have one : ∀ {a s}, P s → P ((s.lowerTest a).periodicPosts a) := fun {a s} h => by
    refine k.periodicPosts ?_
    unfold State.lowerTest
    dsimp only
    split
    · next hl => exact lower hl.2.2.1 hl.1 (k.postBoth h)
    · exact h
  exact k.broomPeriod (one (one (one (k.armFlags (fun _ => ⟨fun b => by cases b <;> rfl, rfl⟩) h))))

end

/-! ### The Scan Unit -/

section
variable {P : State → Prop} {s : State}

theorem State.Kept.detection (k : State.Kept P) {i : Fin 4} (h : P s) : P (s.detection i) := by
  unfold State.detection
  split
  · exact k.sideDetection h
  · exact k.sideDetection h
  · split
    · rw [State.broomDetection_true]
      exact k.broomDetection_false (k.broomCut h)
    · exact k.broomDetection_false h
  · split
    · exact k.governorDetection (k.setDriveCut h)
    · exact k.governorDetection h

theorem State.Kept.evaluate (k : State.Kept P) {i : Fin 4} {v : Int} (h : P s) : P (s.evaluate i v) := by
  have hc := fun new => k.scan (f := fun x => { x with comps := x.comps.set i new }) (fun _ => rfl) h
  unfold State.evaluate
  dsimp only
  split
  · exact h
  · split
    · exact k.detection (hc _)
    · split
      · unfold State.returnToClear
        split
        · exact k.governorClear (hc _)
        · exact hc _
      · exact hc _

theorem State.KeptCore.takePitch (k : State.KeptCore P) {r : Result} (h : P s) : P (s.takePitch r) := by
  have hc := fun new => k.scan (f := fun x => { x with slope := new }) (fun _ => rfl) h
  unfold State.takePitch
  dsimp only
  split
  · exact h
  · split
    · exact hc _
    · split
      · exact k.deactivate Source.noConfusion (hc _)
      · split
        · exact k.activate Source.noConfusion (hc _)
        · exact k.updateCap Source.noConfusion (hc _)

theorem State.KeptCore.takeOil (k : State.KeptCore P) {r : Result} (h : P s) : P (s.takeOil r) := by
  unfold State.takeOil
  dsimp only
  split
  · exact h
  · split
    · exact k.raiseAlarm (k.activate Source.noConfusion h)
    · split
      · exact k.alarmGone (k.deactivate Source.noConfusion h)
      · exact h

theorem State.KeptCore.faultCause (k : State.KeptCore P) {d : Fin 4} (h : P s) : P (s.faultCause d) := by
  unfold State.faultCause
  dsimp only
  split
  · split
    · exact h
    · exact k.raiseAlarm (k.scan (fun _ => rfl) h)
  · exact k.raiseAlarm (k.activate Source.noConfusion (k.scan (fun _ => rfl) h))

theorem State.KeptCore.endFault (k : State.KeptCore P) (h : P s) : P s.endFault := by
  refine k.deactivate (src := .sensorFault) Source.noConfusion ?_
  have hs : P (s.modScan fun x =>
    ({ x with fault := false, causes := Vector.replicate 4 false }.markStale false).resetCounters) :=
    k.scan (fun _ => rfl) h
  generalize ([0, 1, 2, 3] : List (Fin 4)) = list
  revert hs
  generalize (s.modScan fun x =>
    ({ x with fault := false, causes := Vector.replicate 4 false }.markStale false).resetCounters) = u
  intro hs
  induction list generalizing u with
  | nil => exact hs
  | cons c rest ih =>
    rw [List.foldl_cons]
    refine ih _ ?_
    split
    · exact k.alarmGone hs
    · exact hs

theorem Scan.setRef_input3 (r : Reference) (v : RefRec) (x : Scan) : (x.setRef r v).input3 = x.input3 := by
  cases r <;> rfl

theorem State.KeptCore.judgeReference (k : State.KeptCore P) {r : Reference} {raw : Nat} (h : P s) :
    P (s.judgeReference r raw) := by
  unfold State.judgeReference
  dsimp only
  split
  · have hs := k.scan (f := fun x => { x.setRef r ⟨false, raw, s.now⟩ with passRun := min 6 (s.scan.passRun + 1) })
      (fun x => Scan.setRef_input3 r _ x) h
    split
    · exact k.endFault hs
    · exact hs
  · have hs := k.scan (f := fun x => { x.setRef r ⟨true, raw, s.now⟩ with passRun := 0 })
      (fun x => Scan.setRef_input3 r _ x) h
    split
    · exact k.faultCause hs
    · exact hs

theorem State.KeptCore.completePass (k : State.KeptCore P) {raw : Nat} (h : P s) : P (s.completePass raw) :=
  k.scan (f := fun x => { x with slow := none, nextRef := x.nextRef.next }) (fun _ => rfl) (k.takePitch (k.takeOil (k.takeLevel (k.judgeReference h))))

theorem State.KeptCore.beginSequence (k : State.KeptCore P) {n : Nat} {o : Int} {w : Nat} (h : P s) :
    P (s.beginSequence n o w) := k.scan (fun _ => rfl) h

theorem State.KeptCore.beginSlow (k : State.KeptCore P) {item : SlowItem} (h : P s) : P (s.beginSlow item) := by
  unfold State.beginSlow
  dsimp only
  split
  · exact k.beginSequence (k.scan (fun _ => rfl) h)
  · exact k.beginSequence (k.scan (fun _ => rfl) h)

theorem State.KeptCore.endFast (k : State.KeptCore P) (h : P s) : P s.endFast := by
  have hf : P (s.modScan fun x => { x with fast := none }).freeConverter :=
    k.scan (fun _ => rfl) (k.scan (fun _ => rfl) h)
  unfold State.endFast
  dsimp only
  split
  · exact k.beginSlow hf
  · exact hf

theorem State.Kept.completeFast (k : State.Kept P) {ch : Fin 6} {q : Sequence} (h : P s) : P (s.completeFast ch q) := by
  have hr : ∀ c, P (s.formResult c q) := fun c => k.scan (fun _ => rfl) h
  have he : ∀ u : State, P u → ∀ v, P (match comparatorOf u.scan.input3 ch with
      | some i => u.evaluate i v
      | none => u) := fun u hu v => by
    split
    · exact k.evaluate hu
    · exact hu
  unfold State.completeFast
  dsimp only
  split
  · exact k.beginSequence (k.scan (fun _ => rfl) (he _ (hr _) _))
  · exact k.endFast (he _ (hr _) _)

theorem State.KeptCore.completeSlow (k : State.KeptCore P) {item : SlowItem} {q : Sequence} (h : P s) :
    P (s.completeSlow item q) := by
  unfold State.completeSlow
  split
  · exact k.scan (fun _ => rfl) (k.scan (fun _ => rfl) (k.scan (fun _ => rfl) h))
  · exact k.completePass (k.scan (fun _ => rfl) h)

theorem State.Kept.addCode (k : State.Kept P) {code : Nat} (h : P s) : P (s.addCode code) := by
  unfold State.addCode
  dsimp only
  split
  · exact h
  · split
    · exact k.scan (fun _ => rfl) h
    · split
      · exact k.completeFast h
      · exact k.completeSlow h
      · exact k.scan (fun _ => rfl) h

theorem State.Kept.abandon (k : State.Kept P) (h : P s) : P s.abandon :=
  k.addCode (k.faultCause (k.scan (fun _ => rfl) h))

theorem State.KeptCore.slowSettle (k : State.KeptCore P) (h : P s) : P s.slowSettle := by
  unfold State.slowSettle
  split
  · split
    · unfold State.itemSettled
      split
      · exact k.beginSlow h
      · exact k.scan (fun _ => rfl) h
    · exact h
  all_goals exact h

theorem State.KeptCore.fastTrigger (k : State.KeptCore P) (h : P s) : P s.fastTrigger := by
  unfold State.fastTrigger
  split
  · exact k.beginSequence (k.scan (fun _ => rfl) h)
  · exact k.bump h

theorem State.KeptCore.slowTrigger (k : State.KeptCore P) (h : P s) : P s.slowTrigger := by
  unfold State.slowTrigger
  split
  · exact k.scan (fun _ => rfl) h
  · exact k.bump h

/-! ### Load faults -/

theorem State.KeptCore.valveFault (k : State.KeptCore P) {b : Bar} {v : Bool} (h : P s) : P (s.valveFault b v) :=
  k.settleBars (fun _ c => by cases b <;> cases c <;> rfl) h

theorem State.Kept.reportFault (k : State.Kept P) {ch : Channel} (h : P s) : P (s.reportFault ch) := by
  unfold State.reportFault
  split
  · exact k.activate Source.noConfusion h
  · split
    · exact k.faultArm h
    · exact k.valveFault h
    · exact k.setDryLatch h

theorem State.Kept.enterFault (k : State.Kept P) {ch : Channel} {kind : FaultKind} (hk : kind ≠ .none) (h : P s) :
    P (s.enterFault ch kind) := k.reportFault (k.raiseAlarm (k.faultChannel hk h))

theorem State.KeptCore.leaveFault (k : State.KeptCore P) {ch : Channel} (hf : s.output.channels[ch].fault ≠ .none)
    (hz : s.output.channels[ch].setpoint = 0) (h : P s) : P (s.leaveFault ch) := by
  have hm := k.alarmGone (c := s.output.channels[ch].fault.alarm) (d := ch.val) (k.mendChannel hf hz h)
  unfold State.leaveFault State.reportCleared
  dsimp only
  split
  · unfold State.driveChannelCleared
    split
    · exact k.deactivate Source.noConfusion hm
    · exact hm
  · split
    · exact k.valveFault hm
    · exact hm

theorem Carrier.move_part (c : Carrier) : c.move.part = c.part := rfl

theorem State.Kept.sampleChannel (k : State.Kept P) {x : Samples} {ch : Channel} (h : P s) :
    P (s.sampleChannel x ch) := by
  have ht : P (s.modOutput fun o => o.modChannel ch fun c =>
      if isPropChannel ch then { c with measured := x.current[ch], carrier := c.carrier.move } else c) :=
    k.trim (fun c => by split <;> exact ⟨rfl, rfl, rfl, rfl, rfl, id⟩) h
  unfold State.sampleChannel
  exact iteInduction (fun _ => iteInduction (fun _ => k.enterFault (kind := .shortLoad) FaultKind.noConfusion ht)
    fun _ => k.trim (fun c => ⟨rfl, rfl, rfl, rfl, rfl, id⟩) ht) fun _ => ht

theorem State.Kept.sampleAll (k : State.Kept P) {x : Samples} (h : P s) : P (s.sampleAll x) := by
  unfold State.sampleAll
  generalize allChannels = list
  induction list generalizing s with
  | nil => exact h
  | cons c rest ih => exact ih (k.sampleChannel h)

end

end Sys2Proof.Machine
end

section
/-! The walk over the commands: what the acts of the blocks keep, every command keeps, and so every step. -/

namespace Sys2Proof.Machine

/-- A predicate that holds of both branches holds of the choice. -/
theorem kept_ite {P : State → Prop} {c : Prop} [Decidable c] {u v : State} (hu : P u) (hv : P v) :
    P (if c then u else v) := by split <;> assumption

/-- An answer leaves the state. -/
theorem kept_answer {P : State → Prop} {c : Code} {u : State} (hu : P u) : P (answer c u).1 := hu

/-! ### Travel -/

section
variable {P : State → Prop} {s : State}

theorem State.KeptCore.lapseWindow (k : State.KeptCore P) (h : P s) : P s.lapseWindow := by
  unfold State.lapseWindow
  split
  · exact h
  · exact k.post (k.links h)

theorem State.KeptCore.formGround (k : State.KeptCore P) (h : P s) : P s.formGround := by
  have hf := k.travel (f := fun t => { t with ground := t.groundOf, dir := t.dirOf }) (fun _ => ⟨rfl, rfl⟩) h
  unfold State.formGround
  exact iteInduction (fun _ => k.lapseWindow hf) fun _ => hf

theorem State.KeptCore.checkWatch (k : State.KeptCore P) (h : P s) : P s.checkWatch := by
  unfold State.checkWatch
  exact iteInduction (fun _ => h) fun _ => k.travel (fun _ => ⟨rfl, rfl⟩) h

theorem State.KeptCore.stopSlip (k : State.KeptCore P) (h : P s) : P s.stopSlip :=
  k.deactivate (src := .traction) Source.noConfusion (k.travel (fun _ => ⟨rfl, rfl⟩) h)

theorem State.KeptCore.slipDetected (k : State.KeptCore P) (h : P s) : P s.slipDetected := by
  have ht := k.travel (f := fun t => { t with slipHold := some (later s.now s.settings.travel.slipHold) })
    (fun _ => ⟨rfl, rfl⟩) h
  unfold State.slipDetected
  exact iteInduction (fun _ => ht) fun _ =>
    k.formGround (k.bump (k.postBoth (k.activate (src := .traction) Source.noConfusion ht)))

theorem State.modWheel_counts (w : Wheel) (f : WheelRec → WheelRec) (t : Travel) :
    (t.modWheel w f).accumulator = t.accumulator ∧ (t.modWheel w f).metreRem = t.metreRem := by
  cases w <;> exact ⟨rfl, rfl⟩

theorem State.KeptCore.modWheel (k : State.KeptCore P) {w : Wheel} {f : WheelRec → WheelRec} (h : P s) :
    P (s.modWheel w f) := k.travel (State.modWheel_counts w f) h

theorem State.KeptCore.applyEdge (k : State.KeptCore P) {w : Wheel} {d : Dir} (h : P s) : P (s.applyEdge w d) := by
  unfold State.applyEdge
  dsimp only
  split
  · exact k.formGround (k.modWheel h)
  · have still : ∀ {u : State}, P u → P (if u.stillness w then u.slipDetected else u) := fun hu =>
      kept_ite (k.slipDetected hu) hu
    exact still (k.formGround (kept_ite (k.slipDetected (k.modWheel h)) (k.modWheel h)))

theorem State.Kept.acceptEdge (k : State.Kept P) {w : Wheel} {d : Dir} (h : P s) : P (s.acceptEdge w d) := by
  unfold State.acceptEdge
  have edge : P ((s.modTravel (Travel.endWatchAt w)).applyEdge w d) := k.applyEdge (k.travel (fun _ => ⟨rfl, rfl⟩) h)
  have watched := iteInduction (motive := P)
    (c := (((s.modTravel (Travel.endWatchAt w)).applyEdge w d).travel.wheel w).speed ≠ (s.travel.wheel w).speed)
    (fun _ => k.checkWatch edge) fun _ => edge
  have ended : ∀ u : State, P u → P (if u.travel.sensorFault = some w then u.endSensorFault w else u) := fun u hu =>
    iteInduction (fun _ => k.checkWatch (k.formGround (k.alarmGone (k.travel (fun _ => ⟨rfl, rfl⟩) hu)))) fun _ => hu
  exact iteInduction (fun hm => k.leaveService hm (k.addDistance (ended _ watched)))
    fun _ => k.addDistance (ended _ watched)

theorem State.KeptCore.decayWheel (k : State.KeptCore P) {w : Wheel} (h : P s) : P (s.decayWheel w) := by
  unfold State.decayWheel
  exact iteInduction (fun _ => k.checkWatch (k.formGround (k.modWheel h))) fun _ => h

theorem State.KeptCore.beginSensorFault (k : State.KeptCore P) {w : Wheel} (h : P s) : P (s.beginSensorFault w) := by
  have hr : P ((s.modTravel fun t => { t with watch := none, sensorFault := some w }).raiseAlarm .wheelSensor
      (wheelDetail w)) := k.raiseAlarm (k.travel (fun _ => ⟨rfl, rfl⟩) h)
  unfold State.beginSensorFault
  exact k.formGround (iteInduction (fun _ => k.stopSlip hr) fun _ => hr)

theorem State.KeptCore.travelUpdate (k : State.KeptCore P) (h : P s) : P s.travelUpdate := by
  unfold State.travelUpdate
  dsimp only
  split
  · exact iteInduction (fun _ => k.beginSensorFault (k.decayWheel (k.decayWheel h)))
      fun _ => k.decayWheel (k.decayWheel h)
  · exact k.decayWheel (k.decayWheel h)

theorem State.KeptCore.pulseTimeout (k : State.KeptCore P) {w : Wheel} (h : P s) : P (s.pulseTimeout w) := by
  unfold State.pulseTimeout
  exact iteInduction (fun _ => k.checkWatch (k.formGround (k.modWheel h))) fun _ => k.formGround (k.modWheel h)

end

/-! ### Links -/

section
variable {P : State → Prop} {s : State}

theorem lossEntry_ne_mode (l : Link) : lossEntry l ≠ .mode := by cases l <;> exact Source.noConfusion

theorem State.KeptCore.receive (k : State.KeptCore P) {h : Head} (hs : P s) : P (s.receive h) := by
  unfold State.receive
  exact iteInduction (fun _ => k.deactivate (lossEntry_ne_mode h.link) (k.links hs)) fun _ => k.links hs

theorem State.Kept.reportLoss (k : State.Kept P) {l : Link} (h : P s) : P (s.reportLoss l) := by
  have free : ∀ {c : Prop} [Decidable c], P (State.endDirectWhere (fun x => x == l) (if c then s.lapseClaim else s)) :=
    k.endDirectWhere (kept_ite (k.lapseClaim h) h)
  cases l
  · exact k.gov (f := fun g => { g with demandDir := .neutral, demandMag := 0 }) (fun _ => ⟨rfl, le_rfl⟩) free
  · refine k.settleBars (f := fun y => { y with
      left := { y.left with enable := false }, right := { y.right with enable := false }
      main := { y.main with enable := false } }) (fun _ b => by cases b <;> rfl) ?_
    split
    · next hm => exact k.enterLeaving (.inl hm) free
    · next hm => exact k.enterLeaving (.inr hm) free
    · next hm => exact k.leaveService hm free
    · exact free
    · exact free

theorem State.Kept.loseLink (k : State.Kept P) {l : Link} (h : P s) : P (s.loseLink l) := by
  unfold State.loseLink
  have lost := k.reportLoss (l := l) (k.activate (cap := State.lossCap l (s.modLink l fun x =>
    { x with state := .lost, timer := none })) (lossEntry_ne_mode l) (k.links (f := Links.mod l fun x =>
    { x with state := .lost, timer := none }) h))
  exact k.bump (k.postBoth (k.raiseAlarm (iteInduction (fun _ => k.lapseWindow lost) fun _ => lost)))

/-- A request, whatever its owner does with it, keeps what the owner's act keeps (R180). -/
theorem State.KeptCore.serve (k : State.KeptCore P) {h : Head} {kind : Nat} {act : State → State × Reply} (hs : P s)
    (ha : ∀ u, P u → P (act u).1) : P (s.serve h kind act) := by
  have he := k.elapse (us := h.after) hs
  unfold State.serve
  refine iteInduction (fun _ => k.links he) fun _ => k.links ?_
  have hr := k.receive (h := h) he
  split
  · exact ha _ hr
  · exact hr

end

/-! ### The owners of the requests -/

section
variable {P : State → Prop} {s : State}

theorem kept_bodyOnly {l : Link} {act : State → State × Reply} (h : P s) (ha : P (act s).1) : P (bodyOnly l act s).1 := by
  cases l
  · exact h
  · exact ha

theorem kept_armRequest {l : Link} {n : Byte} {act : Arm → State → State × Reply} (h : P s)
    (ha : ∀ a, P (act a s).1) : P (armRequest l n act s).1 := by
  unfold armRequest
  split
  · exact h
  · split
    · exact h
    · exact ha _

theorem Carrier.settle_part (c : Carrier) : c.settle.part = c.part := by
  unfold Carrier.settle
  split <;> rfl

/-- A written comparator or dither value, and a cap's post, but for that of the transport max speed. -/
theorem State.KeptCore.settingEffects (k : State.KeptCore P) {x : Setting} {v : Int} (hx : x ≠ .transportMax) (h : P s) :
    P (s.settingEffects x v) := by
  have carrier : ∀ {ch : Channel} {f : Carrier → Carrier}, (∀ c : Carrier, (f c).part = c.part) →
      P (s.modCarrier ch f) := fun hf => k.trim (fun c => ⟨rfl, rfl, rfl, rfl, rfl, fun hr => (hf _).trans hr⟩) h
  unfold State.settingEffects
  split
  case _ => exact k.scan (fun _ => rfl) h
  case _ => exact k.scan (fun _ => rfl) h
  case _ => exact k.scan (fun _ => rfl) h
  case _ => exact k.scan (fun _ => rfl) h
  case _ => exact k.scan (fun _ => rfl) h
  case _ => exact carrier fun _ => Carrier.settle_part _
  case _ => exact carrier fun _ => Carrier.settle_part _
  case _ => exact carrier fun _ => Carrier.settle_part _
  case _ =>
    unfold State.postCap
    split
    case _ => exact absurd rfl hx
    case h_11 => exact h
    all_goals first | exact k.updateCap Source.noConfusion h | exact kept_ite h (k.updateCap Source.noConfusion h)

theorem State.KeptCore.takeSetting (k : State.KeptCore P) {x : Setting} {v : Int} (ho : s.settingsOpen = true)
    (ha : x.accepts s.settings v = true) (h : P s) : P (s.takeSetting x v) := by
  by_cases hx : x = .transportMax
  · subst hx; exact k.transportMax ho h
  · exact k.settingEffects hx (k.settings ho ha hx h)

theorem State.KeptCore.writeSetting (k : State.KeptCore P) {l : Link} {g i j : Byte} {v : Half} (h : P s) :
    P (s.writeSetting l g i j v).1 := by
  unfold State.writeSetting
  split
  · exact h
  · split
    · exact h
    · split
      · exact h
      · next ho =>
        split
        · exact h
        · next ha =>
          exact kept_answer <| k.takeSetting (by simpa using ho) (by simpa using ha) h

theorem State.KeptCore.sweepStart (k : State.KeptCore P) (h : P s) : P s.sweepStart.1 := by
  unfold State.sweepStart
  split
  all_goals try exact h
  next hm =>
    split
    · exact h
    · next ha =>
      split
      · exact h
      · exact kept_answer <| k.requestRange (k.setMode
          (.entering hm (Option.isSome_iff_ne_none.2 fun hn => ha (Option.isNone_iff_eq_none.2 hn)))
          (k.unit (fun _ => ⟨rfl, rfl, rfl, rfl⟩) h))

theorem State.Kept.sweepEnd (k : State.Kept P) (h : P s) : P s.sweepEnd.1 := by
  unfold State.sweepEnd
  split
  · next hm => exact kept_answer <| k.enterLeaving (.inl hm) h
  · next hm => exact kept_answer <| k.enterLeaving (.inr hm) h
  all_goals exact h

theorem State.KeptCore.serviceEnter (k : State.KeptCore P) (h : P s) : P s.serviceEnter.1 := by
  unfold State.serviceEnter
  split
  · next hm =>
    split
    · next hs => exact kept_answer <| k.setMode (.service hm hs) h
    · exact h
  all_goals exact h

theorem State.KeptCore.serviceLeave (k : State.KeptCore P) (h : P s) : P s.serviceLeave.1 := by
  unfold State.serviceLeave
  split
  · next hm => exact kept_answer <| k.leaveService hm h
  · exact h

theorem State.KeptCore.openEdit (k : State.KeptCore P) {l : Link} {n : Byte} (h : P s) : P (s.openEdit l n).1 := by
  unfold State.openEdit
  split
  · exact h
  · split
    · split <;> exact h
    · split
      · exact h
      · exact kept_answer <| k.unit (fun _ => ⟨rfl, rfl, rfl, rfl⟩) h

theorem State.KeptCore.writeField (k : State.KeptCore P) {l : Link} {f p : Byte} {v : FieldValue} (h : P s) :
    P (s.writeField l f p v).1 := by
  unfold State.writeField
  repeat' split
  all_goals first | exact h | exact kept_answer <| k.unit (fun _ => ⟨rfl, rfl, rfl, rfl⟩) h

theorem State.KeptCore.commitRecord (k : State.KeptCore P) {g : Staging} (hv : g.record.valid = true) (h : P s) :
    P (s.commitRecord g).1 := by
  have free := k.unit (f := fun u => { u with staging := none }) (fun _ => ⟨rfl, rfl, rfl, rfl⟩) h
  unfold State.commitRecord
  dsimp only
  split
  · next ha =>
    split
    · exact kept_answer <| k.pend (.inl hv) free
    · exact kept_answer <| k.turn (i := g.slot) (p := g.record) ⟨rfl, rfl, ha, .inl rfl⟩ (.inl hv) free
  · next ha => exact kept_answer <| k.store ha (fun p hp => .inl (by cases hp; exact hv)) free

theorem State.KeptCore.commitEdit (k : State.KeptCore P) {l : Link} (h : P s) : P (s.commitEdit l).1 := by
  unfold State.commitEdit
  split
  · exact h
  · split
    · exact h
    · split
      · exact h
      · split
        · exact h
        · next hv => exact k.commitRecord (by simpa using hv) h

theorem State.KeptCore.abandonEdit (k : State.KeptCore P) {l : Link} (h : P s) : P (s.abandonEdit l).1 := by
  unfold State.abandonEdit
  split
  · exact h
  · split
    · exact kept_answer <| k.unit (fun _ => ⟨rfl, rfl, rfl, rfl⟩) h
    · exact h

theorem State.KeptCore.eraseProgram (k : State.KeptCore P) {l : Link} {n : Byte} (h : P s) :
    P (s.eraseProgram l n).1 := by
  unfold State.eraseProgram
  dsimp only
  split
  · exact h
  · split
    · exact h
    · next ha =>
      repeat' split
      all_goals first | exact h | exact kept_answer <| k.store ha (fun p hp => nomatch hp) h

theorem State.KeptCore.makeActive (k : State.KeptCore P) {i : Fin 8} {p : Program} (hp : s.unit.slots[i] = some p)
    (h : P s) : P (s.makeActive i) := by
  have hs : s.unit.slots = s.unit.slots.set i (some p) := by
    rw [← hp]; exact (Vector.set_getElem_self i.isLt).symm
  have turned : P (s.modUnit fun u => { u with active := some i }).programChanged :=
    k.turn (i := i) (p := p) ⟨rfl, hs, rfl, .inl rfl⟩ (.inr (.inl ⟨i, hp⟩)) h
  unfold State.makeActive
  exact iteInduction (fun _ => k.unit (fun _ => ⟨rfl, rfl, rfl, rfl⟩) turned) fun _ => turned

theorem State.KeptCore.selectProgram (k : State.KeptCore P) {n : Byte} (h : P s) : P (s.selectProgram n).1 := by
  unfold State.selectProgram
  split
  · exact h
  · next i _ =>
    split
    · exact h
    · next p hp =>
      split
      · exact h
      · split
        · exact h
        · split
          · exact kept_answer <| k.pend (.inr (.inl ⟨i, hp⟩)) h
          · exact kept_answer <| k.makeActive hp h

theorem State.KeptCore.driveDemand (k : State.KeptCore P) {l : Link} {d : Byte} {m : Half} (h : P s) :
    P (s.driveDemand l d m).1 := by
  unfold State.driveDemand
  split
  · exact h
  · split
    · exact h
    · next d _ =>
      have held : P (s.modGov fun g => { g with demandDir := d, demandMag := min 1000 m.toNat }) :=
        k.gov (fun _ => ⟨rfl, le_rfl⟩) h
      unfold State.holdDemand
      exact iteInduction (motive := P) (fun hm => k.leaveService hm.2 held) fun _ => held

theorem State.Kept.armLower (k : State.Kept P)
    (lower : ∀ {a s}, s.unit.mode = .sweep → (s.arm a).state = .stowed → P s → P (s.startLower a)) {a : Arm} (h : P s) :
    P (s.armLower a).1 := by
  unfold State.armLower
  split
  · exact h
  · next hm =>
    split
    · exact h
    · split
      · next hs =>
        split
        · exact h
        · split
          · exact lower (not_not.1 hm) hs h
          · exact kept_answer <| k.markPending h
      all_goals exact h

theorem State.Kept.armRaise (k : State.Kept P) {a : Arm} (h : P s) : P (s.armRaise a).1 := by
  unfold State.armRaise
  split
  all_goals first | exact h | exact kept_answer <| k.raiseArm h

theorem State.Kept.armClear (k : State.Kept P) {a : Arm} (h : P s) : P (s.armClear a).1 := by
  unfold State.armClear
  split
  · exact h
  · split
    · exact h
    · split
      · next hw => exact kept_answer <| k.alarmGone (k.startRaise (.inr hw) h)
      · exact kept_answer <| k.alarmGone (k.stow h)

theorem State.Kept.broomClearJam (k : State.Kept P) (h : P s) : P s.broomClearJam.1 := by
  have hc : P s.clearLock := k.alarmGone (k.armFlags (fun _ => ⟨fun b => by cases b <;> rfl, rfl⟩) h)
  have ha : s.clearLock.arms.main = s.arms.main := by simp [State.clearLock]
  unfold State.broomClearJam
  dsimp only
  split
  · exact h
  · split
    · next hj =>
      have jammed : ∀ {c : Prop} [Decidable c],
          (if c then s.clearLock.releaseBroom else s.clearLock).arms.main.state = .jammed := by
        intro c _
        split <;> simp [State.releaseBroom, ha, hj]
      split
      · exact h
      · exact kept_answer (k.broomWorks jammed (kept_ite (k.releaseBroom hc) hc))
    · exact hc

theorem State.KeptCore.sprayEnable (k : State.KeptCore P) {n on : Byte} (h : P s) : P (s.sprayEnable n on).1 := by
  unfold State.sprayEnable
  split
  · exact h
  · next b _ =>
    split
    · exact h
    · exact kept_answer <| k.settleBars (fun _ c => by cases b <;> cases c <;> rfl) h

theorem State.KeptCore.clearSprayFault (k : State.KeptCore P) (h : P s) : P s.clearSprayFault.1 := by
  unfold State.clearSprayFault
  split
  · exact h
  · split
    · exact h
    · exact kept_answer <| k.clearDryLatch h

/-- A channel stands in FAULT exactly while its record has a fault kind (R159). -/
theorem Output.stateOf_eq_fault (o : Output) (ch : Channel) :
    o.stateOf ch = .fault ↔ o.channels[ch].fault ≠ .none := by
  unfold Output.stateOf ChannelRec.stateWith
  split
  · next hf => exact ⟨fun _ => hf, fun _ => rfl⟩
  · next hf =>
    refine ⟨fun hs => ?_, fun hn => absurd hn hf⟩
    repeat' split at hs
    all_goals cases hs

theorem State.KeptCore.clearChannelFault (k : State.KeptCore P) {l : Link} {n : Byte} (h : P s) :
    P (s.clearChannelFault l n).1 := by
  unfold State.clearChannelFault
  split
  · exact h
  · split
    · exact h
    · split
      · exact h
      · next hf =>
        split
        · exact h
        · next hz => exact kept_answer <| k.leaveFault ((Output.stateOf_eq_fault _ _).1 (not_not.1 hf)) (Nat.eq_zero_of_not_pos hz) h

theorem State.KeptCore.directDrive (k : State.KeptCore P) {l : Link} {n : Byte} {v : Half} (h : P s) :
    P (s.directDrive l n v).1 := by
  unfold State.directDrive
  dsimp only
  split
  · exact h
  · split
    · exact h
    · next hch =>
      split
      · exact h
      · next hm =>
        split
        · exact h
        · split
          · exact h
          · next hf =>
            split
            · exact h
            · next hi =>
              exact kept_answer <| k.takeDirect (Nat.le_of_not_lt hch) (not_not.1 hm)
                (not_not.1 fun hn => hf (.inl ((Output.stateOf_eq_fault _ _).2 hn))) (by simpa using hi) h

theorem State.KeptCore.directRelease (k : State.KeptCore P) {l : Link} {n : Byte} (h : P s) :
    P (s.directRelease l n).1 := by
  unfold State.directRelease
  repeat' split
  all_goals first | exact h | exact kept_answer <| k.endDirect h

theorem State.KeptCore.clearAlarm (k : State.KeptCore P) {c d : Byte} (h : P s) : P (s.clearAlarm c d).1 := by
  unfold State.clearAlarm
  repeat' split
  all_goals first | exact h | exact kept_answer <| k.quiet (fun n => ⟨List.eraseP_sublist, fun l e => by cases l <;> exact le_rfl⟩) h

/-- A change of one link's event set that raises no count leaves the notices quieter. -/
theorem Notices.modEvents_quieter (l : Link) {f : EventSet → EventSet}
    (hf : ∀ (e : EventSet) (k : EventKind), (f e).counts[k.index] ≤ e.counts[k.index]) (n : Notices) :
    n.quieter (n.modEvents l f) := by
  refine ⟨by cases l <;> exact List.Sublist.refl _, fun m k => ?_⟩
  cases l <;> cases m <;> first | exact hf _ k | exact le_rfl

theorem State.KeptCore.ackEvents (k : State.KeptCore P) {l : Link} {v : Half} (h : P s) : P (s.ackEvents l v).1 :=
  k.quiet (Notices.modEvents_quieter l fun e x => by
    simp only [EventSet.acknowledge, Fin.getElem_fin, Vector.getElem_ofFn]
    split
    · exact Nat.zero_le _
    · exact le_rfl) h

theorem State.KeptCore.setEventMask (k : State.KeptCore P) {l : Link} {v : Half} (h : P s) : P (s.setEventMask l v).1 :=
  k.quiet (Notices.modEvents_quieter l fun _ _ => le_rfl) h

theorem State.KeptCore.takeSnapshot (k : State.KeptCore P) {l : Link} {c : Byte} (h : P s) :
    P (s.takeSnapshot l c).1 := by
  have shot : P (s.snapshot l c.toNat) := by
    refine k.bank (fun b => ⟨fun a => ?_, fun x => ?_⟩) h
    · dsimp only
      split <;> cases l <;> cases a <;> rfl
    · dsimp only
      split
      · simp
      · cases l <;> exact le_rfl
  unfold State.takeSnapshot
  split
  · exact h
  · exact iteInduction (motive := P) (fun _ => k.postBoth (k.post shot)) fun _ => k.post shot

theorem State.KeptCore.resume (k : State.KeptCore P) {l : Link} (h : P s) : P (s.resume l).1 := by
  unfold State.resume
  split
  · exact kept_answer <| k.alarmGone (k.deactivate (lossEntry_ne_mode l) (k.links h))
  all_goals exact h

theorem State.KeptCore.restart (k : State.KeptCore P) (joint : ∀ {s}, P s → P s.jointRestart) {l : Link} {tag : Byte}
    (h : P s) : P (s.restart l tag).1 := by
  unfold State.restart
  split
  · exact h
  · split
    · exact kept_answer <| k.links h
    · split
      · exact h
      · exact kept_answer <| k.links (joint h)

/-! ### Timers -/

theorem State.Kept.lowerEnd (k : State.Kept P) {a : Arm} (hd : (s.arm a).state = .lowering) (h : P s) :
    P (s.lowerEnd a) := by
  have hw : P (s.moveArm a fun r => { r with state := .working, timer := none }) :=
    k.moveArm ⟨ArmState.noConfusion, .inr (.inl (by rw [hd]; simp [ArmState.isDown]))⟩ h
  have out : ¬((s.moveArm a fun r => { r with state := .working, timer := none }).arm a).state.isDown := by
    rw [State.moveArm_state]; simp [ArmState.isDown]
  unfold State.lowerEnd
  dsimp only
  split
  · exact iteInduction (fun _ => k.strike (a := .left) out hw) fun _ => hw
  · exact iteInduction (fun _ => k.strike (a := .right) out hw) fun _ => hw
  · exact hw

theorem State.Kept.settleEnd (k : State.Kept P) {a : SideArm} (hd : (s.arm a.arm).state = .yielding) (h : P s) :
    P (s.settleEnd a) := by
  unfold State.settleEnd
  exact iteInduction (fun _ => k.armMarks (fun _ => ⟨rfl, rfl, rfl⟩) h) fun _ =>
    k.moveArm ⟨ArmState.noConfusion, .inr (.inl (by rw [hd]; simp [ArmState.isDown]))⟩ h

theorem State.Kept.jamHoldEnd (k : State.Kept P) (hd : s.arms.main.state = .jammed) (h : P s) : P s.jamHoldEnd := by
  have hm : P ((s.modArms fun x => { x with holdDone := true }).modArm .main fun r => { r with timer := none }) :=
    k.armMarks (fun _ => ⟨rfl, rfl, rfl⟩) (k.armFlags (fun _ => ⟨fun b => by cases b <;> rfl, rfl⟩) h)
  unfold State.jamHoldEnd
  exact iteInduction (fun _ => k.broomWorks hd hm) fun _ => hm

theorem State.armDue_state {a : Arm} {st : ArmState} {ph : Option Phase} (h : s.armDue a st ph = true) :
    (s.arm a).state = st := by
  simp only [State.armDue, Bool.and_eq_true, beq_iff_eq] at h
  exact h.1.1

theorem State.KeptCore.sweepSecond (k : State.KeptCore P) (h : P s) : P s.sweepSecond := by
  unfold State.sweepSecond
  have less := k.bank (f := fun b => { b with sweepRem := b.sweepRem - 1000 })
    (fun b => ⟨fun a => by cases a <;> simp [TallyBank.swept], fun _ => Nat.le_refl _⟩) h
  exact kept_ite (k.bump less) h

theorem State.KeptCore.cycleBoundary (k : State.KeptCore P) (h : P s) : P s.cycleBoundary := by
  unfold State.cycleBoundary
  split
  · exact iteInduction (fun _ => k.cycleStart (k.cycleStart (k.unit (fun _ => ⟨rfl, rfl, rfl, rfl⟩) (k.applySwap h))))
      fun _ => h
  · exact h

theorem State.KeptCore.halfCycleMark (k : State.KeptCore P) (h : P s) : P s.halfCycleMark := by
  unfold State.halfCycleMark
  exact iteInduction (fun _ => k.cycleStart (k.unit (fun _ => ⟨rfl, rfl, rfl, rfl⟩) h)) fun _ => h

theorem State.Kept.deadline (k : State.Kept P) {l : Link} (h : P s) : P (s.deadline l) := by
  unfold State.deadline
  split
  · split
    · exact k.loseLink h
    · exact k.links h
    all_goals exact h
  · exact h

theorem State.KeptCore.badFrame (k : State.KeptCore P) {l : Link} {f : LinkRec → LinkRec} (h : P s) :
    P (s.badFrame l f) := by
  unfold State.badFrame
  exact iteInduction (fun _ => k.links h) fun _ => k.bump (k.links h)

theorem Carrier.partEnd_rest (c : Carrier) (h : c.part = .rest) : c.partEnd = c := by
  unfold Carrier.partEnd
  rw [h]

theorem State.KeptCore.ditherPart (k : State.KeptCore P) {ch : Channel} (h : P s) : P (s.modCarrier ch Carrier.partEnd) :=
  k.trim (fun c => ⟨rfl, rfl, rfl, rfl, rfl, fun hr => by rw [Carrier.partEnd_rest _ hr]; exact hr⟩) h

end

/-! ### Every command -/

/-- The three acts that only some commands make: the start of a lowering (ARM_LOWER, ARM_PERIOD_EXPIRY), the drive period, and
the two resets. -/
structure State.KeptBy (c : Instr) (P : State → Prop) : Prop where
  lower : (∃ h n, c = .armLower h n) ∨ (∃ n, c = .armPeriodExpiry n) →
    ∀ {a s}, s.unit.mode = .sweep → (s.arm a).state = .stowed → P s → P (s.startLower a)
  drive : (∃ n, c = .drivePeriodExpiry n) → ∀ {s}, P s → P s.drivePeriod
  powerOn : ∀ x, c = .powerOnReset x → ∀ {s}, P s → P (s.powerOn x)
  joint : (∃ h, c = .restart h) → ∀ {s}, P s → P s.jointRestart

variable {P : State → Prop}

/-- Every command keeps what its acts keep. -/
theorem State.Kept.exec (k : State.Kept P) {c : Instr} (kc : State.KeptBy c P) {s t : State} (h : P s)
    (he : exec c s = .next t) : P t := by
  have next : ∀ {u : State}, P u → (Host.Outcome.next u : Host.Outcome State Fault Refusal) = .next t → P t :=
    fun hu hn => by cases hn; exact hu
  have ticked : ∀ {us : Nat} {b : Prop} [Decidable b] {f : State → State},
      (b → P (s.elapse us) → P (f (s.elapse us))) →
      (if b then (.next (f (s.elapse us)) : Host.Outcome State Fault Refusal) else .next (s.elapse us)) = .next t →
      P t := fun {us b _ f} hf hn => by
    have hu : P (s.elapse us) := k.elapse h
    split at hn
    · next hb => exact next (hf hb hu) hn
    · exact next hu hn
  have drawn : ∀ {n : Nat} {f : State → Reply} {u : State}, P u → P (State.readDrawing n f u).1 :=
    fun {n _ _} hu => k.freeCount (f := (· + n)) hu
  cases c
  case powerOnReset x => exact next (kc.powerOn x rfl h) he
  case chipSelectAssert => exact next (k.links (k.elapse h)) he
  case shortFrame => exact next (k.badFrame (k.elapse h)) he
  case crcFailure => exact next (k.badFrame (k.elapse h)) he
  case unknownRequestKind h' w => cases w <;> exact next (k.serve h fun _ hu => hu) he
  case null => exact next (k.serve h fun _ hu => hu) he
  case readStatusSpray => exact next (k.serve h fun _ hu => drawn hu) he
  case readStatusModeAndProgram => exact next (k.serve h fun _ hu => drawn hu) he
  case readStatusTravel => exact next (k.serve h fun _ hu => hu) he
  case readStatusCeilingSummary => exact next (k.serve h fun _ hu => hu) he
  case readStatusGovernor => exact next (k.serve h fun _ hu => hu) he
  case readStatusArms => exact next (k.serve h fun _ hu => hu) he
  case readStatusTankAndPump => exact next (k.serve h fun _ hu => hu) he
  case readStatusLinks => exact next (k.serve h fun _ hu => hu) he
  case readCeilingEntry => exact next (k.serve h fun _ hu => hu) he
  case readChannel => exact next (k.serve h fun _ hu => hu) he
  case readScan => exact next (k.serve h fun _ hu => hu) he
  case readProgram => exact next (k.serve h fun _ hu => hu) he
  case readSetting => exact next (k.serve h fun _ hu => hu) he
  case readAlarm => exact next (k.serve h fun _ hu => hu) he
  case readEvents => exact next (k.serve h fun _ hu => hu) he
  case readSnapshot => exact next (k.serve h fun _ hu => hu) he
  case writeSetting => exact next (k.serve h fun _ hu => k.writeSetting hu) he
  case sweepStart => exact next (k.serve h fun _ hu => kept_bodyOnly hu (k.sweepStart hu)) he
  case sweepEnd => exact next (k.serve h fun _ hu => kept_bodyOnly hu (k.sweepEnd hu)) he
  case serviceEnter => exact next (k.serve h fun _ hu => k.serviceEnter hu) he
  case serviceLeave => exact next (k.serve h fun _ hu => k.serviceLeave hu) he
  case openEdit => exact next (k.serve h fun _ hu => k.openEdit hu) he
  case writeField => exact next (k.serve h fun _ hu => k.writeField hu) he
  case commitEdit => exact next (k.serve h fun _ hu => k.commitEdit hu) he
  case abandonEdit => exact next (k.serve h fun _ hu => k.abandonEdit hu) he
  case eraseProgram => exact next (k.serve h fun _ hu => k.eraseProgram hu) he
  case selectProgram => exact next (k.serve h fun _ hu => k.selectProgram hu) he
  case driveDemand => exact next (k.serve h fun _ hu => k.driveDemand hu) he
  case armLower =>
    exact next (k.serve h fun _ hu => kept_armRequest hu fun _ => k.armLower (kc.lower (.inl ⟨_, _, rfl⟩)) hu) he
  case armRaise => exact next (k.serve h fun _ hu => kept_armRequest hu fun _ => k.armRaise hu) he
  case armClear => exact next (k.serve h fun _ hu => kept_armRequest hu fun _ => k.armClear hu) he
  case broomClearJam => exact next (k.serve h fun _ hu => kept_bodyOnly hu (k.broomClearJam hu)) he
  case sprayEnable => exact next (k.serve h fun _ hu => kept_bodyOnly hu (k.sprayEnable hu)) he
  case clearSprayFault => exact next (k.serve h fun _ hu => kept_bodyOnly hu (k.clearSprayFault hu)) he
  case clearChannelFault => exact next (k.serve h fun _ hu => k.clearChannelFault hu) he
  case directDrive => exact next (k.serve h fun _ hu => k.directDrive hu) he
  case directRelease => exact next (k.serve h fun _ hu => k.directRelease hu) he
  case clearAlarm => exact next (k.serve h fun _ hu => k.clearAlarm hu) he
  case ackEvents => exact next (k.serve h fun _ hu => k.ackEvents hu) he
  case setEventMask => exact next (k.serve h fun _ hu => k.setEventMask hu) he
  case takeSnapshot => exact next (k.serve h fun _ hu => k.takeSnapshot hu) he
  case resume => exact next (k.serve h fun _ hu => k.resume hu) he
  case restart => exact next (k.serve h fun _ hu => k.restart (kc.joint ⟨_, rfl⟩) hu) he
  case deadlineExpiry => exact next (k.deadline (k.elapse h)) he
  case restartWindowExpiry n =>
    have hu : P (s.elapse n) := k.elapse h
    exact next (iteInduction (motive := P) (fun _ => k.lapseWindow hu) fun _ => hu) he
  case wheelEdge => exact ticked (fun _ hu => k.acceptEdge hu) he
  case travelUpdateExpiry =>
    exact ticked (f := fun u => (u.modPeriods _).travelUpdate) (fun _ hu => k.travelUpdate (k.periods hu)) he
  case pulseTimeoutExpiry => exact ticked (fun _ hu => k.pulseTimeout hu) he
  case slipHoldExpiry => exact ticked (f := fun u => u.stopSlip.formGround) (fun _ hu => k.formGround (k.stopSlip hu)) he
  case cycleBoundary => exact next (k.cycleBoundary (k.elapse h)) he
  case halfCycleMark => exact next (k.halfCycleMark (k.elapse h)) he
  case claimIdleTimerExpiry n =>
    have hu : P (s.elapse n) := k.elapse h
    exact next (iteInduction (motive := P) (fun _ => k.lapseClaim hu) fun _ => hu) he
  case drivePeriodExpiry =>
    exact ticked (f := fun u => (u.modPeriods _).drivePeriod) (fun _ hu => kc.drive ⟨_, rfl⟩ (k.periods hu)) he
  case settleExpiry => exact ticked (fun _ hu => k.completeRange hu) he
  case stallTimerExpiry =>
    refine ticked (f := State.stallExpiry) (fun _ hu => ?_) he
    have hg := k.gov (f := fun g => { g with stallTimer := none }) (fun _ => ⟨rfl, le_rfl⟩) hu
    exact iteInduction (motive := P) (fun _ => k.raiseAlarm (k.gov (fun _ => ⟨rfl, le_rfl⟩) hg)) fun _ => hg
  case armPeriodExpiry =>
    exact ticked (f := fun u => (u.modPeriods _).armPeriod)
      (fun _ hu => k.armPeriod (kc.lower (.inr ⟨_, rfl⟩)) (k.periods hu)) he
  case lowerExpiry => exact ticked (fun hd hu => k.lowerEnd (State.armDue_state hd) hu) he
  case raiseExpiry => exact ticked (fun _ hu => k.stow hu) he
  case yieldLiftExpiry =>
    exact ticked (f := fun u => u.liftEnd _) (fun hd hu => k.rephase (State.armDue_state hd) (fun _ => rfl) hu) he
  case yieldSettleExpiry => exact ticked (fun hd hu => k.settleEnd (State.armDue_state hd) hu) he
  case jamHoldExpiry => exact ticked (fun hd hu => k.jamHoldEnd (State.armDue_state (a := .main) hd) hu) he
  case sprayPumpPeriodExpiry n =>
    have hu : P (s.elapse n) := k.elapse h
    simp only [Sys2Proof.Machine.exec, execSprayPumpPeriodExpiry] at he
    repeat' split at he
    · exact next (k.pumpPeriod (k.periods hu)) he
    · exact next (k.periods hu) he
    · exact next hu he
  case pulseEnd => exact ticked (f := fun u => State.modBar _ _ (u.postSetpoint _ 0)) (fun _ hu => k.closeValve hu) he
  case fastScanTrigger =>
    exact ticked (f := fun u => (u.modPeriods _).fastTrigger) (fun _ hu => k.fastTrigger (k.periods hu)) he
  case slowScanTrigger =>
    exact ticked (f := fun u => (u.modPeriods _).slowTrigger) (fun _ hu => k.slowTrigger (k.periods hu)) he
  case slowSettleEnd => exact next (k.slowSettle (k.elapse h)) he
  case conversionEnd => exact ticked (f := fun u => u.addCode _) (fun _ hu => k.addCode hu) he
  case conversionTimeout => exact ticked (fun _ hu => k.abandon hu) he
  case currentSample =>
    exact ticked (f := fun u => (u.modPeriods _).sampleAll _) (fun _ hu => k.sampleAll (k.periods hu)) he
  case openTimerExpiry =>
    exact ticked (f := fun u => u.enterFault _ _) (fun _ hu => k.enterFault FaultKind.noConfusion hu) he
  case ditherPartEnd => exact next (k.ditherPart (k.elapse h)) he
  case sweepSecond => exact next (k.sweepSecond (k.elapse h)) he

/-- Every step keeps what the acts keep, once the queue is of no concern to it. -/
theorem State.Kept.step (k : State.Kept P) (pending : ∀ {f s}, P s → P (s.modPending f))
    (kc : ∀ c, State.KeptBy c P) {s t : State} (h : P s) (hs : step s = .next t) : P t := by
  unfold Sys2Proof.Machine.step at hs
  split at hs
  · cases hs; exact h
  · next c _ _ => exact k.exec (kc c) (pending h) hs

end Sys2Proof.Machine
end

section
/-! Direct drive, the program table, the speed reference and the loaded direction: what every step keeps of them (R14, R22, R68,
R71, R151, R171). -/

namespace Sys2Proof.Machine

/-! ### The law of the alarm list (R190) -/

theorem alarmLaw_keptCore : State.KeptCore State.AlarmLaw where
  elapse h := State.elapse_alarmLaw h
  periods h := State.modPeriods_alarmLaw.2 h
  links h := State.modLinks_alarmLaw.2 h
  freeCount h := State.modFreeCount_alarmLaw.2 h
  post h := State.post_alarmLaw h
  quiet hf h := h.sublist (hf _).1
  raiseAlarm h := State.raiseAlarm_alarmLaw h
  alarmGone h := State.alarmGone_alarmLaw h
  bumpBy h := State.bumpBy_alarmLaw h
  bank _ h := State.modBank_alarmLaw.2 h
  activate _ h := State.activate_alarmLaw h
  deactivate _ h := State.deactivate_alarmLaw h
  updateCap _ h := State.updateCap_alarmLaw h
  travel _ h := State.modTravel_alarmLaw.2 h
  addDistance h := State.addDistance_alarmLaw h
  scan _ h := State.modScan_alarmLaw.2 h
  gov _ h := State.modGov_alarmLaw.2 h
  setpoint _ h := State.postSetpoint_alarmLaw h
  trim _ h := State.modOutput_alarmLaw.2 h
  endDirect h := State.endDirect_alarmLaw h
  faultChannel _ h := State.changeChannel_alarmLaw h
  mendChannel _ _ h := State.changeChannel_alarmLaw h
  takeDirect _ _ _ _ h := State.changeChannel_alarmLaw h
  setDriveCut h := State.setDriveCut_alarmLaw h
  broomCut h := State.seeBroomCut_alarmLaw (State.setBroomCut_alarmLaw h)
  releaseBroom h := State.releaseBroom_alarmLaw h
  unit _ h := State.modUnit_alarmLaw.2 h
  setMode _ h := State.setMode_alarmLaw h
  leaveService _ h := State.leaveService_alarmLaw h
  turn _ _ h := State.programChanged_alarmLaw (State.modUnit_alarmLaw.2 h)
  store _ _ h := State.modUnit_alarmLaw.2 h
  pend _ h := State.modUnit_alarmLaw.2 h
  armFlags _ h := State.modArms_alarmLaw.2 h
  armMarks _ h := State.modArm_alarmLaw h
  rephase _ _ h := State.postCoils_alarmLaw (State.modArm_alarmLaw h)
  postRotation h := State.postRotation_alarmLaw h
  postForce h := State.postForce_alarmLaw h
  judgeBars h := State.judgeBars_alarmLaw h
  settleBars _ h := State.judgeBars_alarmLaw (State.modSpray_alarmLaw.2 h)
  pump _ h := State.modSpray_alarmLaw.2 h
  cycleStart h := State.cycleStart_alarmLaw h
  closeValve h := State.modBar_alarmLaw (State.postSetpoint_alarmLaw h)
  settings _ _ _ h := State.modSettings_alarmLaw.2 h
  transportMax _ h := State.writeModeCap_alarmLaw (State.modSettings_alarmLaw.2 h)

theorem alarmLaw_kept : State.Kept State.AlarmLaw where
  toKeptCore := alarmLaw_keptCore
  moveArm _ h := State.moveArm_alarmLaw h

/-- At a joint restart every alarm stays, its condition absent (R190). -/
theorem State.jointRestart_alarmLaw {s : State} (h : s.AlarmLaw) : s.jointRestart.AlarmLaw :=
  h.map (fun a => { a with present := false }) rfl (fun _ => ⟨rfl, rfl⟩) fun _ hc => hc

theorem State.powerOn_alarmLaw (x : Straps) (s : State) : (s.powerOn x).AlarmLaw :=
  ⟨Nat.zero_le _, List.Pairwise.nil, fun _ ha => nomatch ha⟩

/-- Settles O53: every act keeps the law, the raise by its three cases (R191). -/
theorem alarmLawKept : Obligations.AlarmLawKept := fun _ _ h hs =>
  alarmLaw_kept.step (fun h => State.modPending_alarmLaw.2 h) (fun _ => {
    lower := fun _ _ _ _ _ h => State.startLower_alarmLaw h
    drive := fun _ _ h => State.drivePeriod_alarmLaw h
    powerOn := fun x _ s _ => State.powerOn_alarmLaw x s
    joint := fun _ _ h => State.jointRestart_alarmLaw h }) h hs

end Sys2Proof.Machine
end

section
/-! Direct drive, the program table, the speed reference and the loaded direction: what every step keeps of them (R14, R22, R68,
R71, R151, R171). -/

namespace Sys2Proof.Machine

/-! ### The law of direct drive (R171) -/

section
variable {s t : State}

/-- No holder comes and the mode stands. -/
theorem State.DirectLaw.mono (h : s.DirectLaw)
    (ho : ∀ ch : Channel, t.output.channels[ch].holder.isSome = true → s.output.channels[ch].holder.isSome = true)
    (hm : t.unit.mode = s.unit.mode) : t.DirectLaw := fun ch hc => by rw [hm]; exact h ch (ho ch hc)

theorem State.DirectLaw.same (h : s.DirectLaw) (ho : t.output = s.output) (hu : t.unit = s.unit) : t.DirectLaw :=
  h.mono (fun ch hc => by rw [← ho]; exact hc) (by rw [hu])

theorem State.DirectLaw.owners (h : s.DirectLaw) (ho : s.output.sameOwners t.output) (hm : t.unit.mode = s.unit.mode) :
    t.DirectLaw := h.mono (fun ch hc => by rw [← (ho.1 ch).2.1]; exact hc) hm

theorem State.SettlesTo.unit {p : List Source} {k : List EventKind} {c : List Tally} (h : State.SettlesTo p k c s t) :
    t.unit = s.unit := by rw [h.rest]

theorem State.SettlesTo.sameOwners {p : List Source} {k : List EventKind} {c : List Tally}
    (h : State.SettlesTo p k c s t) : s.output.sameOwners t.output := ⟨h.owners, h.cuts⟩

theorem State.DirectLaw.settles {p : List Source} {k : List EventKind} {c : List Tally} (h : s.DirectLaw)
    (hs : State.SettlesTo p k c s t) : t.DirectLaw := h.owners hs.sameOwners (by rw [hs.unit])

/-- A change of one channel that gives it no new holder. -/
theorem State.DirectLaw.channel (h : s.DirectLaw) {ch : Channel} {f : ChannelRec → ChannelRec}
    (hf : ∀ c : ChannelRec, (f c).holder.isSome = true → c.holder.isSome = true) : (s.changeChannel ch f).DirectLaw := by
  obtain ⟨same, other, -⟩ := State.changeChannel_spec ch f s
  refine h.mono (fun k hk => ?_) rfl
  by_cases hc : k = ch
  · subst hc
    rw [same, (ChannelRec.reform_spec _ _ _ _).2.2.2.1] at hk
    exact hf _ hk
  · rw [other k hc] at hk; exact hk

theorem State.DirectLaw.release (h : s.DirectLaw) {ch : Channel} :
    (s.changeChannel ch ChannelRec.release).DirectLaw := h.channel fun _ hc => nomatch hc

/-- The posts of an arm's channels leave the holders. -/
theorem State.DirectLaw.arms (h : s.DirectLaw) {a : Arm} {f : ArmRec → ArmRec} :
    ((s.modArm a f).postCoils a).DirectLaw :=
  State.DirectLaw.owners (s := s.modArm a f) (h.same rfl rfl) (State.postCoils_spec a (s.modArm a f)).2.2.1
    (by simp)

theorem directLaw_keptCore : State.KeptCore State.DirectLaw where
  elapse h := h.same (by simp) (by simp)
  periods h := h
  links h := h
  freeCount h := h
  post h := h.same (by simp) (by simp)
  quiet _ h := h
  raiseAlarm h := h.same (by simp) (by simp)
  alarmGone h := h.same (by simp) (by simp)
  bumpBy h := h
  bank _ h := h
  activate _ h := h.same (by simp) (by simp)
  deactivate _ h := h.same (by simp) (by simp)
  updateCap _ h := h.same (by simp) (by simp)
  travel _ h := h
  addDistance h := h.same (by simp) (by simp)
  scan _ h := h
  gov _ h := h
  setpoint _ h := h.channel fun _ hc => hc
  trim {ch f _} hf h := h.mono (fun k hk => by
    by_cases hc : k = ch
    · subst hc
      rw [State.modOutput_output, Output.modChannel_same, (hf _).2.2.2.1] at hk; exact hk
    · rw [State.modOutput_output, Output.modChannel_other hc] at hk; exact hk) rfl
  endDirect h := h.release
  faultChannel _ h := h.channel fun _ hc => nomatch hc
  mendChannel _ _ h := h.channel fun _ hc => hc
  takeDirect _ hm _ _ _ := fun _ _ => hm
  setDriveCut {s} h := State.DirectLaw.release (State.DirectLaw.release (s := s.modOutput fun o => { o with driveCut := true }) h)
  broomCut {s} h := State.DirectLaw.same
    (s := ((s.setBroomCut).modArms fun x => { x with cutSeen := true }).postSetpoint 13 0)
    (State.DirectLaw.channel (s := s.setBroomCut) (State.DirectLaw.release (s := s.modOutput fun o => { o with broomCut := true }) h) fun _ hc => hc) rfl rfl
  releaseBroom {s} h := State.DirectLaw.channel (s := s.modOutput fun o => { o with broomCut := false }) h fun _ hc => hc
  unit hf h := h.mono (fun _ hc => hc) (hf _).1
  setMode {m s} hm h := by
    have none : ∀ ch : Channel, ¬s.output.channels[ch].holder.isSome = true := fun ch hc => by
      have := h ch hc
      cases hm <;> simp_all
    exact fun ch hc => absurd (((State.setMode_spec m s).1.sameOwners.1 ch).2.1 ▸ hc) (none ch)
  leaveService {s} _ _ := fun ch hc => by
    rw [((State.leaveService_spec s).2.2.2.1 ch).1] at hc; cases hc
  turn hf _ h := State.DirectLaw.settles (s := State.modUnit _ _) (h.mono (fun _ hc => hc) hf.1)
    (State.programChanged_spec _).1
  store _ _ h := h
  pend _ h := h
  armFlags _ h := h
  armMarks _ h := h
  rephase _ _ h := h.arms
  postRotation {a s} h := State.DirectLaw.same (s := s.postSetpoint a.motor _) (h.channel fun _ hc => hc) rfl rfl
  postForce {a v s} h := by
    unfold State.postForce
    split
    · next ch _ => exact State.DirectLaw.same (s := s.postSetpoint ch v) (h.channel fun _ hc => hc) rfl rfl
    · exact h
  judgeBars h := h.settles (State.judgeBars_spec _).1
  settleBars {f s} _ h := State.DirectLaw.settles (s := s.modSpray f) h (State.judgeBars_spec _).1
  pump _ h := h
  cycleStart {b s} h := h.mono (fun ch hc => by
    by_cases hb : ch = b.valve
    · subst hb; rw [(State.cycleStart_spec b s).owners.2.1] at hc; exact hc
    · rw [(State.cycleStart_spec b s).channels ch hb] at hc; exact hc) (by simp)
  closeValve {b s} h := State.DirectLaw.same (s := s.postSetpoint b.valve 0) (h.channel fun _ hc => hc) rfl rfl
  settings _ _ _ h := h
  transportMax _ h := h.same (by simp) (by simp)


/-- A channel after power-on reset, but for its measured current (R159). -/
theorem State.powerOn_channel (x : Straps) (s : State) (ch : Channel) :
    (s.powerOn x).output.channels[ch] = { Output.initial.channels[ch] with measured := freeCurrent s.freeCount ch } := by
  simp [State.powerOn, State.initial]

theorem Output.initial_channel (ch : Channel) :
    Output.initial.channels[ch].holder = none ∧ Output.initial.channels[ch].setpoint = 0 ∧
    Output.initial.channels[ch].target = 0 ∧ Output.initial.channels[ch].fault = .none ∧
    Output.initial.channels[ch].carrier.part = .rest := by
  revert ch; decide

/-- A channel after a joint restart, but for its measured current (R159, R188). -/
theorem State.jointRestart_channel (s : State) (ch : Channel) :
    s.jointRestart.output.channels[ch] = restartChannel (freeCurrent s.freeCount ch) s.output.channels[ch] := by
  simp [State.jointRestart, Output.restarted]

theorem State.DirectLaw.setpoint (h : s.DirectLaw) {ch : Channel} {v : Nat} : (s.postSetpoint ch v).DirectLaw :=
  h.channel fun _ hc => hc

theorem State.DirectLaw.drivePeriod (h : s.DirectLaw) : s.drivePeriod.DirectLaw :=
  directLaw_keptCore.drivePeriod (fun h => h.same (by simp) (by simp)) (fun h => h.same (by simp) (by simp)) (fun h => h)
    (fun {s} h => by
      unfold State.postPump
      repeat' split
      all_goals exact State.DirectLaw.setpoint h.setpoint)
    (fun {s} h => by
      unfold State.releaseDrive
      split
      · exact State.DirectLaw.channel (ch := 1) (f := id) (State.DirectLaw.channel (ch := 0) (f := id)
          (s := s.modOutput fun o => { o with driveCut := false }) h fun _ hc => hc) fun _ hc => hc
      · exact h) h

/-- Settles O54: a holder comes by DIRECT_DRIVE alone, in SERVICE, and goes with SERVICE (R13, R171, R172). -/
theorem directLawKept : Obligations.DirectLawKept := fun _ _ h hs =>
  (directLaw_keptCore.kept fun _ h => h.arms).step (fun h => h) (fun _ => {
    lower := fun _ _ _ _ _ h => directLaw_keptCore.moved h.arms
    drive := fun _ _ h => h.drivePeriod
    powerOn := fun x _ s _ ch hc => by rw [State.powerOn_channel, (Output.initial_channel ch).1] at hc; cases hc
    joint := fun _ _ _ ch hc => by rw [State.jointRestart_channel] at hc; cases hc }) h hs

end

/-! ### The law of the program table (R14) -/

section
variable {s t : State}

theorem State.ProgramLaw.same (h : s.ProgramLaw) (hu : t.unit = s.unit) : t.ProgramLaw := by
  unfold State.ProgramLaw; rw [hu]; exact h

/-- A program that may stand in a slot is valid. -/
theorem State.ProgramLaw.valid (h : s.ProgramLaw) {p : Program} (hp : s.unit.mayHold p) : p.valid = true := by
  obtain ⟨slots, swap, -⟩ := h
  rcases hp with hp | ⟨i, hi⟩ | ⟨w, hw, rfl⟩
  · exact hp
  · exact slots i p hi
  · exact swap w hw

/-- The mode changes to one in which some slot is active, if it is a working one. -/
theorem State.ProgramLaw.mode (h : s.ProgramLaw) {m : Mode}
    (hm : m.working = true → s.unit.active.isSome = true) (hu : t.unit = { s.unit with mode := m }) : t.ProgramLaw := by
  obtain ⟨slots, swap, active, -⟩ := h
  unfold State.ProgramLaw
  rw [hu]
  exact ⟨slots, swap, active, hm⟩

/-- A slot takes what it may hold. -/
theorem slots_set_valid {slots : Vector (Option Program) 8} {i : Fin 8} {o : Option Program}
    (h : ∀ (j : Fin 8) (p : Program), slots[j] = some p → p.valid = true) (ho : ∀ p ∈ o, p.valid = true) (j : Fin 8)
    (p : Program) (hp : (slots.set i o)[j] = some p) : p.valid = true := by
  rw [Fin.getElem_fin, Vector.getElem_set] at hp
  split at hp
  · exact ho p hp
  · exact h j p hp

theorem State.ProgramLaw.turn (h : s.ProgramLaw) {i : Fin 8} {p : Program} (hp : s.unit.mayHold p)
    (hu : s.unit.turnsTo i p t.unit) : t.ProgramLaw := by
  have valid := h.valid hp
  obtain ⟨slots, swap, active, mode⟩ := h
  obtain ⟨um, us, ua, uw⟩ := hu
  refine ⟨fun j q hq => ?_, fun w hw => ?_, fun j hj => ?_, fun _ => by rw [ua]; rfl⟩
  · rw [us] at hq
    exact slots_set_valid slots (fun q hq => by cases hq; exact valid) j q hq
  · rcases uw with uw | uw
    · exact swap w (uw ▸ hw)
    · rw [uw] at hw; cases hw
  · rw [ua] at hj; cases hj
    rw [us]; simp

theorem State.ProgramLaw.store (h : s.ProgramLaw) {i : Fin 8} {o : Option Program} (ha : s.unit.active ≠ some i)
    (ho : ∀ p ∈ o, s.unit.mayHold p) : (s.modUnit fun u => { u with slots := u.slots.set i o }).ProgramLaw := by
  have valid := fun p hp => h.valid (ho p hp)
  obtain ⟨slots, swap, active, mode⟩ := h
  refine ⟨slots_set_valid slots valid, swap, fun j hj => ?_, mode⟩
  have hij : i.val ≠ j.val := fun e => ha (by rw [Fin.ext e]; exact hj)
  simp only [State.modUnit_unit, Fin.getElem_fin, Vector.getElem_set_ne _ _ hij]
  exact active j hj

theorem programLaw_keptCore : State.KeptCore State.ProgramLaw where
  elapse h := h.same (by simp)
  periods h := h
  links h := h
  freeCount h := h
  post h := h.same (by simp)
  quiet _ h := h
  raiseAlarm h := h.same (by simp)
  alarmGone h := h.same (by simp)
  bumpBy h := h
  bank _ h := h
  activate _ h := h.same (by simp)
  deactivate _ h := h.same (by simp)
  updateCap _ h := h.same (by simp)
  travel _ h := h
  addDistance h := h.same (by simp)
  scan _ h := h
  gov _ h := h
  setpoint _ h := h
  trim _ h := h
  endDirect h := h
  faultChannel _ h := h
  mendChannel _ _ h := h
  takeDirect _ _ _ _ h := h
  setDriveCut h := h
  broomCut h := h
  releaseBroom h := h
  unit {f s} hf h := by
    obtain ⟨hm, hs, ha, hw⟩ := hf s.unit
    unfold State.ProgramLaw
    rw [State.modUnit_unit, hm, hs, ha, hw]
    exact h
  setMode {m s} hm h := by
    refine h.mode (fun hw => ?_) (State.setMode_spec m s).1.unit
    cases hm
    case entering ha => exact ha
    case sweep hm => exact h.2.2.2 (by rw [hm]; rfl)
    case leaving hm => exact h.2.2.2 (by rcases hm with hm | hm <;> rw [hm] <;> rfl)
    case transport => cases hw
    case service => cases hw
  leaveService {s} _ h := by
    obtain ⟨-, -, -, -, -, -, rest⟩ := State.leaveService_spec s
    exact h.mode (m := .transport) (fun hw => by cases hw) (by rw [rest])
  turn {f i p s} hf hp h := h.turn hp (by rw [(State.programChanged_spec _).1.unit]; exact hf)
  store ha ho h := h.store ha ho
  pend hw h := ⟨h.1, fun w' hw' => by cases hw'; exact h.valid hw, h.2.2⟩
  armFlags _ h := h
  armMarks _ h := h
  rephase _ _ h := h.same (by simp)
  postRotation h := h
  postForce h := h.same (by simp)
  judgeBars h := h.same (by simp)
  settleBars _ h := h.same (by simp)
  pump _ h := h
  cycleStart h := h.same (by simp)
  closeValve h := h
  settings _ _ _ h := h
  transportMax _ h := h.same (by simp)

/-- Without a pending swap a joint restart keeps table and active slot (R14). -/
theorem ModeUnit.restarted_stands (u : ModeUnit) (h : u.swap = none) :
    u.restarted.slots = u.slots ∧ u.restarted.active = u.active := by
  simp only [ModeUnit.restarted, h, and_self]

/-- A joint restart applies a pending swap (R28). -/
theorem ModeUnit.restarted_swaps (u : ModeUnit) {w : Swap} (h : u.swap = some w) :
    u.restarted.slots = u.slots.set w.target (some w.record) ∧ u.restarted.active = some w.target := by
  simp only [ModeUnit.restarted, h, and_self]

/-- A joint restart keeps the table and writes a pending swap into its slot (R14, R28). -/
theorem State.ProgramLaw.jointRestart (h : s.ProgramLaw) : s.jointRestart.ProgramLaw := by
  have swapped := fun w hw => h.valid (p := Swap.record w) (.inr (.inr ⟨w, hw, rfl⟩))
  obtain ⟨slots, -, active, -⟩ := h
  suffices hr : (∀ (i : Fin 8) (p : Program), s.unit.restarted.slots[i] = some p → p.valid = true) ∧
      ∀ i, s.unit.restarted.active = some i → s.unit.restarted.slots[i].isSome = true from
    ⟨hr.1, (fun _ hw => nomatch hw), hr.2, fun hm => nomatch hm⟩
  cases hw : s.unit.swap with
  | none =>
    obtain ⟨es, ea⟩ := s.unit.restarted_stands hw
    rw [es, ea]; exact ⟨slots, active⟩
  | some w =>
    obtain ⟨es, ea⟩ := s.unit.restarted_swaps hw
    rw [es, ea]
    refine ⟨slots_set_valid slots fun p hp => by cases hp; exact swapped w hw, fun i hi => ?_⟩
    cases hi; simp

/-- Settles O55: a record is valid before it comes into a slot or a swap, the active slot is never erased, and a working mode is
entered from TRANSPORT with a slot active (R6, R22, R24). -/
theorem programLawKept : Obligations.ProgramLawKept := fun _ _ h hs =>
  (programLaw_keptCore.kept fun _ h => h.same (by simp)).step (fun h => h) (fun _ => {
    lower := fun _ _ _ _ _ h => programLaw_keptCore.moved (h.same (by simp))
    drive := fun _ _ h => programLaw_keptCore.drivePeriod (fun h => h.same (by simp)) (fun h => h.same (by simp))
      (fun h => h) (fun h => h.same (by simp)) (fun h => h.same (by simp)) h
    powerOn := fun _ _ _ _ => ⟨fun i p hp => by simp [State.powerOn, State.initial] at hp, (fun _ hw => nomatch hw),
      (fun _ hi => nomatch hi), (fun hm => nomatch hm)⟩
    joint := fun _ _ h => h.jointRestart }) h hs

end

end Sys2Proof.Machine
end

section
/-! The speed reference and the loaded direction: the binding source of the Ceiling Table is the lowest cap in scope, and what
every step keeps of R68, R71 and R151. -/

namespace Sys2Proof.Machine

/-! ### The binding source (R56) -/

/-- `best` leads the sources seen so far: none of them applies, or `best` is the one of the lowest cap, and of these the one in
the lowest slot. -/
def CeilingTable.Leads (t : CeilingTable) (d : Dir) (seen : List Source) : Option Source → Prop
  | none => ∀ x ∈ seen, t.applies d x = false
  | some b => b ∈ seen ∧ t.applies d b = true ∧ ∀ x ∈ seen, t.applies d x = true →
      (t.entry b).cap ≤ (t.entry x).cap ∧ ((t.entry x).cap = (t.entry b).cap → b.slot ≤ x.slot)

section
variable {t : CeilingTable} {d : Dir} {seen : List Source} {best : Option Source} {src : Source}

/-- One comparison of the search keeps the lead. -/
theorem CeilingTable.Leads.better (h : t.Leads d seen best) (hs : ∀ x ∈ seen, x.slot ≤ src.slot) :
    t.Leads d (seen ++ [src]) (t.better d best src) := by
  unfold CeilingTable.better
  cases best with
  | none =>
    split
    · next ha =>
      refine ⟨by simp, ha, fun x hx hax => ?_⟩
      rcases List.mem_append.1 hx with hx | hx
      · rw [h x hx] at hax; cases hax
      · obtain rfl := List.mem_singleton.1 hx; exact ⟨le_rfl, fun _ => le_rfl⟩
    · next ha =>
      intro x hx
      rcases List.mem_append.1 hx with hx | hx
      · exact h x hx
      · obtain rfl := List.mem_singleton.1 hx; simpa using ha
  | some b =>
    obtain ⟨hb, hab, least⟩ := h
    split
    · next ha =>
      dsimp only
      split
      · next hlt =>
        refine ⟨by simp, ha, fun x hx hax => ?_⟩
        rcases List.mem_append.1 hx with hx | hx
        · have := (least x hx hax).1
          exact ⟨by omega, fun he => absurd he (by omega)⟩
        · obtain rfl := List.mem_singleton.1 hx; exact ⟨le_rfl, fun _ => le_rfl⟩
      · next hge =>
        refine ⟨by simp [hb], hab, fun x hx hax => ?_⟩
        rcases List.mem_append.1 hx with hx | hx
        · exact least x hx hax
        · obtain rfl := List.mem_singleton.1 hx; exact ⟨by omega, fun _ => hs b hb⟩
    · next ha =>
      refine ⟨by simp [hb], hab, fun x hx hax => ?_⟩
      rcases List.mem_append.1 hx with hx | hx
      · exact least x hx hax
      · obtain rfl := List.mem_singleton.1 hx; exact absurd hax ha

theorem CeilingTable.Leads.foldl (rest : List Source) (hs : (seen ++ rest).Pairwise fun a b => a.slot ≤ b.slot)
    (h : t.Leads d seen best) : t.Leads d (seen ++ rest) (rest.foldl (t.better d) best) := by
  induction rest generalizing seen best with
  | nil => simpa using h
  | cons src rest ih =>
    have before : ∀ x ∈ seen, x.slot ≤ src.slot := fun x hx =>
      (List.pairwise_append.1 hs).2.2 x hx src List.mem_cons_self
    have := ih (by simpa using hs) (h.better before)
    simpa using this

/-- With MODE active some entry applies, and the binding source leads them all (R56). -/
theorem CeilingTable.binding_leads (t : CeilingTable) (d : Dir) (hm : (t.entry .mode).active = true) :
    t.Leads d Source.all (some (t.binding d)) := by
  have lead := CeilingTable.Leads.foldl (t := t) (d := d) (seen := []) (best := none) Source.all
    (by decide) (fun _ hx => nomatch hx)
  have applies : t.applies d .mode = true := by
    simp only [CeilingTable.applies, hm, Bool.true_and]; cases d <;> rfl
  unfold CeilingTable.binding
  cases hb : Source.all.foldl (t.better d) none with
  | none => rw [hb] at lead; rw [lead .mode (by decide)] at applies; cases applies
  | some b => rw [hb] at lead; exact lead

/-- The effective ceiling is at most the cap of MODE (R56). -/
theorem CeilingTable.effective_le_mode (t : CeilingTable) (d : Dir) (hm : (t.entry .mode).active = true) :
    t.effective d ≤ (t.entry .mode).cap :=
  ((t.binding_leads d hm).2.2 .mode (by decide) (by
    simp only [CeilingTable.applies, hm, Bool.true_and]; cases d <;> rfl)).1

end

/-! ### The target and the ramp (R69, R71) -/

/-- The target lies within the ceiling read (R69). -/
theorem formTarget_le_limit {r : DriveRead} {g : Governor} {c : Nat} (hc : r.limit g = some c) : formTarget r g ≤ c := by
  unfold formTarget
  rw [hc]
  split
  · exact Nat.zero_le _
  · split
    · exact Nat.zero_le _
    · exact Nat.min_le_right _ _

theorem formTarget_le_mode {r : DriveRead} (g : Governor) (hm : (r.ceiling.entry .mode).active = true) :
    formTarget r g ≤ (r.ceiling.entry .mode).cap := by
  cases hl : r.limit g with
  | none => simp [formTarget, hl]
  | some c =>
    refine (formTarget_le_limit hl).trans ?_
    obtain ⟨d, -, rfl⟩ := Option.map_eq_some_iff.1 hl
    exact r.ceiling.effective_le_mode d hm

/-- A ramp step does not pass the target from below (R71). -/
theorem rampedRef_le (r : DriveRead) (set : GovernorSettings) (target : Nat) (g : Governor) :
    rampedRef r set target g ≤ max g.vRef target := by
  unfold rampedRef
  dsimp only
  split
  · split <;> omega
  · omega

theorem Governor.period_vRef (r : DriveRead) (set : GovernorSettings) (g : Governor) :
    (g.period r set).vRef = rampedRef r set (formTarget r g) { g with target := formTarget r g } := rfl

/-! ### The law of the speed reference (R71, R56, R50, R182) -/

section
variable {s t : State}

theorem State.SpeedLaw.mono (h : s.SpeedLaw) (he : t.ceiling.sameEntry s.ceiling .mode)
    (hx : t.settings.caps.transportMax = s.settings.caps.transportMax) (hv : t.gov.vRef ≤ s.gov.vRef) : t.SpeedLaw := by
  obtain ⟨active, cap, ref⟩ := h
  exact ⟨he.1.trans active, by rw [he.2.1, hx]; exact cap, by rw [hx]; exact hv.trans ref⟩

theorem State.SpeedLaw.same (h : s.SpeedLaw) (hc : t.ceiling = s.ceiling) (hx : t.settings = s.settings)
    (hg : t.gov = s.gov) : t.SpeedLaw :=
  h.mono (by rw [hc]; exact ⟨rfl, rfl, rfl⟩) (by rw [hx]) (by rw [hg])

/-- MODE is not posted to: what settles keeps the law. -/
theorem State.SpeedLaw.settles {p : List Source} {k : List EventKind} {c : List Tally} (h : s.SpeedLaw)
    (hs : State.SettlesTo p k c s t) (hp : Source.mode ∉ p) : t.SpeedLaw :=
  h.mono (hs.entries .mode hp (by decide) (by decide)) (by rw [hs.rest]) (by rw [hs.rest])

theorem State.modeCap_le (s : State) : s.modeCap ≤ s.settings.caps.transportMax := by
  unfold State.modeCap
  cases s.unit.mode <;> simp

/-- The MODE cap written anew is at most the transport max speed (R5). -/
theorem State.SpeedLaw.writeModeCap (ha : (s.ceiling.entry .mode).active = true)
    (hv : s.gov.vRef ≤ s.settings.caps.transportMax) : s.writeModeCap.SpeedLaw := by
  obtain ⟨active, cap, -, settles⟩ := State.updateCap_spec .mode s.modeCap s
  refine ⟨active.trans ha, ?_, ?_⟩
  · have hx : s.writeModeCap.settings = s.settings := by simp
    rw [hx]; exact cap.le.trans s.modeCap_le
  · simpa using hv

/-- The bars judged, their water held and the dry sweep cap posted (R128, R137). -/
theorem State.sprayProgramChange_settlesTo (s : State) :
    State.SettlesTo [.drySweep] [] [.shortfall] s s.sprayProgramChange := by
  have judged := (State.judgeBars_spec s).1
  have left := (State.holdOwed_spec .left s.judgeBars).2.2
  have right := (State.holdOwed_spec .right (s.judgeBars.holdOwed .left)).2.2
  have main := (State.holdOwed_spec .main ((s.judgeBars.holdOwed .left).holdOwed .right)).2.2
  have cap := (State.updateCap_spec .drySweep (Bar.all.foldl State.holdOwed s.judgeBars).program.dryCap
    (Bar.all.foldl State.holdOwed s.judgeBars)).2.2.2
  have held := ((judged.trans left (by decide)).trans right (by decide)).trans main (by decide)
  have all := (held.trans cap (by decide)).weaken (p' := [.drySweep]) (c' := [.shortfall]) (by simp) (by simp)
  have same : (Bar.all.foldl State.holdOwed s.judgeBars).program = s.program := by
    have hu : (Bar.all.foldl State.holdOwed s.judgeBars).unit = s.unit := held.unit
    simp only [State.program, State.inForce, hu]
  rw [same] at all
  exact all

theorem State.SpeedLaw.programChanged (h : s.SpeedLaw) : s.programChanged.SpeedLaw := by
  have capped := State.SpeedLaw.writeModeCap h.1 h.2.2
  have reversed := capped.settles (State.updateCap_spec .reverseArms s.writeModeCap.reverseCap s.writeModeCap).2.2.2
    (by decide)
  exact reversed.settles (State.sprayProgramChange_settlesTo _) (by decide)

theorem State.SpeedLaw.setMode (h : s.SpeedLaw) {m : Mode} : (s.setMode m).SpeedLaw := by
  have capped := State.SpeedLaw.writeModeCap (s := s.modUnit fun u => { u with mode := m }) h.1 h.2.2
  have posted := capped.settles (State.postBoth_settlesTo .modeChanged _) (by decide)
  exact posted.settles (State.judgeBars_spec _).1 (by decide)

theorem State.SpeedLaw.leaveService (h : s.SpeedLaw) : s.leaveService.SpeedLaw :=
  (h.setMode (m := .transport)).same (by simp [State.leaveService]) (by simp [State.leaveService])
    (by simp [State.leaveService])

/-- Only the transport max speed itself stands at its address (R49). -/
theorem Settings.put_transportMax {k : Setting} (hk : k ≠ .transportMax) (x : Settings) (v : Int) :
    (x.put v k).caps.transportMax = x.caps.transportMax := by
  cases k <;> first | rfl | exact absurd rfl hk

theorem State.settingsOpen_vRef (ho : s.settingsOpen = true) : s.gov.vRef = 0 := by
  simp only [State.settingsOpen, Bool.and_eq_true, beq_iff_eq] at ho
  exact ho.2

theorem State.SpeedLaw.channel (h : s.SpeedLaw) {ch : Channel} {f : ChannelRec → ChannelRec} :
    (s.changeChannel ch f).SpeedLaw := h

theorem speedLaw_keptCore : State.KeptCore State.SpeedLaw where
  elapse h := h.same (by simp) (by simp) (by simp)
  periods h := h
  links h := h
  freeCount h := h
  post h := h
  quiet _ h := h
  raiseAlarm h := h.same (by simp) (by simp) (by simp)
  alarmGone h := h.same (by simp) (by simp) (by simp)
  bumpBy h := h
  bank _ h := h
  activate hs h := h.settles (State.activate_spec _ _ _).2.2.2 (by simpa using hs.symm)
  deactivate hs h := h.settles (State.deactivate_spec _ _).2.2.2 (by simpa using hs.symm)
  updateCap hs h := h.settles (State.updateCap_spec _ _ _).2.2.2 (by simpa using hs.symm)
  travel _ h := h
  addDistance h := h.same (by simp) (by simp) (by simp)
  scan _ h := h
  gov hf h := h.mono ⟨rfl, rfl, rfl⟩ rfl (hf _).2
  setpoint _ h := h
  trim _ h := h
  endDirect h := h
  faultChannel _ h := h
  mendChannel _ _ h := h
  takeDirect _ _ _ _ h := h
  setDriveCut h := h
  broomCut h := h.same (by simp) (by simp) (by simp)
  releaseBroom h := h.same (by simp) (by simp) (by simp)
  unit _ h := h
  setMode _ h := h.setMode
  leaveService _ h := h.leaveService
  turn {f _ _ s} _ _ h := State.SpeedLaw.programChanged (s := s.modUnit f) h
  store _ _ h := h
  pend _ h := h
  armFlags _ h := h
  armMarks _ h := h
  rephase _ _ h := h.same (by simp) (by simp) (by simp)
  postRotation h := h
  postForce h := h.same (by simp) (by simp) (by simp)
  judgeBars h := h.settles (State.judgeBars_spec _).1 (by decide)
  settleBars {f s} _ h := State.SpeedLaw.settles (s := s.modSpray f) h (State.judgeBars_spec _).1 (by decide)
  pump _ h := h
  cycleStart h := h.same (by simp) (by simp) (by simp)
  closeValve h := h
  settings _ _ hk h := h.mono ⟨rfl, rfl, rfl⟩ (Settings.put_transportMax hk _ _) le_rfl
  transportMax ho h := State.SpeedLaw.writeModeCap (s := State.modSettings _ _) h.1
    (le_of_eq_of_le (State.settingsOpen_vRef ho) (Nat.zero_le _))

/-- The report direction and comparator 3 follow the held direction; no entry moves (R57, R68, R151). -/
theorem State.SpeedLaw.takeDirection (h : s.SpeedLaw) : s.takeDirection.SpeedLaw := by
  have reported : ∀ {d : DriveDir} {u : State}, u.SpeedLaw → (u.reportHeld d).SpeedLaw := fun {d u} hu => by
    have turned : ∀ e : Dir, (u.changeCeiling fun c => { c with reportDir := e }).SpeedLaw := fun e =>
      hu.mono ((State.changeCeiling_spec _ _).1 .mode) (by simp) (by simp)
    cases d
    · exact hu
    · exact turned .forward
    · exact turned .reverse
  have restarted : ∀ {d : DriveDir} {u : State}, u.SpeedLaw → (u.restart3 d).SpeedLaw := fun {d u} hu => by
    unfold State.restart3
    dsimp only
    split
    · exact hu
    · split
      · exact State.KeptCore.governorClear speedLaw_keptCore (s := u.modScan _) hu
      · exact hu
  unfold State.takeDirection
  split
  · exact restarted (reported (u := s.modGov fun g => { g with held := s.gov.demandDir }) h)
  · exact h

/-- The reference of an expiry lies within the reference before or the MODE cap read (R69, R71). -/
theorem Governor.period_vRef_le {r : DriveRead} (set : GovernorSettings) (g : Governor) {n : Nat}
    (hm : (r.ceiling.entry .mode).active = true) (hc : (r.ceiling.entry .mode).cap ≤ n) (hv : g.vRef ≤ n) :
    (g.period r set).vRef ≤ n := by
  rw [Governor.period_vRef]
  exact (rampedRef_le _ _ _ _).trans (max_le hv ((formTarget_le_mode g hm).trans hc))

theorem State.keepRead_gov (r : DriveRead) (s : State) :
    (s.keepRead r).gov.held = s.gov.held ∧ (s.keepRead r).gov.vRef = s.gov.vRef := by
  unfold State.keepRead
  split <;> exact ⟨rfl, rfl⟩

theorem State.SpeedLaw.drivePeriod (h : s.SpeedLaw) : s.drivePeriod.SpeedLaw := by
  have taken : s.shiftTest.takeDirection.SpeedLaw := (speedLaw_keptCore.shiftTest h).takeDirection
  have read : (s.shiftTest.takeDirection.keepRead s.driveRead).SpeedLaw :=
    taken.mono (by simp [CeilingTable.sameEntry]) (by simp) (State.keepRead_gov _ _).2.le
  unfold State.drivePeriod
  dsimp only
  generalize hu : s.shiftTest.takeDirection.keepRead s.driveRead = u at *
  have hx : u.settings = s.settings := by rw [← hu]; simp
  have stepped : (u.modGov (Governor.period s.driveRead u.settings.governor)).SpeedLaw := by
    obtain ⟨active, cap, ref⟩ := read
    exact ⟨active, cap, Governor.period_vRef_le _ _ h.1 (by
      rw [State.modGov_settings, hx]; exact h.2.1) ref⟩
  have pumped : (u.modGov (Governor.period s.driveRead u.settings.governor)).postPump.SpeedLaw :=
    stepped.same (by simp) (by simp) (by simp)
  unfold State.releaseDrive
  split
  · exact speedLaw_keptCore.gov (f := fun g => { g with cutSeen := false }) (fun _ => ⟨rfl, le_rfl⟩)
      (State.SpeedLaw.same (t := State.releaseDriveCut _) pumped (by simp) (by simp) (by simp))
  · exact pumped

/-- The reset state has the law (R49, R50). -/
theorem State.SpeedLaw.powerOn (x : Straps) (s : State) : (s.powerOn x).SpeedLaw := by
  have hc : (s.powerOn x).ceiling = CeilingTable.initial := rfl
  have hx : (s.powerOn x).settings = {} := rfl
  have hg : (s.powerOn x).gov = {} := rfl
  unfold State.SpeedLaw
  rw [hc, hx, hg]
  decide

/-- A joint restart keeps the transport max speed, which is the MODE cap of TRANSPORT (R5, R188). -/
theorem State.SpeedLaw.jointRestart (s : State) : s.jointRestart.SpeedLaw := by
  refine ⟨rfl, ?_, Nat.zero_le _⟩
  exact le_rfl

end

/-! ### The law of the loaded direction (R68, R151) -/

section
variable {s t : State}

theorem State.HeldLaw.same (h : s.HeldLaw) (hg : t.gov = s.gov) (hx : t.scan = s.scan) : t.HeldLaw := by
  unfold State.HeldLaw; rw [hg, hx]; exact h

/-- A return to CLEAR at the governor keeps its direction and reference (R80, R81). -/
theorem State.governorClear_held (s : State) :
    s.governorClear.gov.held = s.gov.held ∧ s.governorClear.gov.vRef = s.gov.vRef := by
  unfold State.governorClear
  dsimp only
  split
  · simp
  · exact ⟨rfl, rfl⟩

theorem State.reportHeld_gov (d : DriveDir) (s : State) : (s.reportHeld d).gov = s.gov ∧ (s.reportHeld d).scan = s.scan := by
  simp

/-- The report of a direction loads it (R151). -/
theorem State.restart3_input3 (d : DriveDir) (s : State) :
    (s.restart3 d).scan.input3 = d ∧ (s.restart3 d).gov.held = s.gov.held := by
  unfold State.restart3
  dsimp only
  split
  · next h => exact ⟨h, rfl⟩
  · split
    · exact ⟨by simp, by simp [State.governorClear_held]⟩
    · exact ⟨rfl, rfl⟩

theorem heldLaw_keptCore : State.KeptCore State.HeldLaw where
  elapse h := h.same (by simp) (by simp)
  periods h := h
  links h := h
  freeCount h := h
  post h := h
  quiet _ h := h
  raiseAlarm h := h.same (by simp) (by simp)
  alarmGone h := h.same (by simp) (by simp)
  bumpBy h := h
  bank _ h := h
  activate _ h := h.same (by simp) (by simp)
  deactivate _ h := h.same (by simp) (by simp)
  updateCap _ h := h.same (by simp) (by simp)
  travel _ h := h
  addDistance h := h.same (by simp) (by simp)
  scan hf h := h.trans (hf _).symm
  gov hf h := (hf _).1.trans h
  setpoint _ h := h
  trim _ h := h
  endDirect h := h
  faultChannel _ h := h
  mendChannel _ _ h := h
  takeDirect _ _ _ _ h := h
  setDriveCut h := h
  broomCut h := h.same (by simp) (by simp)
  releaseBroom h := h.same (by simp) (by simp)
  unit _ h := h
  setMode _ h := h.same (by simp) (by simp)
  leaveService _ h := h.same (by simp) (by simp)
  turn {f _ _ s} _ _ h := State.HeldLaw.same (s := s.modUnit f) h (by simp) (by simp)
  store _ _ h := h
  pend _ h := h
  armFlags _ h := h
  armMarks _ h := h
  rephase _ _ h := h.same (by simp) (by simp)
  postRotation h := h
  postForce h := h.same (by simp) (by simp)
  judgeBars h := h.same (by simp) (by simp)
  settleBars {f s} _ h := State.HeldLaw.same (s := s.modSpray f) h (by simp) (by simp)
  pump _ h := h
  cycleStart h := h.same (by simp) (by simp)
  closeValve h := h
  settings _ _ _ h := h
  transportMax _ h := h.same (by simp) (by simp)

/-- The direction taken up is the one loaded (R68, R151). -/
theorem State.HeldLaw.takeDirection (h : s.HeldLaw) : s.takeDirection.HeldLaw := by
  unfold State.takeDirection
  split
  · obtain ⟨loaded, held⟩ := State.restart3_input3 s.gov.demandDir
      ((s.modGov fun g => { g with held := s.gov.demandDir }).reportHeld s.gov.demandDir)
    have reported : ((s.modGov fun g => { g with held := s.gov.demandDir }).reportHeld s.gov.demandDir).gov.held =
        s.gov.demandDir := by simp
    exact (held.trans reported).trans loaded.symm
  · exact h

theorem State.HeldLaw.drivePeriod (h : s.HeldLaw) : s.drivePeriod.HeldLaw :=
  heldLaw_keptCore.drivePeriod (fun h => h.takeDirection)
    (fun {r s} h => ((State.keepRead_gov r s).1.trans h).trans (by simp))
    (fun h => h) (fun h => h.same (by simp) (by simp))
    (fun {s} h => by
      unfold State.releaseDrive
      split
      · exact heldLaw_keptCore.gov (fun _ => ⟨rfl, le_rfl⟩) (State.HeldLaw.same (t := s.releaseDriveCut) h rfl rfl)
      · exact h) h

/-- Settles O56: the speed reference rises to a target below the MODE cap read, which is at most the transport max speed
(R56, R69, R71); the held direction is loaded where it is taken up (R68, R151). -/
theorem speedLawKept : Obligations.SpeedLawKept := fun _ _ hs =>
  ⟨fun h => (speedLaw_keptCore.kept fun _ h => h.same (by simp) (by simp) (by simp)).step (fun h => h) (fun _ => {
      lower := fun _ _ _ _ _ h => speedLaw_keptCore.moved (h.same (by simp) (by simp) (by simp))
      drive := fun _ _ h => h.drivePeriod
      powerOn := fun x _ s _ => State.SpeedLaw.powerOn x s
      joint := fun _ s _ => State.SpeedLaw.jointRestart s }) h hs,
    fun h => (heldLaw_keptCore.kept fun _ h => h.same (by simp) (by simp)).step (fun h => h) (fun _ => {
      lower := fun _ _ _ _ _ h => heldLaw_keptCore.moved (h.same (by simp) (by simp))
      drive := fun _ _ h => h.drivePeriod
      powerOn := fun _ _ _ _ => rfl
      joint := fun _ _ _ => rfl }) h hs⟩

end

end Sys2Proof.Machine
end

section
/-! The two pump coils: what every step keeps of R74 and R163. -/

namespace Sys2Proof.Machine

/-! ### A record without a holder -/

/-- Without a holder, setpoint 0 gives target 0 in every state (R159, R160). -/
theorem ChannelRec.targetIn_zero {c : ChannelRec} (hh : c.holder = none) (hs : c.setpoint = 0) (cut : Bool)
    (r : RangeSettings) (ch : Channel) : targetIn (c.stateWith cut) r ch c = 0 := by
  unfold ChannelRec.stateWith
  rw [hh, hs]
  repeat' split
  all_goals first | rfl | contradiction

/-- A pump coil formed anew without a holder rests while its setpoint is 0 (R163). -/
theorem ChannelRec.reform_pumpRests {c : ChannelRec} (hh : c.holder = none) (cut : Bool) (r : RangeSettings) {ch : Channel}
    (hp : isPropChannel ch = true) : (c.reform cut r ch).pumpRests := by
  refine ⟨hh, fun hs => ?_⟩
  have hz := ChannelRec.targetIn_zero hh hs cut r ch
  simp only [ChannelRec.reform, hz, hp, if_true, Carrier.follow]

/-- A pump coil at rest commands nothing (R163). -/
theorem ChannelRec.pumpRests.commanded {c : ChannelRec} (h : c.pumpRests) (hs : c.setpoint = 0) {ch : Channel}
    (hp : isPropChannel ch = true) : c.commandedOn ch = 0 := by
  simp only [ChannelRec.commandedOn, hp, if_true, h.2 hs]

theorem isPropChannel_of_lt_two {ch : Channel} (h : ch.val < 2) : isPropChannel ch = true := by
  revert ch; decide

theorem armOfChannel_of_lt_two {ch : Channel} (h : ch.val < 2) : armOfChannel ch = none := by
  revert ch; decide

/-! ### The law of the two pump coils (R74) -/

/-- A pump coil that rested rests, and one with setpoint 0 keeps it. -/
def ChannelRec.keepsPump (c d : ChannelRec) : Prop := (c.pumpRests → d.pumpRests) ∧ (c.setpoint = 0 → d.setpoint = 0)

section
variable {s t : State}

theorem State.PumpLaw.mono (h : s.PumpLaw)
    (hc : ∀ ch : Channel, ch.val < 2 → s.output.channels[ch].keepsPump t.output.channels[ch]) : t.PumpLaw := by
  obtain ⟨rest0, rest1, zero⟩ := h
  exact ⟨(hc 0 (by decide)).1 rest0, (hc 1 (by decide)).1 rest1, zero.imp (hc 0 (by decide)).2 (hc 1 (by decide)).2⟩

theorem State.PumpLaw.others (h : s.PumpLaw)
    (hc : ∀ ch : Channel, ch.val < 2 → t.output.channels[ch] = s.output.channels[ch]) : t.PumpLaw :=
  h.mono fun ch hch => by rw [hc ch hch]; exact ⟨id, id⟩

theorem State.PumpLaw.same (h : s.PumpLaw) (ho : t.output = s.output) : t.PumpLaw :=
  h.others fun _ _ => by rw [ho]

theorem State.PumpLaw.settles {p : List Source} {k : List EventKind} {c : List Tally} (h : s.PumpLaw)
    (hs : State.SettlesTo p k c s t) : t.PumpLaw := h.others fun ch hc => hs.channels ch (by omega)

theorem State.PumpLaw.holder (h : s.PumpLaw) {ch : Channel} (hc : ch.val < 2) : s.output.channels[ch].holder = none := by
  obtain ⟨⟨holder0, -⟩, ⟨holder1, -⟩, -⟩ := h
  obtain rfl | rfl : ch = 0 ∨ ch = 1 := by
    rcases ch with ⟨n, hn⟩
    have : n = 0 ∨ n = 1 := by
      have : n < 2 := hc
      omega
    rcases this with rfl | rfl
    · exact .inl rfl
    · exact .inr rfl
  · exact holder0
  · exact holder1

/-- A change of one channel that leaves a pump coil no holder and its setpoint 0. -/
theorem State.PumpLaw.channel (h : s.PumpLaw) {ch : Channel} {f : ChannelRec → ChannelRec}
    (hf : ch.val < 2 → ∀ c : ChannelRec, (c.holder = none → (f c).holder = none) ∧ (c.setpoint = 0 → (f c).setpoint = 0)) :
    (s.changeChannel ch f).PumpLaw := by
  obtain ⟨same, other, -⟩ := State.changeChannel_spec ch f s
  refine h.mono fun k hk => ?_
  by_cases hc : k = ch
  · subst hc
    rw [same]
    exact ⟨fun hr => ChannelRec.reform_pumpRests ((hf hk _).1 hr.1) _ _ (isPropChannel_of_lt_two hk), (hf hk _).2⟩
  · rw [other k hc]; exact ⟨id, id⟩

theorem State.PumpLaw.release (h : s.PumpLaw) {ch : Channel} : (s.changeChannel ch ChannelRec.release).PumpLaw :=
  h.channel fun _ _ => ⟨fun _ => rfl, id⟩

theorem State.PumpLaw.setpoint (h : s.PumpLaw) {ch : Channel} {v : Nat} (hv : 2 ≤ ch.val ∨ v = 0) :
    (s.postSetpoint ch v).PumpLaw :=
  h.channel fun hc _ => ⟨id, fun _ => hv.resolve_left (by omega)⟩

theorem State.PumpLaw.arms (h : s.PumpLaw) {a : Arm} {f : ArmRec → ArmRec} : ((s.modArm a f).postCoils a).PumpLaw :=
  h.others fun ch hc => (State.postCoils_spec a (s.modArm a f)).2.1 ch (by rw [armOfChannel_of_lt_two hc]; nofun)

theorem Arm.motor_ge (a : Arm) : 2 ≤ a.motor.val := by cases a <;> decide

theorem Arm.force_ge {a : Arm} {ch : Channel} (h : a.force = some ch) : 2 ≤ ch.val := by
  cases a <;> cases h <;> decide

theorem pumpLaw_keptCore : State.KeptCore State.PumpLaw where
  elapse h := h.same (by simp)
  periods h := h
  links h := h
  freeCount h := h
  post h := h
  quiet _ h := h
  raiseAlarm h := h.same (by simp)
  alarmGone h := h.same (by simp)
  bumpBy h := h
  bank _ h := h
  activate _ h := h.same (by simp)
  deactivate _ h := h.same (by simp)
  updateCap _ h := h.same (by simp)
  travel _ h := h
  addDistance h := h.same (by simp)
  scan _ h := h
  gov _ h := h
  setpoint hch h := h.setpoint (by
    rcases hch with rfl | rfl | ⟨-, rfl⟩
    · exact .inl (by decide)
    · exact .inl (by decide)
    · exact .inr rfl)
  trim {ch f _} hf h := h.mono fun k _ => by
    by_cases hc : k = ch
    · subst hc
      rw [State.modOutput_output, Output.modChannel_same]
      obtain ⟨point, -, -, holder, -, rest⟩ := hf _
      exact ⟨fun hr => ⟨holder.trans hr.1, fun hz => rest (hr.2 (point.symm.trans hz))⟩, point.trans⟩
    · rw [State.modOutput_output, Output.modChannel_other hc]; exact ⟨id, id⟩
  endDirect h := h.release
  faultChannel _ h := h.channel fun _ _ => ⟨fun _ => rfl, id⟩
  mendChannel _ _ h := h.channel fun _ _ => ⟨id, id⟩
  takeDirect hch _ _ _ h := h.channel fun hc _ => absurd hch (by omega)
  setDriveCut {s} h := State.PumpLaw.release (State.PumpLaw.release (s := s.modOutput fun o => { o with driveCut := true }) h)
  broomCut {s} h := State.PumpLaw.setpoint (ch := 13) (v := 0) (s := (s.setBroomCut).modArms _)
    (State.PumpLaw.release (ch := 13) (s := s.modOutput fun o => { o with broomCut := true }) h) (.inr rfl)
  releaseBroom {s} h :=
    State.PumpLaw.channel (ch := 13) (f := id) (s := s.modOutput fun o => { o with broomCut := false }) h
      fun _ _ => ⟨id, id⟩
  unit _ h := h
  setMode {m s} _ h := State.PumpLaw.settles (s := s.modUnit fun u => { u with mode := m }) h (State.setMode_spec m s).1
  leaveService {s} _ h := h.others fun ch hc =>
    (((State.leaveService_spec s).2.2.2.1 ch).2.2.2 (by omega)).2 (h.holder hc)
  turn {f _ _ s} _ _ h := State.PumpLaw.settles (s := s.modUnit f) h (State.programChanged_spec _).1
  store _ _ h := h
  pend _ h := h
  armFlags _ h := h
  armMarks _ h := h
  rephase _ _ h := h.arms
  postRotation {a s} h := State.PumpLaw.setpoint (ch := a.motor) (s := s) h (.inl (Arm.motor_ge a))
  postForce {a v s} h := by
    unfold State.postForce
    split
    · next ch hf => exact State.PumpLaw.setpoint (ch := ch) (v := v) h (.inl (Arm.force_ge hf))
    · exact h
  judgeBars h := h.settles (State.judgeBars_spec _).1
  settleBars {f s} _ h := State.PumpLaw.settles (s := s.modSpray f) h (State.judgeBars_spec _).1
  pump _ h := h
  cycleStart {b s} h := h.others fun ch hc => (State.cycleStart_spec b s).channels ch fun e => by
    have := Bar.valve_ge b
    rw [← e] at this; omega
  closeValve {b s} h := State.PumpLaw.setpoint (ch := b.valve) (v := 0) (s := s) h (.inr rfl)
  settings _ _ _ h := h
  transportMax _ h := h.same (by simp)

/-- The two posts of an expiry leave a setpoint of 0, and both records at rest where theirs is 0 (R74). -/
theorem State.PumpLaw.postPump (h : s.PumpLaw) : s.postPump.PumpLaw := by
  have post : ∀ {u : State} {ch : Channel} {v : Nat}, ch.val < 2 →
      u.output.channels[(0 : Channel)].pumpRests → u.output.channels[(1 : Channel)].pumpRests →
      (u.postSetpoint ch v).output.channels[(0 : Channel)].pumpRests ∧
      (u.postSetpoint ch v).output.channels[(1 : Channel)].pumpRests := fun {u ch v} hc r0 r1 => by
    obtain ⟨same, other, -⟩ := State.changeChannel_spec ch (fun c => { c with setpoint := v }) u
    have rests : ∀ k : Channel, k.val < 2 → u.output.channels[k].pumpRests →
        (u.postSetpoint ch v).output.channels[k].pumpRests := fun k hk hr => by
      unfold State.postSetpoint
      by_cases hkc : k = ch
      · subst hkc; rw [same]
        exact ChannelRec.reform_pumpRests (c := { u.output.channels[k] with setpoint := v }) hr.1 _ _ (isPropChannel_of_lt_two hk)
      · rw [other k hkc]; exact hr
    exact ⟨rests 0 (by decide) r0, rests 1 (by decide) r1⟩
  obtain ⟨r0, r1, -⟩ := h
  have both : ∀ {p q : Channel} {v : Nat}, p.val < 2 → q.val < 2 → (p = 0 ∨ p = 1) → p ≠ q →
      ((s.postSetpoint p 0).postSetpoint q v).PumpLaw := fun {p q v} hp hq h01 hne => by
    obtain ⟨a0, a1⟩ := post (v := 0) hp r0 r1
    obtain ⟨b0, b1⟩ := post (v := v) hq a0 a1
    have zero : ((s.postSetpoint p 0).postSetpoint q v).output.channels[p].setpoint = 0 := by
      rw [(State.postSetpoint_spec q v _).2.1 p hne]; exact (State.postSetpoint_spec p 0 s).1
    exact ⟨b0, b1, h01.imp (fun e => by subst e; exact zero) (fun e => by subst e; exact zero)⟩
  unfold State.postPump
  split
  · exact both (by decide) (by decide) (.inl rfl) (by decide)
  · split
    · exact both (by decide) (by decide) (.inl rfl) (by decide)
    · exact both (by decide) (by decide) (.inr rfl) (by decide)
    · exact both (by decide) (by decide) (.inl rfl) (by decide)

theorem State.PumpLaw.drivePeriod (h : s.PumpLaw) : s.drivePeriod.PumpLaw :=
  pumpLaw_keptCore.drivePeriod (fun h => h.same (by simp)) (fun h => h.same (by simp)) (fun h => h) (fun h => h.postPump)
    (fun {s} h => by
      unfold State.releaseDrive
      split
      · exact State.PumpLaw.channel (ch := 1) (f := id)
          (State.PumpLaw.channel (ch := 0) (f := id) (s := s.modOutput fun o => { o with driveCut := false }) h
            fun _ _ => ⟨id, id⟩) fun _ _ => ⟨id, id⟩
      · exact h) h

/-- A record of the reset rests (R159). -/
theorem State.PumpLaw.of_idle (hc : ∀ ch : Channel, s.output.channels[ch].holder = none ∧
    s.output.channels[ch].setpoint = 0 ∧ s.output.channels[ch].carrier.part = .rest) : s.PumpLaw :=
  ⟨⟨(hc 0).1, fun _ => (hc 0).2.2⟩, ⟨(hc 1).1, fun _ => (hc 1).2.2⟩, .inl (hc 0).2.1⟩

/-- Settles O57: the coil that is not of the held direction is posted 0 first, and a coil at 0 stands at rest (R74, R163). -/
theorem pumpLawKept : Obligations.PumpLawKept := fun s t h hs => by
  have law : t.PumpLaw := (pumpLaw_keptCore.kept fun _ h => h.arms).step (fun h => h) (fun _ => {
    lower := fun _ _ _ _ _ h => pumpLaw_keptCore.moved h.arms
    drive := fun _ _ h => h.drivePeriod
    powerOn := fun x _ s _ => State.PumpLaw.of_idle fun ch => by
      rw [State.powerOn_channel]
      obtain ⟨holder, point, -, -, part⟩ := Output.initial_channel ch
      exact ⟨holder, point, part⟩
    joint := fun _ s _ => State.PumpLaw.of_idle fun ch => by
      rw [State.jointRestart_channel]; exact ⟨rfl, rfl, rfl⟩ }) h hs
  exact ⟨law, law.2.2.imp (law.1.commanded · rfl) (law.2.1.commanded · rfl)⟩

end

end Sys2Proof.Machine
end

section
/-! The arms: what every step keeps of R88, R93, R105 and R171. -/

namespace Sys2Proof.Machine

/-! ### The law of the arm states (R93) -/

section
variable {s t : State}

theorem State.ArmLaw.same (h : s.ArmLaw) (hm : t.unit.mode = s.unit.mode) (ha : ∀ a, (t.arm a).state = (s.arm a).state) :
    t.ArmLaw := fun hw a => by rw [ha]; exact h (hm ▸ hw) a

/-- The unit and the arms stand. -/
theorem State.ArmLaw.stands (h : s.ArmLaw) (hu : t.unit = s.unit) (ha : t.arms = s.arms) : t.ArmLaw :=
  h.same (by rw [hu]) fun a => by simp only [State.arm, ha]

theorem State.ArmLaw.of_working (hm : t.unit.mode.working = true) : t.ArmLaw := fun hw => by
  rcases hw with hw | hw <;> rw [hw] at hm <;> cases hm

theorem State.ArmLaw.of_down (hd : ∀ a, (t.arm a).state.isDown) : t.ArmLaw := fun _ a => hd a

/-- Outside the working modes the arms are down. -/
theorem State.ArmLaw.down (h : s.ArmLaw) (hm : s.unit.mode.working = false) (a : Arm) : (s.arm a).state.isDown :=
  h (by cases hu : s.unit.mode <;> simp_all [Mode.working]) a

/-- A change of an arm's record, before its coils are posted. -/
theorem State.ArmLaw.modArm (h : s.ArmLaw) {a : Arm} {f : ArmRec → ArmRec}
    (hf : (f (s.arm a)).state.isDown ∨ ¬(s.arm a).state.isDown ∨ s.unit.mode.working = true) : (s.modArm a f).ArmLaw := by
  intro hw b
  have hw' : s.unit.mode = .transport ∨ s.unit.mode = .service := hw
  by_cases hb : b = a
  · subst hb
    rw [State.modArm_arm_same]
    rcases hf with hd | ho | hm
    · exact hd
    · exact absurd (h hw' b) ho
    · rcases hw' with hs | hs <;> rw [hs] at hm <;> cases hm
  · rw [State.modArm_arm_other hb]; exact h hw' b

/-- The posts of an arm's coils leave the states and phases of the arms (R88). -/
theorem State.postCoils_arm (a b : Arm) (s : State) :
    ((s.postCoils a).arm b).state = (s.arm b).state ∧ ((s.postCoils a).arm b).phase = (s.arm b).phase := by
  obtain ⟨-, -, -, own, other, -⟩ := State.postCoils_spec a s
  by_cases hb : b = a
  · subst hb; rw [own]; exact ⟨rfl, rfl⟩
  · rw [other b hb]; exact ⟨rfl, rfl⟩

theorem State.ArmLaw.postCoils (h : s.ArmLaw) {a : Arm} : (s.postCoils a).ArmLaw :=
  h.same (by simp) fun b => (State.postCoils_arm a b s).1

theorem State.modArm_state {f : ArmRec → ArmRec} {a : Arm} (hf : ∀ r : ArmRec, (f r).state = r.state) (b : Arm) :
    ((s.modArm a f).arm b).state = (s.arm b).state := by
  by_cases hb : b = a
  · subst hb; rw [State.modArm_arm_same]; exact hf _
  · rw [State.modArm_arm_other hb]

theorem State.modArms_arm {f : Arms → Arms} (hf : ∀ x : Arms, ∀ a, (f x).get a = x.get a) (a : Arm) :
    (s.modArms f).arm a = s.arm a := hf _ a

/-- The arms stand in the states and phases they stood in. -/
def State.sameArms (s t : State) : Prop :=
  ∀ a, (t.arm a).state = (s.arm a).state ∧ (t.arm a).phase = (s.arm a).phase

theorem State.modArm_sameArms {f : ArmRec → ArmRec} {a : Arm}
    (hf : ∀ r : ArmRec, (f r).state = r.state ∧ (f r).phase = r.phase) : s.sameArms (s.modArm a f) := fun b => by
  by_cases hb : b = a
  · subst hb; rw [State.modArm_arm_same]; exact hf _
  · rw [State.modArm_arm_other hb]; exact ⟨rfl, rfl⟩

theorem State.modArms_sameArms {f : Arms → Arms} (hf : ∀ x : Arms, ∀ a, (f x).get a = x.get a) : s.sameArms (s.modArms f) :=
  fun a => by rw [State.modArms_arm hf]; exact ⟨rfl, rfl⟩

theorem State.sameArms.trans {u : State} (h : s.sameArms t) (h' : t.sameArms u) : s.sameArms u := fun a =>
  ⟨(h' a).1.trans (h a).1, (h' a).2.trans (h a).2⟩

theorem State.postRotation_sameArms (a : Arm) (v : Nat) : s.sameArms (s.postRotation a v) :=
  State.modArm_sameArms (a := a) (f := fun r => { r with rot := v }) (s := s.postSetpoint a.motor v) fun _ => ⟨rfl, rfl⟩

theorem State.postForce_sameArms (a : Arm) (v : Nat) : s.sameArms (s.postForce a v) := by
  unfold State.postForce
  split
  · next ch _ =>
    exact State.modArm_sameArms (a := a) (f := fun r => { r with force := v }) (s := s.postSetpoint ch v)
      fun _ => ⟨rfl, rfl⟩
  · exact fun _ => ⟨rfl, rfl⟩

theorem State.seeBroomCut_sameArms : s.sameArms s.seeBroomCut :=
  (State.modArms_sameArms fun x b => by cases b <;> rfl).trans
    (State.postRotation_sameArms (s := s.modArms fun x => { x with cutSeen := true }) .main 0)

theorem State.releaseBroom_sameArms : s.sameArms s.releaseBroom :=
  State.modArms_sameArms (s := s.releaseBroomCut) (f := fun x => { x with cutSeen := false }) fun x b => by
    cases b <;> rfl

theorem armLaw_keptCore : State.KeptCore State.ArmLaw where
  elapse h := h.stands (by simp) (by simp)
  periods h := h
  links h := h
  freeCount h := h
  post h := h
  quiet _ h := h
  raiseAlarm h := h.stands (by simp) (by simp)
  alarmGone h := h.stands (by simp) (by simp)
  bumpBy h := h
  bank _ h := h
  activate _ h := h.stands (by simp) (by simp)
  deactivate _ h := h.stands (by simp) (by simp)
  updateCap _ h := h.stands (by simp) (by simp)
  travel _ h := h
  addDistance h := h.stands (by simp) (by simp)
  scan _ h := h
  gov _ h := h
  setpoint _ h := h
  trim _ h := h
  endDirect h := h
  faultChannel _ h := h
  mendChannel _ _ h := h
  takeDirect _ _ _ _ h := h
  setDriveCut h := h
  broomCut {s} h := h.same (by simp [State.setBroomCut]) fun a => (State.seeBroomCut_sameArms (s := s.setBroomCut) a).1
  releaseBroom {s} h := h.same (by simp) fun a => (State.releaseBroom_sameArms (s := s) a).1
  unit hf h := h.same (hf _).1 fun _ => rfl
  setMode {m s} hm h := by
    have mode : (s.setMode m).unit.mode = m := by rw [(State.setMode_spec m s).1.unit]
    have arms : ∀ a, (s.setMode m).arm a = s.arm a := fun a => by simp [State.arm]
    cases hm with
    | entering => exact .of_working (by rw [mode]; rfl)
    | sweep => exact .of_working (by rw [mode]; rfl)
    | leaving => exact .of_working (by rw [mode]; rfl)
    | transport _ hd => exact .of_down fun a => by rw [arms]; exact (Arms.allDown_iff _).1 hd a
    | service ht _ => exact .of_down fun a => by rw [arms]; exact h (.inl ht) a
  leaveService {s} hm h := .of_down fun a => by
    have arms : s.leaveService.arm a = s.arm a := by simp [State.arm]
    rw [arms]; exact h (.inr hm) a
  turn {f _ _ s} hf _ h := State.ArmLaw.stands (s := s.modUnit f) (h.same hf.1 fun _ => rfl) (by simp) (by simp)
  store _ _ h := h
  pend _ h := h
  armFlags hf h := h.same rfl fun a => congrArg ArmRec.state (State.modArms_arm (fun x => (hf x).1) a)
  armMarks hf h := h.same rfl fun b => State.modArm_state (fun r => (hf r).1) b
  rephase {a f s} _ hf h := State.ArmLaw.postCoils (State.ArmLaw.same (t := s.modArm a f) h rfl fun b => State.modArm_state hf b)
  postRotation {a s} h := h.same rfl fun b => (State.postRotation_sameArms a _ b).1
  postForce {a v s} h := h.same (by simp) fun b => (State.postForce_sameArms a v b).1
  judgeBars h := h.stands (by simp) (by simp)
  settleBars {f s} _ h := State.ArmLaw.stands (s := s.modSpray f) h (by simp) (by simp)
  pump _ h := h
  cycleStart h := h.stands (by simp) (by simp)
  closeValve h := h
  settings _ _ _ h := h
  transportMax _ h := h.stands (by simp) (by simp)

theorem armLaw_kept : State.Kept State.ArmLaw :=
  armLaw_keptCore.kept fun hm h => (h.modArm hm.2).postCoils

theorem State.ArmLaw.drivePeriod (h : s.ArmLaw) : s.drivePeriod.ArmLaw :=
  armLaw_keptCore.drivePeriod (fun h => h.stands (by simp) (by simp)) (fun h => h.stands (by simp) (by simp)) (fun h => h)
    (fun h => h.stands (by simp) (by simp)) (fun h => h.stands (by simp) (by simp)) h

theorem State.ArmLaw.startLower {a : Arm} (hm : s.unit.mode = .sweep) (h : s.ArmLaw) :
    ((s.modArm a fun r => { r with
      state := .lowering, phase := none, pending := false, timer := some (later s.now s.program.lowerTime) }).postCoils
        a).ArmLaw :=
  (h.modArm (.inr (.inr (by rw [hm]; rfl)))).postCoils

theorem State.ArmLaw.step (h : s.ArmLaw) (hs : step s = .next t) : t.ArmLaw :=
  armLaw_kept.step (fun h => h) (fun _ => {
    lower := fun _ _ _ hm _ h => armLaw_keptCore.moved (h.startLower hm)
    drive := fun _ _ h => h.drivePeriod
    powerOn := fun _ _ _ _ => .of_down fun a => by cases a <;> exact .inl rfl
    joint := fun _ _ _ => .of_down fun a => by cases a <;> exact .inl rfl }) h hs

end

/-! ### An arm enters LOWERING only in SWEEP (R93, R94) -/

section
variable {s t : State}

/-- No arm is lowering that was not. -/
def State.lowersNone (s t : State) : Prop := ∀ a, (t.arm a).state = .lowering → (s.arm a).state = .lowering

theorem State.lowersNone.same {u : State} (h : s.lowersNone t) (ha : ∀ a, (u.arm a).state = (t.arm a).state) :
    s.lowersNone u := fun a hl => h a ((ha a).symm.trans hl)

theorem State.lowersNone.stands {u : State} (h : s.lowersNone t) (ha : u.arms = t.arms) : s.lowersNone u :=
  h.same fun a => by simp only [State.arm, ha]

theorem State.lowersNone.postCoils {a : Arm} (h : s.lowersNone t) : s.lowersNone (t.postCoils a) :=
  h.same fun b => (State.postCoils_arm a b t).1

theorem lowersNone_keptCore (s : State) : State.KeptCore s.lowersNone where
  elapse h := h.stands (by simp)
  periods h := h
  links h := h
  freeCount h := h
  post h := h
  quiet _ h := h
  raiseAlarm h := h.stands (by simp)
  alarmGone h := h.stands (by simp)
  bumpBy h := h
  bank _ h := h
  activate _ h := h.stands (by simp)
  deactivate _ h := h.stands (by simp)
  updateCap _ h := h.stands (by simp)
  travel _ h := h
  addDistance h := h.stands (by simp)
  scan _ h := h
  gov _ h := h
  setpoint _ h := h
  trim _ h := h
  endDirect h := h
  faultChannel _ h := h
  mendChannel _ _ h := h
  takeDirect _ _ _ _ h := h
  setDriveCut h := h
  broomCut {u} h := h.same fun a => (State.seeBroomCut_sameArms (s := u.setBroomCut) a).1
  releaseBroom {u} h := h.same fun a => (State.releaseBroom_sameArms (s := u) a).1
  unit _ h := h
  setMode _ h := h.stands (by simp)
  leaveService _ h := h.stands (by simp)
  turn {f _ _ u} _ _ h := State.lowersNone.stands (t := u.modUnit f) h (by simp)
  store _ _ h := h
  pend _ h := h
  armFlags hf h := h.same fun a => congrArg ArmRec.state (State.modArms_arm (fun x => (hf x).1) a)
  armMarks hf h := h.same fun b => State.modArm_state (fun r => (hf r).1) b
  rephase {a f u} _ hf h := State.lowersNone.postCoils
    (State.lowersNone.same (u := u.modArm a f) h fun b => State.modArm_state hf b)
  postRotation {a u} h := h.same fun b => (State.postRotation_sameArms a _ b).1
  postForce {a v u} h := h.same fun b => (State.postForce_sameArms a v b).1
  judgeBars h := h.stands (by simp)
  settleBars {f u} _ h := State.lowersNone.stands (t := u.modSpray f) h (by simp)
  pump _ h := h
  cycleStart h := h.stands (by simp)
  closeValve h := h
  settings _ _ _ h := h
  transportMax _ h := h.stands (by simp)

theorem lowersNone_kept (s : State) : State.Kept s.lowersNone :=
  (lowersNone_keptCore s).kept fun {a f u} hm h => State.lowersNone.postCoils fun b hl => by
    by_cases hb : b = a
    · subst hb; rw [State.modArm_arm_same] at hl; exact absurd hl hm.1
    · rw [State.modArm_arm_other hb] at hl; exact h b hl

/-- No command but ARM_LOWER and the arm period lowers an arm. -/
theorem State.lowersNone.exec {c : Instr} (hl : ¬((∃ h n, c = .armLower h n) ∨ ∃ n, c = .armPeriodExpiry n))
    (hs : exec c s = .next t) : s.lowersNone t :=
  (lowersNone_kept s).exec {
    lower := fun hc => absurd hc hl
    drive := fun _ _ h => (lowersNone_keptCore s).drivePeriod (fun h => h.stands (by simp)) (fun h => h.stands (by simp))
      (fun h => h) (fun h => h.stands (by simp)) (fun h => h.stands (by simp)) h
    powerOn := fun _ _ _ _ a hl => by cases a <;> cases hl
    joint := fun _ _ _ a hl => by cases a <;> cases hl } (fun _ h => h) hs

/-- Outside LEAVING the report of an arm's state gives the unit nothing to act on (R10). -/
theorem State.leavingCheck_eq (h : s.unit.mode ≠ .leaving) : s.leavingCheck = s :=
  (State.leavingCheck_spec s).1 fun hl => h hl.1

theorem State.moveArm_unit {a : Arm} {f : ArmRec → ArmRec}
    (h : s.unit.mode ≠ .leaving ∨ ¬(f (s.arm a)).state.isDown) : (s.moveArm a f).unit = s.unit := by
  have stays : State.staysOut a s (s.moveArm a f) := h.imp id fun hd => by
    rw [State.moveArm_state]
    exact not_or.1 hd
  rw [(State.moveArm_spec a f s).1.rest stays]

theorem State.markPending_unit {a : Arm} {v : Bool} (h : s.unit.mode ≠ .leaving) : (s.markPending a v).unit = s.unit := by
  unfold State.markPending State.announceArms
  rw [State.leavingCheck_eq (by simpa using h)]
  simp

theorem State.startLower_unit {a : Arm} (hm : s.unit.mode = .sweep) : (s.startLower a).unit = s.unit :=
  State.moveArm_unit (.inl (by rw [hm]; decide))

theorem State.lowerTest_unit (a : Arm) (s : State) : (s.lowerTest a).unit = s.unit := by
  unfold State.lowerTest
  dsimp only
  split
  · next h => exact State.startLower_unit (s := s.postBoth .armState) h.2.2.1
  · rfl

theorem State.broomPeriod_unit (s : State) : s.broomPeriod.unit = s.unit := by
  have works : ∀ u : State, u.broomWorks.unit = u.unit := fun u => State.moveArm_unit (.inr (by simp [ArmState.isDown]))
  have released : ∀ (b : Bool), (if b = true then s.releaseBroom else s).unit = s.unit := fun b => by
    split
    · simp
    · rfl
  have ends : ∀ (b : Prop) [Decidable b] (u : State), u.unit = s.unit → (if b then u.broomWorks else u).unit = s.unit :=
    fun b _ u hu => by
      split
      · exact (works u).trans hu
      · exact hu
  exact ends _ _ (released _)

theorem State.armPeriod_unit (s : State) : s.armPeriod.unit = s.unit := by
  unfold State.armPeriod
  rw [State.broomPeriod_unit]
  simp [Arm.all, State.lowerTest_unit]

/-- From `s` to `t` the unit stands, and an arm has come into LOWERING in SWEEP only. -/
def State.lowersInSweep (s t : State) : Prop :=
  t.unit.mode = s.unit.mode ∧ ∀ a, (t.arm a).state = .lowering → (s.arm a).state = .lowering ∨ s.unit.mode = .sweep

theorem State.armPeriod_lowers (s : State) : s.lowersInSweep s.armPeriod := by
  refine ⟨by rw [State.armPeriod_unit], fun a hl => ?_⟩
  by_cases hm : s.unit.mode = .sweep
  · exact .inr hm
  · have one : ∀ {b : Arm} {u : State}, u.unit = s.unit ∧ s.lowersNone u →
        ((u.lowerTest b).periodicPosts b).unit = s.unit ∧ s.lowersNone ((u.lowerTest b).periodicPosts b) :=
      fun {b u} h => by
        have stands : u.lowerTest b = u := if_neg fun hl => hm (by rw [← h.1]; exact hl.2.2.1)
        rw [stands]
        exact ⟨by simp [h.1], (lowersNone_kept s).periodicPosts h.2⟩
    have marked : s.lowersNone (s.modArms fun x => { x with dryApplied := s.dryRotation }) :=
      (lowersNone_keptCore s).armFlags (fun _ => ⟨fun b => by cases b <;> rfl, rfl⟩) fun _ h => h
    have posted := one (b := .main) (one (b := .right) (one (b := .left)
      (u := s.modArms fun x => { x with dryApplied := s.dryRotation }) ⟨rfl, marked⟩))
    have ended : s.lowersNone s.armPeriod := (lowersNone_kept s).broomPeriod posted.2
    exact .inl (ended a hl)

theorem State.taken_arms (h : Head) (s : State) : (s.taken h).arms = s.arms := by
  rw [(State.taken_rest h s).1]
  simp

theorem State.armLower_lowers (a : Arm) (s : State) : s.lowersInSweep (s.armLower a).1 := by
  have stands : s.lowersInSweep s := ⟨rfl, fun _ h => .inl h⟩
  unfold State.armLower
  split
  · exact stands
  · next hm =>
    have hm : s.unit.mode = .sweep := not_not.1 hm
    have swept : ∀ {u : State}, u.unit = s.unit → s.lowersInSweep u := fun hu => ⟨by rw [hu], fun _ _ => .inr hm⟩
    split
    · exact stands
    · split
      · split
        · exact stands
        · split
          · exact swept (State.startLower_unit hm)
          · exact swept (State.markPending_unit (by rw [hm]; decide))
      all_goals exact stands

/-- A request leaves the unit and the arms as its owner's act does (R180). -/
theorem State.serve_lowers {h : Head} {kind : Nat} {act : State → State × Reply}
    (ha : ∀ u : State, u.lowersInSweep (act u).1) : s.lowersInSweep (s.serve h kind act) := by
  have same : ∀ {u v : State}, u.unit = s.unit → u.arms = s.arms → u.lowersInSweep v → s.lowersInSweep v :=
    fun {u v} hu hx h => by
      refine ⟨by rw [h.1, hu], fun b hl => ?_⟩
      have := h.2 b hl
      simp only [State.arm, hu, hx] at this
      exact this
  cases hd : (s.link h.link).discard with
  | true =>
    rw [State.serve_discards hd]
    exact ⟨by simp, fun b hl => .inl (by simpa [State.arm] using hl)⟩
  | false =>
    cases hg : gatePasses kind ((s.taken h).link h.link).state with
    | true =>
      rw [State.serve_passes ⟨hd, hg⟩]
      exact same (State.taken_unit h s) (State.taken_arms h s) (ha _)
    | false =>
      rw [State.serve_gated hd hg]
      exact same (State.taken_unit h s) (State.taken_arms h s) ⟨rfl, fun _ hl => .inl hl⟩

theorem State.lowersInSweep.lower (h : s.lowersInSweep t) (a : Arm) (hn : (s.arm a).state ≠ .lowering)
    (hl : (t.arm a).state = .lowering) : s.unit.mode = .sweep ∧ t.unit.mode = .sweep := by
  have hm := (h.2 a hl).resolve_left hn
  exact ⟨hm, h.1.trans hm⟩

/-- An arm enters LOWERING at ARM_LOWER and at an arm period, both in SWEEP (R93, R94). -/
theorem lowering_in_sweep (hs : step s = .next t) (a : Arm) (hn : (s.arm a).state ≠ .lowering)
    (hl : (t.arm a).state = .lowering) : s.unit.mode = .sweep ∧ t.unit.mode = .sweep := by
  unfold Sys2Proof.Machine.step at hs
  split at hs
  · cases hs; exact absurd hl hn
  · next c rest _ =>
    by_cases hc : (∃ h n, c = .armLower h n) ∨ ∃ n, c = .armPeriodExpiry n
    · rcases hc with ⟨h, n, rfl⟩ | ⟨n, rfl⟩
      · cases hs
        refine State.lowersInSweep.lower (State.serve_lowers (s := { s with pending := rest }) fun u => ?_) a hn hl
        have stands : u.lowersInSweep u := ⟨rfl, fun _ h => .inl h⟩
        unfold armRequest
        split
        · exact stands
        · split
          · exact stands
          · exact State.armLower_lowers _ u
      · simp only [exec, execArmPeriodExpiry] at hs
        split at hs <;> cases hs
        · refine State.lowersInSweep.lower (s := s) ?_ a hn hl
          have h := State.armPeriod_lowers ((State.elapse n { s with pending := rest }).modPeriods fun p =>
            { p with arm := later p.arm 20 })
          exact ⟨h.1.trans (by simp), fun b hb => by
            have := h.2 b hb
            simpa [State.arm] using this⟩
        · exact absurd (by simpa [State.arm] using hl) hn
    · exact absurd (State.lowersNone.exec hc hs a hl) hn

end

end Sys2Proof.Machine
end

section
/-! The arms' coils and the broom's cut: what every step keeps of R88, R105 and R171, and with it the statement on the arms. -/

namespace Sys2Proof.Machine

/-! ### The coils of an arm -/

/-- The lift coil is on in RAISING and in the lift phase (R88). -/
def ArmRec.lifts (r : ArmRec) : Bool := r.state == .raising || (r.state == .yielding && r.phase != some .settle)

/-- The lower coil is on in LOWERING, WORKING, JAMMED and in the settle phase (R88). -/
def ArmRec.lowers (r : ArmRec) : Bool :=
  r.state == .lowering || r.state == .working || r.state == .jammed || (r.state == .yielding && r.phase == some .settle)

/-- The table of R88 at the two coils. -/
theorem coilsOf_lift_lower (r : ArmRec) (force rot : Nat) :
    (coilsOf r.state r.phase force rot).lift = r.lifts.toNat ∧ (coilsOf r.state r.phase force rot).lower = r.lowers.toNat := by
  unfold ArmRec.lifts ArmRec.lowers
  cases r.state <;> rcases r.phase with _ | _ | _ <;> exact ⟨rfl, rfl⟩

theorem ArmRec.lifts_lowers (r : ArmRec) : r.lifts.toNat = 0 ∨ r.lowers.toNat = 0 := by
  unfold ArmRec.lifts ArmRec.lowers
  cases r.state <;> rcases r.phase with _ | _ | _ <;> decide

theorem ArmRec.down_coils {r : ArmRec} (h : r.state.isDown) : r.lifts.toNat = 0 ∧ r.lowers.toNat = 0 := by
  unfold ArmRec.lifts ArmRec.lowers
  rcases h with h | h <;> rw [h] <;> exact ⟨rfl, rfl⟩

theorem Arm.coils (a : Arm) : partner a.lift = some a.lower ∧ partner a.lower = some a.lift := by
  cases a <;> exact ⟨rfl, rfl⟩

/-- A channel with an interlocked partner is a switch of the arms. -/
theorem coil_channel {ch : Channel} (h : (partner ch).isSome = true) :
    3 ≤ ch.val ∧ ch.val ≤ 12 ∧ isPropChannel ch = false ∧ (∀ a : Arm, ch ≠ a.motor ∧ a.force ≠ some ch) := by
  refine ⟨?_, ?_, ?_, fun a => ?_⟩
  · revert ch; decide
  · revert ch; decide
  · revert ch; decide
  · cases a <;> revert ch <;> decide

theorem coil_cutFlag (o : Output) {ch : Channel} (h : (partner ch).isSome = true) : o.cutFlag ch = false := by
  obtain ⟨low, high, -⟩ := coil_channel h
  have h2 : ¬ch.val < 2 := by omega
  have h13 : ¬ch.val = 13 := by omega
  simp [Output.cutFlag, h2, h13]

/-- A coil's record formed anew follows from itself (R159, R171). -/
theorem ChannelRec.reform_formed {c : ChannelRec} {o : Output} {ch : Channel} (h : (partner ch).isSome = true)
    (hh : c.fault ≠ .none → c.holder = none) (r : RangeSettings) : (c.reform (o.cutFlag ch) r ch).formed := by
  refine ⟨hh, ?_⟩
  have hr : isRanged ch = false := by simp [isRanged, (coil_channel h).2.2.1]
  rw [coil_cutFlag o h]
  show targetIn (c.stateWith false) r ch c = _
  unfold ChannelRec.stateWith
  by_cases hf : c.fault ≠ .none
  · rw [if_pos hf]; exact (if_pos hf).symm
  · rw [if_neg hf]
    show _ = if c.fault ≠ .none then 0 else if c.holder.isSome = true then c.level else c.setpoint
    rw [if_neg hf]
    cases hc : c.holder with
    | some l => rfl
    | none =>
      simp only [Bool.false_eq_true, if_false, Option.isSome_none]
      split
      · simp [targetIn, setpointTarget, hr]
      · next hz => simp only [targetIn]; omega

theorem ChannelRec.formed.target_of_free {c : ChannelRec} (h : c.formed) (hh : c.holder = none) :
    c.target = 0 ∨ c.target = c.setpoint := by
  rw [h.2, hh]
  split
  · exact .inl rfl
  · exact .inr rfl

/-- A coil's commanded output is its target (R159). -/
theorem Output.commanded_coil (o : Output) {ch : Channel} (h : (partner ch).isSome = true) :
    o.commanded ch = o.channels[ch].target := by
  simp only [Output.commanded, ChannelRec.commandedOn, (coil_channel h).2.2.1, Bool.false_eq_true, if_false]

/-! ### The law of the arm coils (R88, R171) -/

/-- The law of the arm coils beside those of the arm states and of direct drive, which it needs. -/
structure State.CoilsLaw (s : State) : Prop where
  arm : s.ArmLaw
  direct : s.DirectLaw
  lift : ∀ a : Arm, s.output.channels[a.lift].setpoint = (s.arm a).lifts.toNat
  lower : ∀ a : Arm, s.output.channels[a.lower].setpoint = (s.arm a).lowers.toNat
  formed : ∀ ch : Channel, (partner ch).isSome = true → s.output.channels[ch].formed
  apart : ∀ ch p : Channel, partner ch = some p → s.output.channels[ch].target = 0 ∨ s.output.channels[p].target = 0

theorem partner_coil {ch p : Channel} (h : partner ch = some p) :
    partner p = some ch ∧ ch ≠ p ∧ ∃ a : Arm, ch = a.lift ∧ p = a.lower ∨ ch = a.lower ∧ p = a.lift := by
  have all : ∀ ch p : Channel, partner ch = some p → partner p = some ch ∧ ch ≠ p ∧
      (ch = Arm.lift .left ∧ p = Arm.lower .left ∨ ch = Arm.lower .left ∧ p = Arm.lift .left ∨
        ch = Arm.lift .right ∧ p = Arm.lower .right ∨ ch = Arm.lower .right ∧ p = Arm.lift .right ∨
        ch = Arm.lift .main ∧ p = Arm.lower .main ∨ ch = Arm.lower .main ∧ p = Arm.lift .main) := by decide
  obtain ⟨back, ne, h | h | h | h | h | h⟩ := all ch p h
  · exact ⟨back, ne, .left, .inl h⟩
  · exact ⟨back, ne, .left, .inr h⟩
  · exact ⟨back, ne, .right, .inl h⟩
  · exact ⟨back, ne, .right, .inr h⟩
  · exact ⟨back, ne, .main, .inl h⟩
  · exact ⟨back, ne, .main, .inr h⟩

section
variable {s t : State}

theorem State.coilsLaw_iff : s.CoilsLaw ↔ s.ArmLaw ∧ s.DirectLaw ∧ s.CoilLaw := by
  have lifts : ∀ r : ArmRec, r.lifts = true ↔ r.state = .raising ∨ (r.state = .yielding ∧ r.phase ≠ some .settle) :=
    fun r => by simp [ArmRec.lifts]
  have lowers : ∀ r : ArmRec, r.lowers = true ↔ r.state = .lowering ∨ r.state = .working ∨ r.state = .jammed ∨
      (r.state = .yielding ∧ r.phase = some .settle) := fun r => by simp [ArmRec.lowers, or_assoc]
  have set : ∀ (b : Bool) (n : Nat), (b = true → n = 1) → (¬b = true → n = 0) → n = b.toNat := fun b n h1 h0 => by
    cases b
    · exact h0 Bool.noConfusion
    · exact h1 rfl
  constructor
  · intro h
    refine ⟨h.arm, h.direct, fun a => ?_⟩
    have coils := Arm.coils a
    dsimp only
    rw [← lifts, ← lowers, h.lift, h.lower]
    exact ⟨fun e => by rw [e]; rfl, fun e => by rw [Bool.not_eq_true] at e; rw [e]; rfl, fun e => by rw [e]; rfl,
      fun e => by rw [Bool.not_eq_true] at e; rw [e]; rfl, h.formed _ (by rw [coils.1]; rfl),
      h.formed _ (by rw [coils.2]; rfl), h.apart _ _ coils.1⟩
  · rintro ⟨arm, direct, coil⟩
    refine ⟨arm, direct, fun a => ?_, fun a => ?_, fun ch hc => ?_, fun ch p hp => ?_⟩
    · obtain ⟨on, off, -⟩ := coil a
      exact set _ _ (fun e => on ((lifts _).1 e)) fun e => off fun e' => e ((lifts _).2 e')
    · obtain ⟨-, -, on, off, -⟩ := coil a
      exact set _ _ (fun e => on ((lowers _).1 e)) fun e => off fun e' => e ((lowers _).2 e')
    · obtain ⟨p, hp⟩ := Option.isSome_iff_exists.1 hc
      obtain ⟨-, -, a, ⟨rfl, -⟩ | ⟨rfl, -⟩⟩ := partner_coil hp
      · exact (coil a).2.2.2.2.1
      · exact (coil a).2.2.2.2.2.1
    · obtain ⟨-, -, a, ⟨rfl, rfl⟩ | ⟨rfl, rfl⟩⟩ := partner_coil hp
      · exact (coil a).2.2.2.2.2.2
      · exact (coil a).2.2.2.2.2.2.symm

/-- The coils and the arms stand, but for the carriers. -/
theorem State.CoilsLaw.mono (h : s.CoilsLaw) (arm : t.ArmLaw) (direct : t.DirectLaw)
    (hc : ∀ ch : Channel, (partner ch).isSome = true → s.output.channels[ch].sameTarget t.output.channels[ch])
    (ha : ∀ a, (t.arm a).state = (s.arm a).state ∧ (t.arm a).phase = (s.arm a).phase) : t.CoilsLaw := by
  have point := fun a => Arm.coils a
  have target : ∀ {ch p : Channel}, partner ch = some p → t.output.channels[ch].target = s.output.channels[ch].target :=
    fun hp => (hc _ (by rw [hp]; rfl)).2.1
  refine ⟨arm, direct, fun a => ?_, fun a => ?_, fun ch hch => ?_, fun ch p hp => ?_⟩
  · rw [(hc _ (by rw [(point a).1]; rfl)).1, h.lift a]; simp only [ArmRec.lifts, ha]
  · rw [(hc _ (by rw [(point a).2]; rfl)).1, h.lower a]; simp only [ArmRec.lowers, ha]
  · obtain ⟨e1, e2, e3, e4, e5, -⟩ := hc ch hch
    unfold ChannelRec.formed
    rw [e1, e2, e3, e4, e5]; exact h.formed ch hch
  · rw [target hp, target (partner_coil hp).1]; exact h.apart ch p hp

theorem State.CoilsLaw.others (h : s.CoilsLaw) (arm : t.ArmLaw) (direct : t.DirectLaw)
    (hc : ∀ ch : Channel, 3 ≤ ch.val → ch.val ≤ 12 → (partner ch).isSome = true →
      t.output.channels[ch] = s.output.channels[ch])
    (ha : ∀ a, (t.arm a).state = (s.arm a).state ∧ (t.arm a).phase = (s.arm a).phase) : t.CoilsLaw :=
  h.mono arm direct (fun ch hch => by
    obtain ⟨low, high, -⟩ := coil_channel hch
    rw [hc ch low high hch]; exact ⟨rfl, rfl, rfl, rfl, rfl, id⟩) ha

theorem State.CoilsLaw.stands (h : s.CoilsLaw) (arm : t.ArmLaw) (direct : t.DirectLaw) (ho : t.output = s.output)
    (ha : t.arms = s.arms) : t.CoilsLaw :=
  h.others arm direct (fun _ _ _ _ => by rw [ho]) fun a => by unfold State.arm; rw [ha]; exact ⟨rfl, rfl⟩

theorem State.CoilsLaw.settles {p : List Source} {k : List EventKind} {c : List Tally} {u : State} (h : s.CoilsLaw)
    (arm : t.ArmLaw) (direct : t.DirectLaw) (hs : State.SettlesTo p k c u t) (ho : u.output = s.output)
    (ha : u.arms = s.arms) : t.CoilsLaw :=
  h.others arm direct (fun ch _ _ _ => by rw [hs.channels ch (by omega), ho]) fun a => by
    have arms : t.arms = s.arms := by rw [hs.rest]; exact ha
    unfold State.arm; rw [arms]; exact ⟨rfl, rfl⟩

/-- A change of a channel that is no coil. -/
theorem State.CoilsLaw.elsewhere (h : s.CoilsLaw) {ch : Channel} {f : ChannelRec → ChannelRec}
    (hch : (partner ch).isSome = false) (direct : (s.changeChannel ch f).DirectLaw) : (s.changeChannel ch f).CoilsLaw :=
  h.others h.arm direct (fun k _ _ hk => (State.changeChannel_spec ch f s).2.1 k fun e => by
    rw [e, hch] at hk; cases hk) fun _ => ⟨rfl, rfl⟩

/-- A change of a coil's holder or fault that leaves its setpoint, with a target that is 0, as before, or interlocked. -/
theorem State.CoilsLaw.channel (h : s.CoilsLaw) {ch : Channel} {f : ChannelRec → ChannelRec}
    (direct : (s.changeChannel ch f).DirectLaw) (hs : (f s.output.channels[ch]).setpoint = s.output.channels[ch].setpoint)
    (hh : (f s.output.channels[ch]).fault ≠ .none → (f s.output.channels[ch]).holder = none)
    (hz : ∀ p, partner ch = some p → (s.changeChannel ch f).output.channels[ch].target = 0 ∨
      (s.changeChannel ch f).output.channels[ch].target = s.output.channels[ch].target ∨
      s.output.channels[p].target = 0) : (s.changeChannel ch f).CoilsLaw := by
  obtain ⟨same, other, -⟩ := State.changeChannel_spec ch f s
  have point : ∀ k : Channel, (s.changeChannel ch f).output.channels[k].setpoint = s.output.channels[k].setpoint := fun k => by
    by_cases hk : k = ch
    · subst hk; rw [same]; exact hs
    · rw [other k hk]
  refine ⟨h.arm, direct, fun a => ?_, fun a => ?_, fun k hk => ?_, fun k p hp => ?_⟩
  · rw [point]; exact h.lift a
  · rw [point]; exact h.lower a
  · by_cases hkc : k = ch
    · subst hkc; rw [same]; exact ChannelRec.reform_formed hk hh _
    · rw [other k hkc]; exact h.formed k hk
  · obtain ⟨back, ne, -⟩ := partner_coil hp
    by_cases hkc : k = ch
    · subst hkc
      rw [other p ne.symm]
      rcases hz p hp with hz | hz | hz
      · exact .inl hz
      · rw [hz]; exact h.apart k p hp
      · exact .inr hz
    · by_cases hpc : p = ch
      · subst hpc
        rw [other k hkc]
        rcases hz k back with hz | hz | hz
        · exact .inr hz
        · rw [hz]; exact h.apart k p hp
        · exact .inl hz
      · rw [other k hkc, other p hpc]; exact h.apart k p hp

/-- Outside the working modes the owners' setpoints of the coils are 0 (R88, R93). -/
theorem State.CoilsLaw.setpoint_zero (h : s.CoilsLaw) (hm : s.unit.mode.working = false) {ch : Channel}
    (hc : (partner ch).isSome = true) : s.output.channels[ch].setpoint = 0 := by
  obtain ⟨p, hp⟩ := Option.isSome_iff_exists.1 hc
  have down := fun a => ArmRec.down_coils (h.arm.down hm a)
  obtain ⟨-, -, a, ⟨rfl, -⟩ | ⟨rfl, -⟩⟩ := partner_coil hp
  · rw [h.lift]; exact (down a).1
  · rw [h.lower]; exact (down a).2

/-- A released coil has target 0, or its target stands: a holder is there only in SERVICE, where no owner's setpoint is. -/
theorem State.CoilsLaw.endDirect (h : s.CoilsLaw) {ch : Channel} : (s.endDirect ch).CoilsLaw := by
  refine h.channel (directLaw_keptCore.endDirect h.direct) rfl (fun _ => rfl) fun p hp => ?_
  have hc : (partner ch).isSome = true := by rw [hp]; rfl
  obtain ⟨same, -⟩ := State.changeChannel_spec ch ChannelRec.release s
  rw [same]
  cases hh : s.output.channels[ch].holder with
  | some l =>
    have service := h.direct ch (by rw [hh]; rfl)
    exact .inl (ChannelRec.targetIn_zero (c := s.output.channels[ch].release) rfl (h.setpoint_zero (by rw [service]; rfl) hc) _ _ _)
  | none =>
    refine .inr (.inl ?_)
    have formed := (ChannelRec.reform_formed (c := s.output.channels[ch].release) (o := s.output) hc (fun _ => rfl)
      s.settings.ranges[ch]).2
    rw [formed, (h.formed ch hc).2, hh]
    rfl

/-- A post keeps a coil's record formed. -/
theorem State.postSetpoint_formed {ch k : Channel} {v : Nat} (hk : (partner k).isSome = true)
    (h : s.output.channels[k].formed) : (s.postSetpoint ch v).output.channels[k].formed := by
  obtain ⟨same, other, -⟩ := State.changeChannel_spec ch (fun c => { c with setpoint := v }) s
  unfold State.postSetpoint
  by_cases hkc : k = ch
  · subst hkc; rw [same]
    exact ChannelRec.reform_formed (c := { s.output.channels[k] with setpoint := v }) hk h.1 _
  · rw [other k hkc]; exact h

theorem State.postLiftLower_formed {a : Arm} {c : Coils} {k : Channel} (hk : (partner k).isSome = true)
    (h : s.output.channels[k].formed) : (s.postLiftLower a c).output.channels[k].formed := by
  unfold State.postLiftLower
  split
  · exact State.postSetpoint_formed hk (State.postSetpoint_formed hk h)
  · exact State.postSetpoint_formed hk (State.postSetpoint_formed hk h)

/-- What the posts of an arm's coils leave at the coils (R88). -/
theorem State.postCoils_coils (a : Arm) (s : State) :
    (s.postCoils a).output.channels[a.lift].setpoint = (s.arm a).lifts.toNat ∧
    (s.postCoils a).output.channels[a.lower].setpoint = (s.arm a).lowers.toNat ∧
    (∀ k : Channel, (partner k).isSome = true → k ≠ a.lift → k ≠ a.lower →
      (s.postCoils a).output.channels[k] = s.output.channels[k]) ∧
    (∀ k : Channel, (partner k).isSome = true → s.output.channels[k].formed →
      (s.postCoils a).output.channels[k].formed) := by
  unfold State.postCoils
  dsimp only
  obtain ⟨lift, lower⟩ := coilsOf_lift_lower (s.arm a) (s.program.forceOf a) (s.rotation a)
  generalize coilsOf (s.arm a).state (s.arm a).phase (s.program.forceOf a) (s.rotation a) = c at *
  obtain ⟨a1, a2, a3, -⟩ := State.postLiftLower_spec a c s
  have formed := fun k hk hf => State.postLiftLower_formed (s := s) (a := a) (c := c) (k := k) hk hf
  generalize s.postLiftLower a c = u at *
  obtain ⟨-, -, rest, -⟩ := State.postForceRotation_spec a c.force c.motor u
  have coil : ∀ k : Channel, (partner k).isSome = true →
      ((u.postForce a c.force).postRotation a c.motor).output.channels[k] = u.output.channels[k] := fun k hk =>
    rest k ((coil_channel hk).2.2.2 a).1 ((coil_channel hk).2.2.2 a).2
  obtain ⟨pl, pw⟩ := Arm.coils a
  refine ⟨?_, ?_, fun k hk hl hw => ?_, fun k hk hf => ?_⟩
  · rw [coil _ (by rw [pl]; rfl), a1, lift]
  · rw [coil _ (by rw [pw]; rfl), a2, lower]
  · rw [coil k hk, a3 k hl hw]
  · rw [coil k hk]; exact formed k hk hf

theorem Arm.lift_lower_injective {a b : Arm} (h : a ≠ b) : a.lift ≠ b.lift ∧ a.lift ≠ b.lower ∧ a.lower ≠ b.lift ∧
    a.lower ≠ b.lower := by
  cases a <;> cases b <;> first | exact absurd rfl h | decide

/-- The coils posted for an arm's new record: in a working mode no channel has a holder, and elsewhere both setpoints are 0. -/
theorem State.CoilsLaw.arms (h : s.CoilsLaw) {a : Arm} {f : ArmRec → ArmRec}
    (hf : (f (s.arm a)).state.isDown ∨ s.unit.mode.working = true) : ((s.modArm a f).postCoils a).CoilsLaw := by
  obtain ⟨lift, lower, other, formed⟩ := State.postCoils_coils a (s.modArm a f)
  obtain ⟨pl, pw⟩ := Arm.coils a
  have hl : (partner a.lift).isSome = true := by rw [pl]; rfl
  have hw : (partner a.lower).isSome = true := by rw [pw]; rfl
  have owners := (State.postCoils_spec a (s.modArm a f)).2.2.1
  have recs : ∀ b, (((s.modArm a f).postCoils a).arm b).lifts = ((s.modArm a f).arm b).lifts ∧
      (((s.modArm a f).postCoils a).arm b).lowers = ((s.modArm a f).arm b).lowers := fun b => by
    obtain ⟨e1, e2⟩ := State.postCoils_arm a b (s.modArm a f)
    simp only [ArmRec.lifts, ArmRec.lowers, e1, e2, true_and]
  generalize ht : (s.modArm a f).postCoils a = t at *
  have law : t.ArmLaw := by rw [← ht]; exact (h.arm.modArm (hf.imp id .inr)).postCoils
  have direct : t.DirectLaw := by rw [← ht]; exact h.direct.arms
  have ofOther : ∀ b, b ≠ a → ∀ k : Channel, k = b.lift ∨ k = b.lower → t.output.channels[k] = s.output.channels[k] :=
    fun b hb k hk => by
      obtain ⟨n1, n2, n3, n4⟩ := Arm.lift_lower_injective hb
      obtain ⟨ql, qw⟩ := Arm.coils b
      rcases hk with rfl | rfl
      · exact other _ (by rw [ql]; rfl) n1 n2
      · exact other _ (by rw [qw]; rfl) n3 n4
  have coils : ∀ k : Channel, (partner k).isSome = true → t.output.channels[k].formed := fun k hk => formed k hk (h.formed k hk)
  have apart : t.output.channels[a.lift].target = 0 ∨ t.output.channels[a.lower].target = 0 := by
    rcases hf with hd | hm
    · -- both setpoints are 0: a target that is not 0 is a holder's level, which stands
      obtain ⟨zl, zw⟩ := ArmRec.down_coils hd
      have stands : ∀ k : Channel, (partner k).isSome = true → t.output.channels[k].setpoint = 0 →
          t.output.channels[k].target = 0 ∨ t.output.channels[k].target = s.output.channels[k].target := fun k hk hz => by
        obtain ⟨e1, e2, e3⟩ := owners.1 k
        have before := (h.formed k hk).2
        have after := (coils k hk).2
        rw [e1, e2, e3, hz] at after
        have e1' : (s.modArm a f).output.channels[k] = s.output.channels[k] := rfl
        rw [e1'] at after
        rw [after, before]
        split
        · exact .inl rfl
        · split
          · exact .inr rfl
          · exact .inl rfl
      rcases stands _ hl (by rw [lift, State.modArm_arm_same]; exact zl) with e | e
      · exact .inl e
      · rcases stands _ hw (by rw [lower, State.modArm_arm_same]; exact zw) with e' | e'
        · exact .inr e'
        · rw [e, e']; exact h.apart _ _ pl
    · have free : ∀ k : Channel, t.output.channels[k].holder = none := fun k => by
        rw [(owners.1 k).2.1]
        cases hh : (s.modArm a f).output.channels[k].holder with
        | none => rfl
        | some l =>
          have service := h.direct k (by rw [show s.output.channels[k].holder = some l from hh]; rfl)
          rw [service] at hm; cases hm
      rcases (f (s.arm a)).lifts_lowers with e | e
      · refine .inl (((coils _ hl).target_of_free (free _)).elim id fun et => et.trans ?_)
        rw [lift, State.modArm_arm_same]; exact e
      · refine .inr (((coils _ hw).target_of_free (free _)).elim id fun et => et.trans ?_)
        rw [lower, State.modArm_arm_same]; exact e
  refine ⟨law, direct, fun b => ?_, fun b => ?_, coils, fun k p hp => ?_⟩
  · rw [(recs b).1]
    by_cases hb : b = a
    · subst hb; exact lift
    · rw [ofOther b hb _ (.inl rfl), h.lift b, State.modArm_arm_other hb]
  · rw [(recs b).2]
    by_cases hb : b = a
    · subst hb; exact lower
    · rw [ofOther b hb _ (.inr rfl), h.lower b, State.modArm_arm_other hb]
  · obtain ⟨-, -, b, hkp⟩ := partner_coil hp
    by_cases hb : b = a
    · subst hb
      rcases hkp with ⟨rfl, rfl⟩ | ⟨rfl, rfl⟩
      · exact apart
      · exact apart.symm
    · rcases hkp with ⟨rfl, rfl⟩ | ⟨rfl, rfl⟩
      · rw [ofOther b hb _ (.inl rfl), ofOther b hb _ (.inr rfl)]; exact h.apart _ _ hp
      · rw [ofOther b hb _ (.inr rfl), ofOther b hb _ (.inl rfl)]; exact h.apart _ _ hp

theorem State.CoilsLaw.setpoint (h : s.CoilsLaw) {ch : Channel} {v : Nat} (hch : (partner ch).isSome = false) :
    (s.postSetpoint ch v).CoilsLaw := h.elsewhere hch h.direct.setpoint

/-- SERVICE is left with every channel released, and the coils' owners' setpoints as they stood (R13, R172). -/
theorem State.CoilsLaw.leaveService (h : s.CoilsLaw) (hm : s.unit.mode = .service) : s.leaveService.CoilsLaw := by
  have released : (s.endDirectWhere fun _ => true).CoilsLaw := State.endDirectWhere_keeps (fun h => h.endDirect) h
  have mode := State.setMode_spec .transport s
  have posted := mode.1.trans (State.postBoth_settlesTo .serviceLeft (s.setMode .transport)) (by decide)
  have set : ((s.setMode .transport).postBoth .serviceLeft).settings = s.settings := by simp
  refine released.others (armLaw_keptCore.leaveService hm h.arm) (directLaw_keptCore.leaveService hm h.direct)
    (fun ch low high _ => ?_) fun a => ?_
  · rw [(State.endDirectWhere_spec (fun _ => true) s).1 ch]
    unfold State.leaveService
    rw [(State.endDirectWhere_spec _ _).1 ch, posted.channels ch (by omega), set]
    simp only [Output.cutFlag, posted.cuts]
  · have arms : s.leaveService.arms = (s.endDirectWhere fun _ => true).arms := by simp
    unfold State.arm; rw [arms]; exact ⟨rfl, rfl⟩

theorem State.CoilsLaw.takeDirect (h : s.CoilsLaw) {ch : Channel} {l : Link} {level : Nat}
    (direct : (s.takeDirect ch l level).DirectLaw) (hf : s.output.channels[ch].fault = .none)
    (hi : s.interlocked ch level = false) : (s.takeDirect ch l level).CoilsLaw := by
  refine h.channel direct rfl (fun hn => absurd hf hn) fun p hp => ?_
  have hc : (partner ch).isSome = true := by rw [hp]; rfl
  have hpc : (partner p).isSome = true := by rw [(partner_coil hp).1]; rfl
  rw [State.interlocked, hp] at hi
  simp only [Option.any_some, Output.commanded_coil _ hpc, Bool.and_eq_false_iff, decide_eq_false_iff_not,
    Nat.not_lt, Nat.le_zero] at hi
  rcases hi with hl | ht
  · refine .inl ?_
    rw [(State.changeChannel_spec ch _ s).1, (ChannelRec.reform_formed (c := { s.output.channels[ch] with
      holder := some l, level := level }) (o := s.output) hc (fun hn => absurd hf hn) s.settings.ranges[ch]).2]
    simp [ChannelRec.reform, hl]
  · exact .inr (.inr ht)

theorem coilsLaw_keptCore : State.KeptCore State.CoilsLaw where
  elapse h := h.stands (armLaw_keptCore.elapse h.arm) (directLaw_keptCore.elapse h.direct) (by simp) (by simp)
  periods h := h.stands h.arm h.direct rfl rfl
  links h := h.stands h.arm h.direct rfl rfl
  freeCount h := h.stands h.arm h.direct rfl rfl
  post h := h.stands h.arm h.direct rfl rfl
  quiet _ h := h.stands h.arm h.direct rfl rfl
  raiseAlarm h := h.stands (armLaw_keptCore.raiseAlarm h.arm) (directLaw_keptCore.raiseAlarm h.direct) (by simp) (by simp)
  alarmGone h := h.stands (armLaw_keptCore.alarmGone h.arm) (directLaw_keptCore.alarmGone h.direct) (by simp) (by simp)
  bumpBy h := h.stands h.arm h.direct rfl rfl
  bank _ h := h.stands h.arm h.direct rfl rfl
  activate hs h := h.stands (armLaw_keptCore.activate hs h.arm) (directLaw_keptCore.activate hs h.direct) (by simp) (by simp)
  deactivate hs h :=
    h.stands (armLaw_keptCore.deactivate hs h.arm) (directLaw_keptCore.deactivate hs h.direct) (by simp) (by simp)
  updateCap hs h :=
    h.stands (armLaw_keptCore.updateCap hs h.arm) (directLaw_keptCore.updateCap hs h.direct) (by simp) (by simp)
  travel _ h := h.stands h.arm h.direct rfl rfl
  addDistance h := h.stands (armLaw_keptCore.addDistance h.arm) (directLaw_keptCore.addDistance h.direct) (by simp) (by simp)
  scan _ h := h.stands h.arm h.direct rfl rfl
  gov _ h := h.stands h.arm h.direct rfl rfl
  setpoint hch h := h.setpoint (by
    rcases hch with rfl | rfl | ⟨hch, -⟩
    · rfl
    · rfl
    · rw [← Bool.not_eq_true]; exact fun hp => by have := (coil_channel hp).1; omega)
  trim {ch f s} hf h := h.mono h.arm (directLaw_keptCore.trim hf h.direct) (fun k _ => by
    by_cases hk : k = ch
    · subst hk; rw [State.modOutput_output, Output.modChannel_same]; exact hf _
    · rw [State.modOutput_output, Output.modChannel_other hk]; exact ⟨rfl, rfl, rfl, rfl, rfl, id⟩) fun _ => ⟨rfl, rfl⟩
  endDirect h := h.endDirect
  faultChannel {ch kind s} hk h := h.channel (directLaw_keptCore.faultChannel hk h.direct) rfl (fun _ => rfl) fun p hp => by
    refine .inl ?_
    rw [(State.changeChannel_spec ch _ s).1]
    simp [ChannelRec.reform, ChannelRec.stateWith, hk, targetIn]
  mendChannel {ch s} hf hz h := h.channel (directLaw_keptCore.mendChannel hf hz h.direct) rfl (fun hn => absurd rfl hn)
    fun p hp => .inl (by
      rw [(State.changeChannel_spec ch _ s).1]
      exact ChannelRec.targetIn_zero (c := { s.output.channels[ch] with fault := .none })
        ((h.formed ch (by rw [hp]; rfl)).1 hf) hz _ _ _)
  takeDirect hch hm hf hi h := h.takeDirect (directLaw_keptCore.takeDirect hch hm hf hi h.direct) hf hi
  setDriveCut {s} h := by
    have cut : (s.modOutput fun o => { o with driveCut := true }).CoilsLaw :=
      h.others h.arm h.direct (fun _ _ _ _ => rfl) fun _ => ⟨rfl, rfl⟩
    have one := cut.elsewhere (ch := 0) (f := ChannelRec.release) rfl cut.direct.release
    exact one.elsewhere rfl one.direct.release
  broomCut {s} h := by
    have cut : (s.modOutput fun o => { o with broomCut := true }).CoilsLaw :=
      h.others h.arm h.direct (fun _ _ _ _ => rfl) fun _ => ⟨rfl, rfl⟩
    have released : s.setBroomCut.CoilsLaw := cut.elsewhere (ch := 13) (f := ChannelRec.release) rfl cut.direct.release
    refine released.others (armLaw_keptCore.broomCut h.arm) (directLaw_keptCore.broomCut h.direct) (fun k _ high _ => ?_)
      (State.seeBroomCut_sameArms (s := s.setBroomCut))
    exact (State.postSetpoint_spec 13 0 (s.setBroomCut.modArms fun x => { x with cutSeen := true })).2.1 k fun e => by
      rw [e] at high; exact absurd high (by decide)
  releaseBroom {s} h := h.others (armLaw_keptCore.releaseBroom h.arm) (directLaw_keptCore.releaseBroom h.direct)
    (fun k _ high _ => (State.changeChannel_spec 13 id (s.modOutput fun o => { o with broomCut := false })).2.1 k fun e => by
      rw [e] at high; exact absurd high (by decide)) State.releaseBroom_sameArms
  unit hf h := h.stands (armLaw_keptCore.unit hf h.arm) (directLaw_keptCore.unit hf h.direct) rfl rfl
  setMode {m s} hm h := h.settles (armLaw_keptCore.setMode hm h.arm) (directLaw_keptCore.setMode hm h.direct)
    (State.setMode_spec m s).1 rfl rfl
  leaveService hm h := h.leaveService hm
  turn hf hp h := h.settles (armLaw_keptCore.turn hf hp h.arm) (directLaw_keptCore.turn hf hp h.direct)
    (State.programChanged_spec _).1 rfl rfl
  store _ _ h := h.stands h.arm h.direct rfl rfl
  pend _ h := h.stands h.arm h.direct rfl rfl
  armFlags hf h := h.others (armLaw_keptCore.armFlags hf h.arm) h.direct (fun _ _ _ _ => rfl)
    (State.modArms_sameArms fun x => (hf x).1)
  armMarks hf h := h.others (armLaw_keptCore.armMarks hf h.arm) h.direct (fun _ _ _ _ => rfl)
    (State.modArm_sameArms fun r => ⟨(hf r).1, (hf r).2.1⟩)
  rephase {a f s} hy hf h := h.arms (.inr (by
    by_contra hm
    rw [Bool.not_eq_true] at hm
    have := h.arm.down hm a
    rw [hy] at this
    rcases this with e | e <;> cases e))
  postRotation {a s} h := h.others (armLaw_keptCore.postRotation h.arm) (directLaw_keptCore.postRotation h.direct)
    (fun k _ _ hk => (State.postSetpoint_spec a.motor (s.rotation a) s).2.1 k ((coil_channel hk).2.2.2 a).1)
    (State.postRotation_sameArms a _)
  postForce {a v s} h := h.others (armLaw_keptCore.postForce h.arm) (directLaw_keptCore.postForce h.direct)
    (fun k _ _ hk => by
      unfold State.postForce
      split
      · next ch hf =>
        exact (State.postSetpoint_spec ch v s).2.1 k fun e => ((coil_channel hk).2.2.2 a).2 (e ▸ hf)
      · rfl) (State.postForce_sameArms a v)
  judgeBars h := h.settles (armLaw_keptCore.judgeBars h.arm) (directLaw_keptCore.judgeBars h.direct)
    (State.judgeBars_spec _).1 rfl rfl
  settleBars hf h := h.settles (armLaw_keptCore.settleBars hf h.arm) (directLaw_keptCore.settleBars hf h.direct)
    (State.judgeBars_spec _).1 rfl rfl
  pump _ h := h.stands h.arm h.direct rfl rfl
  cycleStart {b s} h := h.others (armLaw_keptCore.cycleStart h.arm) (directLaw_keptCore.cycleStart h.direct)
    (fun k _ high _ => (State.cycleStart_spec b s).channels k fun e => by
      have := Bar.valve_ge b
      rw [← e] at this; omega) fun a => by
    have arms : (s.cycleStart b).arms = s.arms := by simp
    unfold State.arm; rw [arms]; exact ⟨rfl, rfl⟩
  closeValve {b s} h := h.others (armLaw_keptCore.closeValve h.arm) (directLaw_keptCore.closeValve h.direct)
    (fun k _ high _ => (State.postSetpoint_spec b.valve 0 s).2.1 k fun e => by
      have := Bar.valve_ge b
      rw [← e] at this; omega) fun _ => ⟨rfl, rfl⟩
  settings _ _ _ h := h.stands h.arm h.direct rfl rfl
  transportMax ho h := h.stands (armLaw_keptCore.transportMax ho h.arm) (directLaw_keptCore.transportMax ho h.direct)
    (by simp) (by simp)

theorem coilsLaw_kept : State.Kept State.CoilsLaw := coilsLaw_keptCore.kept fun {a f s} hm h => h.arms (by
  rcases hm.2 with hd | ho | hw
  · exact .inl hd
  · refine .inr ?_
    by_contra hn
    rw [Bool.not_eq_true] at hn
    exact ho (h.arm.down hn a)
  · exact .inr hw)

theorem State.CoilsLaw.drivePeriod (h : s.CoilsLaw) : s.drivePeriod.CoilsLaw := by
  refine coilsLaw_keptCore.drivePeriod (fun h => ?_) (fun h => ?_) (fun h => h.stands h.arm h.direct rfl rfl) (fun {s} h => ?_)
    (fun {s} h => ?_) h
  · exact h.stands (h.arm.stands (by simp) (by simp)) (h.direct.same (by simp) (by simp)) (by simp) (by simp)
  · exact h.stands (h.arm.stands (by simp) (by simp)) (h.direct.same (by simp) (by simp)) (by simp) (by simp)
  · have both : ∀ {p q : Channel} {v w : Nat}, (partner p).isSome = false → (partner q).isSome = false →
        ((s.postSetpoint p v).postSetpoint q w).CoilsLaw := fun hp hq => (h.setpoint hp).setpoint hq
    unfold State.postPump
    repeat' split
    all_goals exact both rfl rfl
  · unfold State.releaseDrive
    split
    · have freed : (s.modOutput fun o => { o with driveCut := false }).CoilsLaw :=
        h.others h.arm h.direct (fun _ _ _ _ => rfl) fun _ => ⟨rfl, rfl⟩
      have one := freed.elsewhere (ch := 0) (f := id) rfl (freed.direct.channel fun _ hc => hc)
      have two := one.elsewhere (ch := 1) (f := id) rfl (one.direct.channel fun _ hc => hc)
      exact two.stands two.arm two.direct rfl rfl
    · exact h

/-- A state with every arm stowed and every channel idle has the law (R87, R159). -/
theorem State.CoilsLaw.of_idle (ha : ∀ a : Arm, (s.arm a).state = .stowed)
    (hc : ∀ ch : Channel, s.output.channels[ch].holder = none ∧ s.output.channels[ch].setpoint = 0 ∧
      s.output.channels[ch].target = 0) : s.CoilsLaw where
  arm := .of_down fun a => .inl (ha a)
  direct ch hch := by rw [(hc ch).1] at hch; cases hch
  lift a := by rw [(hc _).2.1, (ArmRec.down_coils (.inl (ha a))).1]
  lower a := by rw [(hc _).2.1, (ArmRec.down_coils (.inl (ha a))).2]
  formed ch _ := ⟨fun _ => (hc ch).1, by rw [(hc ch).1, (hc ch).2.1, (hc ch).2.2]; simp⟩
  apart ch _ _ := .inl (hc ch).2.2

theorem State.CoilsLaw.step (h : s.CoilsLaw) (hs : step s = .next t) : t.CoilsLaw :=
  coilsLaw_kept.step (fun h => h.stands h.arm h.direct rfl rfl) (fun _ => {
    lower := fun _ _ _ hm _ h => coilsLaw_keptCore.moved (h.arms (.inr (by rw [hm]; rfl)))
    drive := fun _ _ h => h.drivePeriod
    powerOn := fun x _ s _ => .of_idle (fun a => by cases a <;> rfl) fun ch => by
      rw [State.powerOn_channel]
      obtain ⟨holder, point, target, -⟩ := Output.initial_channel ch
      exact ⟨holder, point, target⟩
    joint := fun _ s _ => .of_idle (fun a => by cases a <;> rfl) fun ch => by
      rw [State.jointRestart_channel]; exact ⟨rfl, rfl, rfl⟩ }) h hs

theorem State.CoilsLaw.commanded (h : s.CoilsLaw) (a : Arm) :
    s.output.commanded a.lift = 0 ∨ s.output.commanded a.lower = 0 := by
  obtain ⟨pl, pw⟩ := Arm.coils a
  rw [Output.commanded_coil _ (by rw [pl]; rfl), Output.commanded_coil _ (by rw [pw]; rfl)]
  exact h.apart _ _ pl

end

/-! ### The law of the broom's cut (R88, R105) -/

section
variable {s t : State}

theorem State.BroomCutLaw.mono (h : s.BroomCutLaw) (hs : t.arms.cutSeen = true → s.arms.cutSeen = true)
    (hb : t.output.broomCut = s.output.broomCut)
    (hc : t.output.channels[(13 : Channel)].setpoint = s.output.channels[(13 : Channel)].setpoint)
    (hr : t.arms.main.rot = s.arms.main.rot) : t.BroomCutLaw := fun ht => by
  rw [hb, hc, hr]; exact h (hs ht)

/-- The arms, the latch and the motor's channel stand. -/
theorem State.BroomCutLaw.stands (h : s.BroomCutLaw) (ha : t.arms = s.arms) (hb : t.output.broomCut = s.output.broomCut)
    (hc : t.output.channels[(13 : Channel)] = s.output.channels[(13 : Channel)]) : t.BroomCutLaw :=
  h.mono (by rw [ha]; exact id) hb (by rw [hc]) (by rw [ha])

theorem State.BroomCutLaw.settles {p : List Source} {k : List EventKind} {c : List Tally} {u : State} (h : s.BroomCutLaw)
    (hs : State.SettlesTo p k c u t) (ho : u.output = s.output) (ha : u.arms = s.arms) : t.BroomCutLaw :=
  h.stands (by rw [hs.rest]; exact ha) (by rw [hs.cuts.2, ho]) (by rw [hs.channels 13 (by decide), ho])

/-- A change of a channel that leaves its setpoint. -/
theorem State.BroomCutLaw.channel (h : s.BroomCutLaw) {ch : Channel} {f : ChannelRec → ChannelRec}
    (hf : ∀ c : ChannelRec, (f c).setpoint = c.setpoint) : (s.changeChannel ch f).BroomCutLaw := by
  obtain ⟨same, other, -⟩ := State.changeChannel_spec ch f s
  refine h.mono id rfl ?_ rfl
  by_cases hc : (13 : Channel) = ch
  · subst hc; rw [same]; exact hf _
  · rw [other _ hc]

theorem State.BroomCutLaw.setpoint (h : s.BroomCutLaw) {ch : Channel} {v : Nat} (hc : ch ≠ 13) :
    (s.postSetpoint ch v).BroomCutLaw :=
  h.stands rfl rfl ((State.postSetpoint_spec ch v s).2.1 13 hc.symm)

theorem State.rotation_cutSeen (h : s.arms.cutSeen = true) : s.rotation .main = 0 := if_pos ⟨rfl, h⟩

/-- The posts of an arm's coils: the broom's motor gets 0 while cut-seen is set, in every state (R88). -/
theorem State.BroomCutLaw.arms (h : s.BroomCutLaw) {a : Arm} {f : ArmRec → ArmRec} :
    ((s.modArm a f).postCoils a).BroomCutLaw := by
  obtain ⟨posted, other, owners, -, others, rest, -⟩ := State.postCoils_spec a (s.modArm a f)
  generalize (s.modArm a f).postCoils a = t at *
  have seen : t.arms.cutSeen = s.arms.cutSeen := by
    have e := congrArg Arms.cutSeen rest
    exact e.trans (Arms.mod_rest a f s.arms).2.2.1
  intro ht
  obtain ⟨latch, point, rot⟩ := h (seen ▸ ht)
  refine ⟨owners.2.2.trans latch, ?_⟩
  by_cases ha : a = .main
  · subst ha
    obtain ⟨-, -, -, -, turns, rests, -⟩ := posted
    have zero : t.rotation .main = 0 := State.rotation_cutSeen ht
    rw [zero] at turns
    by_cases hp : ((t.arm .main).state = .lowering ∨ (t.arm .main).state = .working) ∨ (t.arm .main).state = .yielding
    · exact turns hp
    · exact rests (not_or.1 hp)
  · have main : t.arms.main = s.arms.main := (others .main (Ne.symm ha)).trans (State.modArm_arm_other (Ne.symm ha) f s)
    rw [main, other 13 (by cases a <;> first | decide | exact absurd rfl ha)]
    exact ⟨point, rot⟩

theorem broomCutLaw_keptCore : State.KeptCore State.BroomCutLaw where
  elapse h := h.stands (by simp) (by simp) (by simp)
  periods h := h
  links h := h
  freeCount h := h
  post h := h
  quiet _ h := h
  raiseAlarm h := h.stands (by simp) (by simp) (by simp)
  alarmGone h := h.stands (by simp) (by simp) (by simp)
  bumpBy h := h
  bank _ h := h
  activate _ h := h.stands (by simp) (by simp) (by simp)
  deactivate _ h := h.stands (by simp) (by simp) (by simp)
  updateCap _ h := h.stands (by simp) (by simp) (by simp)
  travel _ h := h
  addDistance h := h.stands (by simp) (by simp) (by simp)
  scan _ h := h
  gov _ h := h
  setpoint hch h := h.setpoint (by
    rcases hch with rfl | rfl | ⟨hch, -⟩
    · decide
    · decide
    · rintro rfl; exact absurd hch (by decide))
  trim {ch f s} hf h := h.mono id rfl (by
    by_cases hc : (13 : Channel) = ch
    · subst hc; rw [State.modOutput_output, Output.modChannel_same]; exact (hf _).1
    · rw [State.modOutput_output, Output.modChannel_other hc]) rfl
  endDirect h := h.channel fun _ => rfl
  faultChannel _ h := h.channel fun _ => rfl
  mendChannel _ _ h := h.channel fun _ => rfl
  takeDirect _ _ _ _ h := h.channel fun _ => rfl
  setDriveCut {s} h := State.BroomCutLaw.channel (State.BroomCutLaw.channel (ch := 0) (f := ChannelRec.release)
    (s := s.modOutput fun o => { o with driveCut := true }) h fun _ => rfl) fun _ => rfl
  broomCut {s} _ := fun _ => ⟨rfl, (State.postSetpoint_spec 13 0 (s.setBroomCut.modArms fun x => { x with cutSeen := true })).1,
    rfl⟩
  releaseBroom _ := fun ht => nomatch ht
  unit _ h := h
  setMode {m s} _ h := h.settles (State.setMode_spec m s).1 rfl rfl
  leaveService {s} _ h := by
    obtain ⟨-, -, -, channels, -⟩ := State.leaveService_spec s
    have cut : s.leaveService.output.broomCut = s.output.broomCut := by
      unfold State.leaveService
      rw [(State.endDirectWhere_spec _ _).2.2.1]
      exact (State.setMode_spec .transport s).1.cuts.2
    exact h.mono (by simp) cut ((channels 13).2.2.2 (by decide)).1 (by simp)
  turn {f _ _ s} _ _ h := h.settles (u := s.modUnit f) (State.programChanged_spec _).1 rfl rfl
  store _ _ h := h
  pend _ h := h
  armFlags hf h := h.mono (fun ht => (hf _).2 ▸ ht) rfl rfl (congrArg ArmRec.rot ((hf _).1 .main))
  armMarks {a f s} hf h := by
    refine h.mono (fun ht => (Arms.mod_rest a f s.arms).2.2.1 ▸ ht) rfl rfl ?_
    by_cases ha : Arm.main = a
    · subst ha; exact (hf _).2.2
    · exact congrArg ArmRec.rot (State.modArm_arm_other (s := s) ha f)
  rephase _ _ h := h.arms
  postRotation {a s} h := by
    by_cases ha : a = .main
    · subst ha
      intro ht
      have seen : s.arms.cutSeen = true := ht
      rw [State.rotation_cutSeen seen]
      exact ⟨(h seen).1, (State.postSetpoint_spec 13 0 s).1, rfl⟩
    · have hm : a.motor ≠ 13 := by cases a <;> first | decide | exact absurd rfl ha
      refine State.BroomCutLaw.mono (h.setpoint (v := s.rotation a) hm) (fun ht => ?_) rfl rfl ?_
      · exact (Arms.mod_rest a _ s.arms).2.2.1 ▸ ht
      · exact congrArg ArmRec.rot (Arms.mod_other (Ne.symm ha) _ s.arms)
  postForce {a v s} h := by
    unfold State.postForce
    split
    · next ch hf =>
      have hc : ch ≠ 13 := by rintro rfl; cases a <;> cases hf
      have hm : Arm.main ≠ a := by rintro rfl; cases hf
      refine State.BroomCutLaw.mono (h.setpoint (v := v) hc) (fun ht => ?_) rfl rfl ?_
      · exact (Arms.mod_rest a _ s.arms).2.2.1 ▸ ht
      · exact congrArg ArmRec.rot (Arms.mod_other hm _ s.arms)
    · exact h
  judgeBars h := h.settles (State.judgeBars_spec _).1 rfl rfl
  settleBars {f s} _ h := h.settles (u := s.modSpray f) (State.judgeBars_spec _).1 rfl rfl
  pump _ h := h
  cycleStart {b s} h := h.stands (by simp) (State.cycleStart_spec b s).cuts.2
    ((State.cycleStart_spec b s).channels 13 (by cases b <;> decide))
  closeValve {b s} h := State.BroomCutLaw.setpoint (s := s) (ch := b.valve) (v := 0) h (by cases b <;> decide)
  settings _ _ _ h := h
  transportMax _ h := h.stands (by simp) (by simp) (by simp)

theorem State.BroomCutLaw.drivePeriod (h : s.BroomCutLaw) : s.drivePeriod.BroomCutLaw := by
  refine broomCutLaw_keptCore.drivePeriod (fun h => h.stands (by simp) (by simp) (by simp))
    (fun h => h.stands (by simp) (by simp) (by simp)) (fun h => h) (fun {s} h => ?_) (fun {s} h => ?_) h
  · have both : ∀ {p q : Channel} {v w : Nat}, p ≠ 13 → q ≠ 13 → ((s.postSetpoint p v).postSetpoint q w).BroomCutLaw :=
      fun hp hq => (h.setpoint hp).setpoint hq
    unfold State.postPump
    repeat' split
    all_goals exact both (by decide) (by decide)
  · unfold State.releaseDrive
    split
    · exact State.BroomCutLaw.channel (ch := 1) (f := id) (State.BroomCutLaw.channel (ch := 0) (f := id)
        (s := s.modOutput fun o => { o with driveCut := false }) h fun _ => rfl) fun _ => rfl
    · exact h

theorem State.BroomCutLaw.step (h : s.BroomCutLaw) (hs : step s = .next t) : t.BroomCutLaw :=
  (broomCutLaw_keptCore.kept fun _ h => h.arms).step (fun h => h) (fun _ => {
    lower := fun _ _ _ _ _ h => broomCutLaw_keptCore.moved h.arms
    drive := fun _ _ h => h.drivePeriod
    powerOn := fun _ _ _ _ ht => nomatch ht
    joint := fun _ _ _ ht => nomatch ht }) h hs

/-- Settles O58: the coils are posted with each change of an arm's state (R88), a holder comes in SERVICE alone, where every arm
is down (R93, R171), and the broom's motor is posted 0 while its cut is seen (R105). -/
theorem armLawKept : Obligations.ArmLawKept := fun _ _ hs =>
  ⟨fun h => h.step hs, lowering_in_sweep hs,
    fun arm direct coil =>
      have law := State.CoilsLaw.step (State.coilsLaw_iff.2 ⟨arm, direct, coil⟩) hs
      ⟨(State.coilsLaw_iff.1 law).2.2, law.commanded⟩,
    fun h => h.step hs⟩

end

end Sys2Proof.Machine
end

section
/-! The spray bars: what every step keeps of R117, R119, R121, R122 and R126. -/

namespace Sys2Proof.Machine

/-! ### A bar's pulse, valve and owed water -/

/-- A pulse is open only at an active bar, the valve's setpoint is on only for a pulse, and an inactive bar is owed nothing
(R117, R119). -/
structure BarFits (x : BarRec) (valve : Nat) : Prop where
  pulse : x.pulseEnd.isSome = true → x.active = true
  valve : 0 < valve → x.pulseEnd.isSome = true
  idle : x.active = false → x.owed = 0

theorem BarFits.congr {x y : BarRec} {v w : Nat} (h : BarFits x v) (ha : y.active = x.active)
    (hp : y.pulseEnd.isSome = x.pulseEnd.isSome) (ho : y.owed = x.owed) (hv : w = v) : BarFits y w := by
  obtain ⟨pulse, valve, idle⟩ := h
  subst hv
  exact ⟨by rw [ha, hp]; exact pulse, by rw [hp]; exact valve, by rw [ha, ho]; exact idle⟩

/-- Every bar fits its valve's setpoint. -/
def State.BarsFit (s : State) : Prop := ∀ b : Bar, BarFits (s.spray.bar b) s.output.channels[b.valve].setpoint

/-- The owed water of an active bar is within its cap (R122). -/
def State.barCapped (s : State) (b : Bar) : Prop :=
  (s.spray.bar b).active = true → (s.spray.bar b).owed ≤ owedCap s.program (s.settings.spray.flow b)

/-- The bars stand as their conditions say (R117). -/
def State.BarsMay (s : State) : Prop := ∀ b : Bar, (s.spray.bar b).active = s.barMayBeActive b

/-- The bars fit their valves and their owed water its caps. -/
structure State.BarsSound (s : State) : Prop where
  fits : s.BarsFit
  capped : ∀ b, s.barCapped b

/-- The laws of the bars together. -/
structure State.BarsKept (s : State) : Prop extends s.BarsSound where
  may : s.BarsMay

section
variable {s t : State}

theorem State.barsKept_iff : s.BarsKept ↔ s.BarLaw ∧ s.OwedLaw := by
  constructor
  · rintro ⟨⟨fits, capped⟩, may⟩
    exact ⟨fun b => ⟨may b, (fits b).pulse, (fits b).valve⟩, fun b => ⟨(fits b).idle, capped b⟩⟩
  · rintro ⟨law, owed⟩
    exact ⟨⟨fun b => ⟨(law b).2.1, (law b).2.2, (owed b).1⟩, fun b => (owed b).2⟩, fun b => (law b).1⟩

theorem State.BarsFit.same (h : s.BarsFit) (hs : t.spray = s.spray)
    (hc : ∀ b : Bar, t.output.channels[b.valve].setpoint = s.output.channels[b.valve].setpoint) : t.BarsFit := fun b => by
  rw [hs, hc]; exact h b

theorem State.program_congr (hu : t.unit = s.unit) : t.program = s.program := by
  simp only [State.program, State.inForce, hu]

theorem State.barCapped.same {b : Bar} (h : s.barCapped b) (hs : t.spray.bar b = s.spray.bar b)
    (hp : t.program = s.program) (hx : t.settings = s.settings) : t.barCapped b := by
  unfold State.barCapped; rw [hs, hp, hx]; exact h

/-! ### The judgement of the bars (R117, R119) -/

theorem State.postSetpoint_valve {ch : Channel} {v : Nat} (b : Bar) (hc : ch.val < 15) :
    (s.postSetpoint ch v).output.channels[b.valve].setpoint = s.output.channels[b.valve].setpoint := by
  rw [(State.postSetpoint_spec ch v s).2.1 b.valve fun e => by have := Bar.valve_ge b; rw [e] at this; omega]

/-- A bar that becomes inactive closes its valve. -/
theorem State.BarsFit.deactivateBar (h : s.BarsFit) (b : Bar) : (s.deactivateBar b).BarsFit := by
  obtain ⟨closed, others, off, elsewhere, -⟩ := State.deactivateBar_spec b s
  intro k
  by_cases hk : k = b
  · subst hk
    rw [closed]
    refine ⟨(fun hp => nomatch hp), fun hv => ?_, fun _ => rfl⟩
    by_cases hp : (s.spray.bar k).pulseEnd.isSome = true
    · rw [off hp] at hv; exact absurd hv (by decide)
    · have stands : (s.deactivateBar k).output = s.output := by
        unfold State.deactivateBar
        rw [if_neg hp]
        rfl
      rw [stands] at hv
      exact absurd ((h k).valve hv) hp
  · rw [others k hk, elsewhere k.valve fun e => hk (Bar.valve_injective.1 e)]
    exact h k

theorem State.BarsFit.judgeBar (h : s.BarsFit) (b : Bar) : (s.judgeBar b).BarsFit := by
  unfold State.judgeBar
  dsimp only
  split
  · exact h.deactivateBar b
  · split
    · next ha =>
      have idle : (s.spray.bar b).active = false := by
        rw [Bool.and_eq_true] at ha; simpa using ha.1
      intro k
      by_cases hk : k = b
      · subst hk
        simp only [State.modBar, State.modSpray_spray, State.modSpray_output, Spray.modBar_same]
        exact ⟨fun _ => rfl, (h k).valve, fun hf => nomatch hf⟩
      · simp only [State.modBar, State.modSpray_spray, State.modSpray_output, Spray.modBar_other hk]
        exact h k
    · exact h

theorem State.BarsFit.judgeBars (h : s.BarsFit) : s.judgeBars.BarsFit := by
  have all : (Bar.all.foldl State.judgeBar s).BarsFit := ((h.judgeBar .left).judgeBar .right).judgeBar .main
  unfold State.judgeBars
  dsimp only
  generalize Bar.all.foldl State.judgeBar s = u at *
  obtain ⟨bars, elsewhere, -⟩ := State.judgePump_spec s.spray.anyActive u
  have pumped : (u.judgePump s.spray.anyActive).BarsFit := fun b => by
    rw [bars b, elsewhere b.valve (by cases b <;> decide)]; exact all b
  exact pumped.same (by simp [State.judgeDrySweep]) fun b => by simp [State.judgeDrySweep]

/-- The judgement leaves the owed water of the bars that stay, and none to one that comes or goes. -/
theorem State.judgeBars_capped (h : s.BarsFit) {b : Bar} (hc : s.barCapped b) : s.judgeBars.barCapped b := by
  obtain ⟨settles, -, settled, -⟩ := State.judgeBars_spec s
  obtain ⟨stays, comes, -⟩ := settled b
  have program : s.judgeBars.program = s.program := State.program_congr settles.unit
  intro ha
  have flow : s.judgeBars.settings = s.settings := by rw [settles.rest]
  rw [program, flow]
  cases hs : (s.spray.bar b).active with
  | true =>
    rw [stays (by rw [hs]; exact ha)]
    exact hc hs
  | false =>
    rw [comes hs ha]
    exact le_of_eq_of_le ((h b).idle hs) (Nat.zero_le _)

/-! ### A change of the program in force (R128) -/

theorem State.holdOwed_bar (b k : Bar) (s : State) :
    ((s.holdOwed b).spray.bar k).active = (s.spray.bar k).active ∧
    ((s.holdOwed b).spray.bar k).pulseEnd = (s.spray.bar k).pulseEnd ∧
    (k ≠ b → (s.holdOwed b).spray.bar k = s.spray.bar k) ∧
    ((s.holdOwed b).spray.bar b).owed = (if (s.spray.bar b).active = true then
      min (owedCap s.program (s.settings.spray.flow b)) (s.spray.bar b).owed else (s.spray.bar b).owed) ∧
    (s.holdOwed b).output = s.output := by
  unfold State.holdOwed
  dsimp only
  split
  · next h =>
    rw [Bool.and_eq_true, decide_eq_true_eq] at h
    have held : ∀ (q cap : Nat) (j : Bar), (((s.addShortfall b q).modBar b fun x => { x with owed := cap }).spray.bar j) =
        if j = b then { s.spray.bar j with owed := cap, shortfallRem := ((s.spray.bar b).shortfallRem + q) % 1000 }
        else s.spray.bar j := fun q cap j => by
      simp only [State.addShortfall, State.modBar, State.modSpray_spray, State.bumpBy_frame]
      by_cases hj : j = b
      · subst hj; rw [Spray.modBar_same, Spray.modBar_same, if_pos rfl]
      · rw [Spray.modBar_other hj, Spray.modBar_other hj, if_neg hj]
    rw [held, held]
    refine ⟨by split <;> rfl, by split <;> rfl, fun hk => if_neg hk, ?_, rfl⟩
    rw [if_pos rfl, if_pos h.1]
    exact (Nat.min_eq_left h.2.le).symm
  · next h =>
    refine ⟨rfl, rfl, fun _ => rfl, ?_, rfl⟩
    split
    · next ha =>
      rw [ha, Bool.true_and, decide_eq_true_eq] at h
      exact (Nat.min_eq_right (Nat.not_lt.1 h)).symm
    · rfl

theorem State.holdOwed_settings (b : Bar) (s : State) : (s.holdOwed b).settings = s.settings := by simp

theorem State.BarsFit.holdOwed (h : s.BarsFit) (b : Bar) : (s.holdOwed b).BarsFit := fun k => by
  obtain ⟨active, pulse, others, owed, output⟩ := State.holdOwed_bar b k s
  rw [output]
  by_cases hk : k = b
  · subst hk
    refine ⟨by rw [active, pulse]; exact (h k).pulse, by rw [pulse]; exact (h k).valve, fun hf => ?_⟩
    rw [active] at hf
    rw [owed, hf]
    exact (h k).idle hf
  · rw [others hk]; exact h k

theorem State.holdOwed_capped (b : Bar) (s : State) : (s.holdOwed b).barCapped b := fun ha => by
  obtain ⟨active, -, -, owed, -⟩ := State.holdOwed_bar b b s
  rw [active] at ha
  rw [owed, if_pos ha, State.program_congr (s := s) (t := s.holdOwed b) (by simp), State.holdOwed_settings]
  exact Nat.min_le_left _ _

theorem State.barCapped.holdOwed {b k : Bar} (h : s.barCapped k) : (s.holdOwed b).barCapped k := by
  by_cases hk : k = b
  · subst hk; exact State.holdOwed_capped k s
  · exact h.same ((State.holdOwed_bar b k s).2.2.1 hk) (State.program_congr (by simp)) (by simp)

/-- After a change of the program in force the bars fit, are judged, and are held to the new caps. -/
theorem State.BarsFit.programChanged (h : s.BarsFit) : s.programChanged.BarsKept := by
  have posted : (s.writeModeCap.updateCap .reverseArms s.writeModeCap.reverseCap).BarsFit :=
    h.same (by simp) fun b => by simp
  have judged := posted.judgeBars
  generalize hu : s.writeModeCap.updateCap .reverseArms s.writeModeCap.reverseCap = u at *
  have fits : (Bar.all.foldl State.holdOwed u.judgeBars).BarsFit := ((judged.holdOwed .left).holdOwed .right).holdOwed .main
  have capped : ∀ b, (Bar.all.foldl State.holdOwed u.judgeBars).barCapped b := fun b => by
    cases b
    · exact State.barCapped.holdOwed (State.barCapped.holdOwed (State.holdOwed_capped .left _))
    · exact State.barCapped.holdOwed (State.holdOwed_capped .right _)
    · exact State.holdOwed_capped .main _
  have changed : s.programChanged = (Bar.all.foldl State.holdOwed u.judgeBars).updateCap .drySweep u.program.dryCap := by
    rw [← hu]; rfl
  refine ⟨⟨?_, fun b => ?_⟩, (State.programChanged_spec s).2.2.2.2.2.1⟩
  · rw [changed]; exact State.BarsFit.same fits (by simp) fun b => by simp
  · rw [changed]; exact (capped b).same (by simp) (State.program_congr (by simp)) (by simp)

/-! ### What else the bars stand through -/

/-- The bars, the valves, the program in force and the settings stand. -/
theorem State.BarsSound.same (h : s.BarsSound) (hs : t.spray = s.spray)
    (hc : ∀ b : Bar, t.output.channels[b.valve].setpoint = s.output.channels[b.valve].setpoint)
    (hi : t.inForce = s.inForce) (hx : t.settings = s.settings) : t.BarsSound :=
  ⟨h.fits.same hs hc, fun b => (h.capped b).same (by rw [hs]) (by simp only [State.program, hi]) hx⟩

theorem State.BarsSound.judgeBars (h : s.BarsSound) : s.judgeBars.BarsKept :=
  ⟨⟨h.fits.judgeBars, fun b => State.judgeBars_capped h.fits (h.capped b)⟩, (State.judgeBars_spec s).2.1.1⟩

theorem State.BarsSound.setMode (h : s.BarsSound) (m : Mode) : (s.setMode m).BarsKept := by
  have posted : ((s.modUnit fun u => { u with mode := m }).writeModeCap.postBoth .modeChanged).BarsSound :=
    h.same (by simp) (fun b => by simp) (by simp [State.inForce]) (by simp)
  exact posted.judgeBars

theorem State.BarsSound.applySwap (h : s.BarsSound) : s.applySwap.BarsSound := by
  unfold State.applySwap
  split
  · exact h
  · next w _ =>
    exact (State.BarsFit.programChanged (s := ((s.modUnit fun u => { u with
      slots := u.slots.set w.target (some w.record), active := some w.target, swap := none }).postBoth
        .programSwapped)) h.fits).toBarsSound

theorem State.inForce_congr (ha : t.unit.active = s.unit.active) (hs : t.unit.slots = s.unit.slots) :
    t.inForce = s.inForce := by simp only [State.inForce, ha, hs]

theorem State.BarsSound.leavingCheck (h : s.BarsSound) : s.leavingCheck.BarsSound := by
  unfold State.leavingCheck
  split
  · split
    · have marked : (s.modUnit fun u => { u with awaited := none, requested := false, reached := false }).BarsSound :=
        h.same rfl (fun _ => rfl) rfl rfl
      exact (marked.setMode .transport).toBarsSound.applySwap
    · split
      · exact h
      · exact h.same (by simp) (fun b => by simp) (by simp [State.inForce]) (by simp)
  · exact h

theorem armOfChannel_valve (b : Bar) : armOfChannel b.valve = none := by cases b <;> rfl

theorem State.BarsSound.arms (h : s.BarsSound) {a : Arm} {f : ArmRec → ArmRec} :
    ((s.modArm a f).postCoils a).BarsSound :=
  h.same (by simp) (fun b => by
    rw [(State.postCoils_spec a (s.modArm a f)).2.1 b.valve (by rw [armOfChannel_valve]; nofun)]; rfl)
    (by simp [State.inForce]) (by simp)

/-- A change of an arm's state ends with the bars judged (R111, R117). -/
theorem State.BarsSound.moveArm (h : s.BarsSound) {a : Arm} {f : ArmRec → ArmRec} : (s.moveArm a f).BarsKept := by
  have posted := h.arms (a := a) (f := f)
  have entered : ((s.modArm a f).postCoils a).judgeArmEntries.BarsSound :=
    posted.same (by simp) (fun b => by simp) (by simp [State.inForce]) (by simp)
  have told : (((s.modArm a f).postCoils a).judgeArmEntries.postBoth .armState).BarsSound :=
    entered.same (by simp) (fun b => by simp) (by simp [State.inForce]) (by simp)
  unfold State.moveArm State.announceArms
  exact told.leavingCheck.judgeBars

theorem State.BarsMay.same (h : s.BarsMay) (hs : t.spray = s.spray) (hm : t.unit.mode = s.unit.mode)
    (hi : t.inForce = s.inForce) (ha : ∀ a, (t.arm a).state = (s.arm a).state) : t.BarsMay := fun b => by
  have arm : (t.arms.get b.arm).state = (s.arms.get b.arm).state := ha b.arm
  unfold State.barMayBeActive
  rw [hs, hm, hi, arm]
  exact h b

theorem State.BarsKept.same (h : s.BarsKept) (hs : t.spray = s.spray)
    (hc : ∀ b : Bar, t.output.channels[b.valve].setpoint = s.output.channels[b.valve].setpoint)
    (hm : t.unit.mode = s.unit.mode) (hi : t.inForce = s.inForce) (ha : ∀ a, (t.arm a).state = (s.arm a).state)
    (hx : t.settings = s.settings) : t.BarsKept :=
  ⟨h.toBarsSound.same hs hc hi hx, h.may.same hs hm hi ha⟩

/-- The bars, the valves, the unit, the arms and the settings stand. -/
theorem State.BarsKept.stands (h : s.BarsKept) (hs : t.spray = s.spray) (ho : t.output = s.output) (hu : t.unit = s.unit)
    (ha : t.arms = s.arms) (hx : t.settings = s.settings) : t.BarsKept :=
  h.same hs (fun b => by rw [ho]) (by rw [hu]) (State.inForce_congr (by rw [hu]) (by rw [hu]))
    (fun a => by simp only [State.arm, ha]) hx

/-- A change of a channel that leaves the setpoint of a valve. -/
theorem State.BarsKept.channel (h : s.BarsKept) {ch : Channel} {f : ChannelRec → ChannelRec}
    (hf : 15 ≤ ch.val → ∀ c : ChannelRec, (f c).setpoint = c.setpoint) : (s.changeChannel ch f).BarsKept := by
  obtain ⟨same, other, -⟩ := State.changeChannel_spec ch f s
  refine h.same rfl (fun b => ?_) rfl rfl (fun _ => rfl) rfl
  by_cases hb : b.valve = ch
  · subst hb; rw [same]; exact hf (Bar.valve_ge b) _
  · rw [other _ hb]

theorem State.BarsKept.setpoint (h : s.BarsKept) {ch : Channel} {v : Nat} (hc : ch.val < 15) : (s.postSetpoint ch v).BarsKept :=
  h.channel fun hv => absurd hv (by omega)

/-- Outside SWEEP no bar is active (R117). -/
theorem State.BarsKept.inactive (h : s.BarsKept) (hm : s.unit.mode ≠ .sweep) (b : Bar) : (s.spray.bar b).active = false := by
  rw [h.may b]
  unfold State.barMayBeActive
  have : (s.unit.mode == Mode.sweep) = false := by simpa using hm
  rw [this]
  simp only [Bool.false_and]

/-! ### Ticks and cycle starts (R122, R125, R127) -/

/-- A bar's share of a distance tick: its owed water grows, and is held to its cap. -/
theorem State.BarsKept.barTick (h : s.BarsKept) (b : Bar) : (s.barTick b).BarsKept := by
  unfold State.barTick
  split
  · next ha =>
    generalize hd : (effectiveDose s.spray.tank s.program b).getD 0 = dose
    have fits : (s.modBar b fun x => { x with owed := x.owed + dose }).BarsFit := fun k => by
      by_cases hk : k = b
      · subst hk
        simp only [State.modBar, State.modSpray_spray, State.modSpray_output, Spray.modBar_same]
        exact ⟨(h.fits k).pulse, (h.fits k).valve, fun hf => absurd ha (by rw [hf]; decide)⟩
      · simp only [State.modBar, State.modSpray_spray, State.modSpray_output, Spray.modBar_other hk]
        exact h.fits k
    refine ⟨⟨fits.holdOwed b, fun k => ?_⟩, fun k => ?_⟩
    · by_cases hk : k = b
      · subst hk; exact State.holdOwed_capped k _
      · refine State.barCapped.holdOwed ((h.capped k).same ?_ rfl rfl)
        simp only [State.modBar, State.modSpray_spray, Spray.modBar_other hk]
    · have active : (((s.modBar b fun x => { x with owed := x.owed + dose }).holdOwed b).spray.bar k).active =
          (s.spray.bar k).active := by
        rw [(State.holdOwed_bar b k _).1]
        by_cases hk : k = b
        · subst hk; simp only [State.modBar, State.modSpray_spray, Spray.modBar_same]
        · simp only [State.modBar, State.modSpray_spray, Spray.modBar_other hk]
      have tank := (State.holdOwed_spec b (s.modBar b fun x => { x with owed := x.owed + dose })).2.2.barMayBeActive k
      rw [active, tank, h.may k]
      unfold State.barMayBeActive State.inForce
      cases b <;> cases k <;> rfl
  · exact h

theorem State.BarsKept.tick (h : s.BarsKept) : s.tick.BarsKept := by
  have sprayed : s.sprayTick.BarsKept := ((h.barTick .left).barTick .right).barTick .main
  unfold State.tick
  exact sprayed.stands (by simp [Arm.all]) (by simp [Arm.all]) (by simp [Arm.all]) (by simp [Arm.all]) (by simp [Arm.all])

theorem State.BarsKept.ticks (n : Nat) : ∀ {s : State}, s.BarsKept → (State.ticks n s).BarsKept := by
  induction n with
  | zero => exact fun h => h
  | succ n ih => exact fun h => ih h.tick

/-- A cycle start changes one bar's record, and opens its valve only for a pulse (R125, R127). -/
theorem State.BarsKept.cycleStart (h : s.BarsKept) (b : Bar) : (s.cycleStart b).BarsKept := by
  have spec := State.cycleStart_spec b s
  have unit : (s.cycleStart b).unit = s.unit := by simp
  have settings : (s.cycleStart b).settings = s.settings := by simp
  by_cases idle : (s.spray.bar b).active = false ∨ (s.spray.bar b).pulseEnd.isSome = true
  · rw [spec.idle idle]; exact h
  · obtain ⟨active, closed⟩ : (s.spray.bar b).active = true ∧ (s.spray.bar b).pulseEnd = none := by
      simpa [not_or] using idle
    have pump := spec.pump
    -- the bar stays active, is owed no more, and fits its valve
    have own : ((s.cycleStart b).spray.bar b).active = true ∧
        ((s.cycleStart b).spray.bar b).owed ≤ (s.spray.bar b).owed ∧
        ((s.cycleStart b).spray.bar b).enable = (s.spray.bar b).enable ∧
        ((s.cycleStart b).spray.bar b).valveFault = (s.spray.bar b).valveFault ∧
        BarFits ((s.cycleStart b).spray.bar b) (s.cycleStart b).output.channels[b.valve].setpoint := by
      by_cases skip : s.askedPulse b < s.settings.spray.mMin
      · obtain ⟨record, state⟩ := spec.skips active closed skip
        have output : (s.cycleStart b).output = s.output := by rw [state]
        rw [record, output]
        exact ⟨active, le_rfl, rfl, rfl, ⟨(h.fits b).pulse, (h.fits b).valve, (h.fits b).idle⟩⟩
      · obtain ⟨record, -⟩ := spec.pulses active closed (Nat.not_lt.1 skip)
        rw [record]
        exact ⟨active, Nat.sub_le _ _, rfl, rfl, ⟨fun _ => active, fun _ => rfl, fun hf => absurd active (by
          rw [hf]; decide)⟩⟩
    obtain ⟨ownActive, ownOwed, ownEnable, ownFault, ownFits⟩ := own
    refine ⟨⟨fun k => ?_, fun k => ?_⟩, fun k => ?_⟩
    · by_cases hk : k = b
      · subst hk; exact ownFits
      · rw [spec.others k hk, spec.channels k.valve fun e => hk (Bar.valve_injective.1 e)]; exact h.fits k
    · by_cases hk : k = b
      · subst hk
        intro _
        rw [State.program_congr unit, settings]
        exact ownOwed.trans (h.capped k active)
      · exact (h.capped k).same (spec.others k hk) (State.program_congr unit) settings
    · have may : (s.cycleStart b).barMayBeActive k = s.barMayBeActive k := by
        have tank : (s.cycleStart b).spray.tank = s.spray.tank ∧ (s.cycleStart b).spray.latch = s.spray.latch := by
          rw [pump]; exact ⟨rfl, rfl⟩
        have arms : (s.cycleStart b).arms = s.arms := by simp
        have bar : ((s.cycleStart b).spray.bar k).enable = (s.spray.bar k).enable ∧
            ((s.cycleStart b).spray.bar k).valveFault = (s.spray.bar k).valveFault := by
          by_cases hk : k = b
          · subst hk; exact ⟨ownEnable, ownFault⟩
          · rw [spec.others k hk]; exact ⟨rfl, rfl⟩
        unfold State.barMayBeActive State.inForce
        rw [tank.1, tank.2, arms, bar.1, bar.2, unit]
      rw [may, ← h.may k]
      by_cases hk : k = b
      · subst hk; rw [ownActive, active]
      · rw [spec.others k hk]

end

end Sys2Proof.Machine
end

section
/-! The spray bars through every command (R117, R119, R121, R122, R126), and the counts (R44, R45, R58, R112, R123, R125, R195,
R197). -/

namespace Sys2Proof.Machine

/-! ### The bars through every command -/

section
variable {s t : State}

theorem State.inForce_store {i : Fin 8} {o : Option Program} (ha : s.unit.active ≠ some i) :
    (s.modUnit fun u => { u with slots := u.slots.set i o }).inForce = s.inForce := by
  unfold State.inForce
  cases hj : s.unit.active with
  | none => simp [hj]
  | some j =>
    have hij : i.val ≠ j.val := fun e => ha (by rw [Fin.ext e]; exact hj)
    simp only [State.modUnit_unit, hj, Option.bind_some]
    exact Vector.getElem_set_ne _ _ hij

/-- Settings open at standstill outside SWEEP, where no bar is active (R117, R182). -/
theorem State.BarsKept.settings (h : s.BarsKept) (ho : s.settingsOpen = true) (f : Settings → Settings) :
    (s.modSettings f).BarsKept := by
  have mode : s.unit.mode ≠ .sweep := fun e => by
    simp [State.settingsOpen, e] at ho
  exact ⟨⟨h.fits.same rfl fun _ => rfl, fun b ha => absurd (h.inactive mode b) (by
    rw [show (s.spray.bar b).active = true from ha]; decide)⟩, h.may⟩

theorem State.BarsKept.settleBars (h : s.BarsKept) {f : Spray → Spray} (hf : ∀ y : Spray, y.sameWater (f y)) :
    (s.modSpray f).judgeBars.BarsKept := by
  have water := hf s.spray
  have sound : (s.modSpray f).BarsSound := by
    refine ⟨fun b => ?_, fun b ha => ?_⟩
    · rw [State.modSpray_spray, water b]
      exact ⟨(h.fits b).pulse, (h.fits b).valve, (h.fits b).idle⟩
    · rw [State.modSpray_spray, water b] at ha ⊢
      exact h.capped b ha
  exact sound.judgeBars

theorem State.BarsKept.pump (h : s.BarsKept) {f : Spray → Spray} (hf : s.spray.sameBars (f s.spray)) :
    (s.modSpray f).BarsKept := by
  obtain ⟨bars, tank, latch⟩ := hf
  refine ⟨⟨fun b => ?_, fun b ha => ?_⟩, fun b => ?_⟩
  · rw [State.modSpray_spray, bars]; exact h.fits b
  · rw [State.modSpray_spray, bars] at ha ⊢; exact h.capped b ha
  · have may := h.may b
    unfold State.barMayBeActive at may ⊢
    rw [State.modSpray_spray, bars, tank, latch]
    exact may

/-- A pulse ends: its valve is off and no pulse is open (R126). -/
theorem State.BarsKept.closeValve (h : s.BarsKept) (b : Bar) :
    ((s.postSetpoint b.valve 0).modBar b fun x => { x with pulseEnd := none }).BarsKept := by
  obtain ⟨off, others, -⟩ := State.postSetpoint_spec b.valve 0 s
  have spray : (s.postSetpoint b.valve 0).spray = s.spray := rfl
  have bars : ∀ k, ((s.spray.modBar b fun x => { x with pulseEnd := none }).bar k) =
      if k = b then { s.spray.bar k with pulseEnd := none } else s.spray.bar k := fun k => by
    by_cases hk : k = b
    · subst hk; rw [Spray.modBar_same, if_pos rfl]
    · rw [Spray.modBar_other hk, if_neg hk]
  refine ⟨⟨fun k => ?_, fun k ha => ?_⟩, fun k => ?_⟩
  · simp only [State.modBar, State.modSpray_spray, State.modSpray_output, spray, bars]
    by_cases hk : k = b
    · subst hk
      rw [off, if_pos rfl]
      exact ⟨fun hp => (nomatch hp), fun hv => absurd hv (by decide), (h.fits k).idle⟩
    · rw [others k.valve fun e => hk (Bar.valve_injective.1 e), if_neg hk]; exact h.fits k
  · simp only [State.modBar, State.modSpray_spray, spray, bars] at ha ⊢
    have capped := h.capped k
    split at ha
    · rw [if_pos ‹_›]; exact capped ha
    · rw [if_neg ‹_›]; exact capped ha
  · have may := h.may k
    cases b <;> cases k <;> exact may

/-- The state after a reset has the laws: no bar is active, and none may be outside SWEEP. -/
theorem State.BarsKept.of_idle (hs : t.spray = {}) (hm : t.unit.mode = .transport)
    (hc : ∀ ch : Channel, t.output.channels[ch].setpoint = 0) : t.BarsKept := by
  refine ⟨⟨fun b => ?_, fun b ha => ?_⟩, fun b => ?_⟩
  · rw [hs, hc]
    cases b <;> exact ⟨fun h => (nomatch h), fun h => absurd h (by decide), fun _ => rfl⟩
  · rw [hs] at ha; cases b <;> cases ha
  · unfold State.barMayBeActive
    rw [hs, hm]
    cases b <;> rfl

theorem State.BarsKept.changeCeiling (h : s.BarsKept) (f : CeilingTable → CeilingTable) : (s.changeCeiling f).BarsKept :=
  h.stands (by simp) (by simp) (by simp) (by simp) (by simp)

theorem State.BarsKept.broomCut (h : s.BarsKept) : s.setBroomCut.seeBroomCut.BarsKept := by
  have latched : (s.modOutput fun o => { o with broomCut := true }).BarsKept :=
    h.same rfl (fun _ => rfl) rfl rfl (fun _ => rfl) rfl
  have cut : s.setBroomCut.BarsKept := latched.channel (ch := 13) (f := ChannelRec.release) fun _ _ => rfl
  exact cut.same rfl (fun b => State.postSetpoint_valve (ch := 13) (v := 0)
    (s := s.setBroomCut.modArms fun x => { x with cutSeen := true }) b (by decide)) rfl rfl
    (fun a => (State.seeBroomCut_sameArms (s := s.setBroomCut) a).1) rfl

theorem State.BarsKept.releaseBroom (h : s.BarsKept) : s.releaseBroom.BarsKept := by
  have freed : (s.modOutput fun o => { o with broomCut := false }).BarsKept :=
    h.same rfl (fun _ => rfl) rfl rfl (fun _ => rfl) rfl
  have cleared : s.releaseBroomCut.BarsKept := freed.channel (ch := 13) (f := id) fun _ _ => rfl
  exact cleared.same rfl (fun _ => rfl) rfl rfl (fun a => (State.releaseBroom_sameArms (s := s) a).1) rfl

theorem State.BarsKept.leaveService (h : s.BarsKept) : s.leaveService.BarsKept := by
  have left := h.toBarsSound.setMode .transport
  unfold State.leaveService
  generalize s.setMode .transport = u at *
  exact State.endDirectWhere_keeps (fun h => h.channel fun _ _ => rfl)
    (State.BarsKept.stands (t := u.postBoth .serviceLeft) left rfl rfl rfl rfl rfl)

theorem State.BarsKept.rephase (h : s.BarsKept) {a : Arm} {f : ArmRec → ArmRec}
  (hf : ∀ r : ArmRec, (f r).state = r.state) : ((s.modArm a f).postCoils a).BarsKept := by
  have posted := h.toBarsSound.arms (a := a) (f := f)
  refine ⟨posted, h.may.same (by simp) (by simp) (by simp [State.inForce]) fun b => ?_⟩
  rw [(State.postCoils_arm a b _).1]; exact State.modArm_state hf b

theorem State.BarsKept.postRotation (h : s.BarsKept) {a : Arm} : (s.postRotation a (s.rotation a)).BarsKept := State.BarsKept.same (s := s.postSetpoint a.motor (s.rotation a))
  (h.setpoint (by cases a <;> decide)) rfl (fun _ => rfl) rfl rfl (fun b => (State.postRotation_sameArms a _ b).1) rfl

theorem State.BarsKept.postForce (h : s.BarsKept) {a : Arm} {v : Nat} : (s.postForce a v).BarsKept := by
  refine h.same (by simp) (fun b => ?_) (by simp) (by simp [State.inForce]) (fun b => (State.postForce_sameArms a v b).1)
    (by simp)
  unfold State.postForce
  split
  · next ch hf => exact State.postSetpoint_valve b (by cases a <;> cases hf <;> decide)
  · rfl

theorem barsKept_keptCore : State.KeptCore State.BarsKept where
  elapse h := h.stands (by simp) (by simp) (by simp) (by simp) (by simp)
  periods h := h.stands rfl rfl rfl rfl rfl
  links h := h.stands rfl rfl rfl rfl rfl
  freeCount h := h.stands rfl rfl rfl rfl rfl
  post h := h.stands rfl rfl rfl rfl rfl
  quiet _ h := h.stands rfl rfl rfl rfl rfl
  raiseAlarm h := h.stands (by simp) (by simp) (by simp) (by simp) (by simp)
  alarmGone h := h.stands (by simp) (by simp) (by simp) (by simp) (by simp)
  bumpBy h := h.stands rfl rfl rfl rfl rfl
  bank _ h := h.stands rfl rfl rfl rfl rfl
  activate _ h := h.changeCeiling _
  deactivate _ h := h.changeCeiling _
  updateCap _ h := h.changeCeiling _
  travel _ h := h.stands rfl rfl rfl rfl rfl
  addDistance {w s} h := State.BarsKept.ticks _ (s := s.modTravel _) (h.stands rfl rfl rfl rfl rfl)
  scan _ h := h.stands rfl rfl rfl rfl rfl
  gov _ h := h.stands rfl rfl rfl rfl rfl
  setpoint hch h := h.setpoint (by
    rcases hch with rfl | rfl | ⟨hch, -⟩
    · decide
    · decide
    · omega)
  trim {ch f s} hf h := h.same rfl (fun b => by
    by_cases hb : b.valve = ch
    · rw [State.modOutput_output, ← hb, Output.modChannel_same]; exact (hf _).1
    · rw [State.modOutput_output, Output.modChannel_other hb]) rfl rfl (fun _ => rfl) rfl
  endDirect h := h.channel fun _ _ => rfl
  faultChannel _ h := h.channel fun _ _ => rfl
  mendChannel _ _ h := h.channel fun _ _ => rfl
  takeDirect _ _ _ _ h := h.channel fun _ _ => rfl
  setDriveCut {s} h := State.BarsKept.channel (ch := 1) (State.BarsKept.channel (ch := 0) (f := ChannelRec.release)
    (s := s.modOutput fun o => { o with driveCut := true }) (h.same rfl (fun _ => rfl) rfl rfl (fun _ => rfl) rfl)
    fun _ _ => rfl) fun _ _ => rfl
  broomCut h := h.broomCut
  releaseBroom h := h.releaseBroom
  unit {f s} hf h := by
    obtain ⟨mode, slots, active, -⟩ := hf s.unit
    exact h.same rfl (fun _ => rfl) mode (State.inForce_congr active slots) (fun _ => rfl) rfl
  setMode _ h := h.toBarsSound.setMode _
  leaveService _ h := h.leaveService
  turn {f _ _ s} _ _ h := State.BarsFit.programChanged (s := s.modUnit f) h.fits
  store ha _ h := h.same rfl (fun _ => rfl) rfl (State.inForce_store ha) (fun _ => rfl) rfl
  pend _ h := h.same rfl (fun _ => rfl) rfl rfl (fun _ => rfl) rfl
  armFlags hf h := h.same rfl (fun _ => rfl) rfl rfl (fun a => congrArg ArmRec.state (State.modArms_arm (fun x => (hf x).1) a)) rfl
  armMarks hf h := h.same rfl (fun _ => rfl) rfl rfl (fun b => State.modArm_state (fun r => (hf r).1) b) rfl
  rephase _ hf h := h.rephase hf
  postRotation h := h.postRotation
  postForce h := h.postForce
  judgeBars h := h.toBarsSound.judgeBars
  settleBars hf h := h.settleBars hf
  pump hf h := h.pump hf
  cycleStart h := h.cycleStart _
  closeValve h := h.closeValve _
  settings ho _ _ h := h.settings ho _
  transportMax {v s} ho h := State.BarsKept.stands (s := s.modSettings fun x => x.put v .transportMax) (h.settings ho _)
    (by simp) (by simp) (by simp) (by simp) (by simp)

theorem State.BarsKept.drivePeriod (h : s.BarsKept) : s.drivePeriod.BarsKept := by
  refine barsKept_keptCore.drivePeriod (fun h => ?_) (fun h => ?_) (fun h => h.stands rfl rfl rfl rfl rfl) (fun {s} h => ?_)
    (fun {s} h => ?_) h
  · exact h.stands (by simp) (by simp) (by simp) (by simp) (by simp)
  · exact h.stands (by simp) (by simp) (by simp) (by simp) (by simp)
  · have both : ∀ {p q : Channel} {v w : Nat}, p.val < 15 → q.val < 15 → ((s.postSetpoint p v).postSetpoint q w).BarsKept :=
      fun hp hq => (h.setpoint hp).setpoint hq
    unfold State.postPump
    repeat' split
    all_goals exact both (by decide) (by decide)
  · unfold State.releaseDrive
    split
    · have freed : (s.modOutput fun o => { o with driveCut := false }).BarsKept :=
        h.same rfl (fun _ => rfl) rfl rfl (fun _ => rfl) rfl
      have both := (freed.channel (ch := 0) (f := id) fun _ _ => rfl).channel (ch := 1) (f := id) fun _ _ => rfl
      exact both.stands rfl rfl rfl rfl rfl
    · exact h

theorem State.BarsKept.step (h : s.BarsKept) (hs : step s = .next t) : t.BarsKept :=
  State.Kept.step { barsKept_keptCore with moveArm := fun _ h => h.toBarsSound.moveArm }
    (fun h => h.stands rfl rfl rfl rfl rfl) (fun _ => {
    lower := fun _ _ _ _ _ h => h.toBarsSound.moveArm
    drive := fun _ _ h => h.drivePeriod
    powerOn := fun x _ s _ => .of_idle rfl rfl fun ch => by
      rw [State.powerOn_channel]; exact (Output.initial_channel ch).2.1
    joint := fun _ s _ => .of_idle rfl rfl fun ch => by rw [State.jointRestart_channel]; rfl }) h hs

end

/-! ### The counts (R44, R45, R58, R112, R123, R125, R195, R197) -/

/-- The remainders of the bars stand (R123, R125). -/
def Spray.sameRems (y z : Spray) : Prop :=
  ∀ b : Bar, (z.bar b).shortfallRem = (y.bar b).shortfallRem ∧ (z.bar b).deliveredRem = (y.bar b).deliveredRem

section
variable {s t : State}

theorem State.CountLaw.spray (h : s.CountLaw) {f : Spray → Spray} (hf : s.spray.sameRems (f s.spray)) :
    (s.modSpray f).CountLaw := by
  obtain ⟨acc, metre, swept, rems, tallies, events, engaged⟩ := h
  refine ⟨acc, metre, swept, fun b => ?_, tallies, events, engaged⟩
  rw [State.modSpray_spray, (hf b).1, (hf b).2]; exact rems b

/-- A change of one bar's record that leaves its remainders below their wholes. -/
theorem State.CountLaw.bar (h : s.CountLaw) {b : Bar} {f : BarRec → BarRec}
    (hf : (f (s.spray.bar b)).shortfallRem < 1000 ∧ (f (s.spray.bar b)).deliveredRem < 1000) : (s.modBar b f).CountLaw := by
  obtain ⟨acc, metre, swept, rems, tallies, events, engaged⟩ := h
  refine ⟨acc, metre, swept, fun k => ?_, tallies, events, engaged⟩
  simp only [State.modBar, State.modSpray_spray]
  by_cases hk : k = b
  · subst hk; rw [Spray.modBar_same]; exact hf
  · rw [Spray.modBar_other hk]; exact rems k

theorem State.CountLaw.rems (h : s.CountLaw) (b : Bar) :
    (s.spray.bar b).shortfallRem < 1000 ∧ (s.spray.bar b).deliveredRem < 1000 := h.2.2.2.1 b

theorem State.CountLaw.bumpBy (h : s.CountLaw) {x : Tally} {n : Nat} : (s.bumpBy x n).CountLaw := by
  obtain ⟨acc, metre, swept, rems, tallies, events, engaged⟩ := h
  refine ⟨acc, metre, swept, rems, fun y => ?_, events, engaged⟩
  by_cases hy : y = x
  · subst hy; rw [(State.bumpBy_tallies y n s).1]; exact Nat.min_le_left _ _
  · rw [(State.bumpBy_tallies x n s).2 y hy]; exact tallies y

theorem State.CountLaw.bank (h : s.CountLaw) {f : TallyBank → TallyBank} (hs : ∀ a, (f s.bank).swept a < 100)
    (ht : ∀ x : Tally, (f s.bank).tallies[x.index] ≤ s.bank.tallies[x.index]) : (s.modBank f).CountLaw := by
  obtain ⟨acc, metre, -, rems, tallies, events, engaged⟩ := h
  exact ⟨acc, metre, hs, rems, fun x => (ht x).trans (tallies x), events, engaged⟩

theorem State.CountLaw.notices (h : s.CountLaw) {f : Notices → Notices}
    (hf : ∀ (l : Link) (k : EventKind), ((f s.notices).events l).counts[k.index] ≤ 15) : (s.modNotices f).CountLaw := by
  obtain ⟨acc, metre, swept, rems, tallies, -, engaged⟩ := h
  exact ⟨acc, metre, swept, rems, tallies, hf, engaged⟩

theorem State.CountLaw.events (h : s.CountLaw) (l : Link) (k : EventKind) : (s.notices.events l).counts[k.index] ≤ 15 :=
  h.2.2.2.2.2.1 l k

theorem State.CountLaw.post (h : s.CountLaw) {k : EventKind} {l : Link} : (s.post k l).CountLaw := by
  refine h.notices fun l' k' => ?_
  have posted := State.post_events k l l' s
  rw [State.post, State.modNotices_notices] at posted
  rw [posted]
  split
  · by_cases hk : k' = k
    · subst hk; rw [(EventSet.post_spec k' _).2.1]; exact Nat.min_le_left _ _
    · rw [((EventSet.post_spec k _).2.2.2 k' hk).2]; exact h.events l k'
  · exact h.events l' k'

theorem State.CountLaw.postBoth (h : s.CountLaw) {k : EventKind} : (s.postBoth k).CountLaw := h.post.post

theorem State.CountLaw.raiseAlarm (h : s.CountLaw) {c : AlarmCode} {d : Nat} : (s.raiseAlarm c d).CountLaw := by
  unfold State.raiseAlarm
  split
  · next list _ =>
    have listed : (s.modNotices fun n => { n with alarms := list }).CountLaw := h.notices fun l k => by
      cases l
      · exact h.events .drive k
      · exact h.events .body k
    exact listed.postBoth
  · exact State.CountLaw.postBoth (s := s.bump .overflows) h.bumpBy

theorem State.CountLaw.alarmGone (h : s.CountLaw) {c : AlarmCode} {d : Nat} : (s.alarmGone c d).CountLaw := by
  unfold State.alarmGone
  split
  · have listed : (s.modNotices fun n => { n with alarms := goneIn c d n.alarms }).CountLaw := h.notices fun l k => by
      cases l
      · exact h.events .drive k
      · exact h.events .body k
    exact listed.postBoth
  · exact h

/-- A change of the table that leaves the engagements: the change of binding counts one more, up to 65535 (R58). -/
theorem State.CountLaw.changeCeiling (h : s.CountLaw) {f : CeilingTable → CeilingTable}
    (hf : ∀ src, ((f s.ceiling).entry src).engagements ≤ 65535) : (s.changeCeiling f).CountLaw := by
  obtain ⟨acc, metre, swept, rems, tallies, events, -⟩ := h
  have changed : (s.modCeiling f).CountLaw := ⟨acc, metre, swept, rems, tallies, events, hf⟩
  unfold State.changeCeiling
  dsimp only
  generalize s.modCeiling f = u at *
  split
  · exact changed
  · have counted : (u.modCeiling fun t => { t.modEntry u.ceiling.reported (fun e =>
        { e with engagements := min 65535 (e.engagements + 1) }) with lastChange := u.now }).CountLaw := by
      obtain ⟨acc, metre, swept, rems, tallies, events, engaged⟩ := changed
      refine ⟨acc, metre, swept, rems, tallies, events, fun src => ?_⟩
      have entry : ((u.modCeiling fun t => { t.modEntry u.ceiling.reported (fun e =>
          { e with engagements := min 65535 (e.engagements + 1) }) with lastChange := u.now }).ceiling.entry src) =
          (u.ceiling.modEntry u.ceiling.reported fun e =>
            { e with engagements := min 65535 (e.engagements + 1) }).entry src := rfl
      rw [entry]
      by_cases hs : src = u.ceiling.reported
      · subst hs; rw [CeilingTable.modEntry_same]; exact Nat.min_le_left _ _
      · rw [CeilingTable.modEntry_other hs]; exact engaged src
    split
    · exact State.CountLaw.bumpBy counted.postBoth
    · exact counted.postBoth

/-- A post to one entry that leaves its engagements. -/
theorem State.CountLaw.entry (h : s.CountLaw) {src : Source} {f : CeilingEntry → CeilingEntry}
    (hf : ∀ e, (f e).engagements = e.engagements) : (s.changeCeiling (CeilingTable.modEntry src f)).CountLaw := by
  refine h.changeCeiling fun a => ?_
  by_cases ha : a = src
  · subst ha; rw [CeilingTable.modEntry_same, hf]; exact h.2.2.2.2.2.2 a
  · rw [CeilingTable.modEntry_other ha]; exact h.2.2.2.2.2.2 a

theorem State.CountLaw.activate (h : s.CountLaw) {src : Source} {cap : Nat} : (s.activate src cap).CountLaw :=
  h.entry fun _ => by split <;> rfl

theorem State.CountLaw.deactivate (h : s.CountLaw) {src : Source} : (s.deactivate src).CountLaw := h.entry fun _ => rfl

theorem State.CountLaw.updateCap (h : s.CountLaw) {src : Source} {cap : Nat} : (s.updateCap src cap).CountLaw :=
  h.entry fun _ => rfl

theorem State.CountLaw.keepEntry (h : s.CountLaw) {src : Source} {holds : Bool} {cap : Nat} :
    (s.keepEntry src holds cap).CountLaw := by
  unfold State.keepEntry
  split
  · exact h.activate
  · split
    · exact h.deactivate
    · exact h

theorem State.CountLaw.judgeBar (h : s.CountLaw) {b : Bar} : (s.judgeBar b).CountLaw := by
  unfold State.judgeBar
  dsimp only
  split
  · unfold State.deactivateBar
    split
    · exact State.CountLaw.bar (s := s.postSetpoint b.valve 0) h (h.rems b)
    · exact h.bar (h.rems b)
  · split
    · exact h.bar (h.rems b)
    · exact h

theorem State.CountLaw.judgeBars (h : s.CountLaw) : s.judgeBars.CountLaw := by
  have all : (Bar.all.foldl State.judgeBar s).CountLaw := h.judgeBar.judgeBar.judgeBar
  unfold State.judgeBars
  dsimp only
  generalize Bar.all.foldl State.judgeBar s = u at *
  have pump : ∀ duty v, ((u.modSpray fun y => { y with duty := duty, dryCount := 0 }).postSetpoint 14 v).CountLaw :=
    fun duty _ => all.spray (f := fun y => { y with duty := duty, dryCount := 0 }) fun b => by cases b <;> exact ⟨rfl, rfl⟩
  have pumped : (u.judgePump s.spray.anyActive).CountLaw := by
    unfold State.judgePump
    dsimp only
    split
    · exact pump _ _
    · split
      · exact pump _ _
      · exact all
  generalize u.judgePump s.spray.anyActive = v at *
  have limited : v.judgeSprayLimit.CountLaw := by
    unfold State.judgeSprayLimit
    dsimp only
    split
    · split
      · exact pumped.activate
      · split
        · exact pumped.updateCap
        · exact pumped
    · split
      · exact pumped.deactivate
      · exact pumped
  exact limited.keepEntry

/-- Shortfall counted whole by whole leaves a remainder below one (R123). -/
theorem State.CountLaw.holdOwed (h : s.CountLaw) {b : Bar} : (s.holdOwed b).CountLaw := by
  unfold State.holdOwed
  dsimp only
  split
  · have short : ∀ q, (s.addShortfall b q).CountLaw := fun q =>
      State.CountLaw.bumpBy (h.bar ⟨Nat.mod_lt _ (by decide), (h.rems b).2⟩)
    exact (short _).bar ((short _).rems b)
  · exact h

theorem State.CountLaw.programChanged (h : s.CountLaw) : s.programChanged.CountLaw := by
  have judged : (s.writeModeCap.updateCap .reverseArms s.writeModeCap.reverseCap).judgeBars.CountLaw :=
    (State.CountLaw.updateCap (s := s.writeModeCap) h.updateCap).judgeBars
  unfold State.programChanged State.sprayProgramChange
  dsimp only
  generalize (s.writeModeCap.updateCap .reverseArms s.writeModeCap.reverseCap).judgeBars = u at *
  have held : (Bar.all.foldl State.holdOwed u).CountLaw := judged.holdOwed.holdOwed.holdOwed
  exact held.updateCap

theorem State.CountLaw.setMode (h : s.CountLaw) {m : Mode} : (s.setMode m).CountLaw := by
  have capped : (s.modUnit fun u => { u with mode := m }).writeModeCap.CountLaw :=
    State.CountLaw.updateCap (s := s.modUnit fun u => { u with mode := m }) h
  exact capped.postBoth.judgeBars

theorem State.CountLaw.cycleStart (h : s.CountLaw) {b : Bar} : (s.cycleStart b).CountLaw := by
  unfold State.cycleStart
  dsimp only
  split
  · exact h
  · split
    · exact h.bar (h.rems b)
    · have given : ∀ (m owed : Nat) (p : Option Time) (sat : Bool) (rem : Nat), ((s.modBar b fun x =>
          { x with owed := owed, pulseEnd := p, lastPulse := m, saturated := sat, deliveredRem := rem % 1000 }).postSetpoint
            b.valve 1).CountLaw := fun _ _ _ _ _ => h.bar ⟨(h.rems b).1, Nat.mod_lt _ (by decide)⟩
      split
      · exact State.CountLaw.postBoth (State.CountLaw.bumpBy (h.bar ⟨(h.rems b).1, Nat.mod_lt _ (by decide)⟩))
      · exact State.CountLaw.bumpBy (h.bar ⟨(h.rems b).1, Nat.mod_lt _ (by decide)⟩)

/-- An edge's distance leaves less than a tick, and its ticks count as theirs (R44, R45, R112). -/
theorem State.CountLaw.addDistance (h : s.CountLaw) {w : Wheel} : (s.addDistance w).CountLaw := by
  obtain ⟨-, metre, swept, rems, tallies, events, engaged⟩ := h
  have rest : ∀ n, (s.modTravel fun t => { t with accumulator := n % 200 }).CountLaw := fun n =>
    ⟨Nat.mod_lt n (by decide), metre, swept, rems, tallies, events, engaged⟩
  unfold State.addDistance
  exact (State.ticks_spec _ _ _ (rest _) rfl).2.1

theorem State.CountLaw.elapse (h : s.CountLaw) {us : Nat} : (s.elapse us).CountLaw := by
  have same : ∀ (b : TallyBank) (n : Nat), (∀ a, (if s.unit.mode = .sweep then { b with sweepRem := n } else b).swept a =
      b.swept a) ∧ (if s.unit.mode = .sweep then { b with sweepRem := n } else b).tallies = b.tallies := fun b n => by
    split
    · exact ⟨fun a => by cases a <;> rfl, rfl⟩
    · exact ⟨fun _ => rfl, rfl⟩
  unfold State.elapse
  refine State.CountLaw.bank (s := s.modClock (Clock.elapse us)) h (fun a => ?_) fun x => ?_
  · exact ((same _ _).1 a).trans_lt (h.2.2.1 a)
  · simp only [(same _ _).2]; exact le_rfl

theorem State.CountLaw.broomCut (h : s.CountLaw) : s.setBroomCut.seeBroomCut.CountLaw := by
  unfold State.seeBroomCut
  generalize hu : s.setBroomCut = u
  have cut : u.CountLaw := by
    subst hu
    exact h
  exact cut

theorem countLaw_keptCore : State.KeptCore State.CountLaw where
  elapse h := h.elapse
  periods h := h
  links h := h
  freeCount h := h
  post h := h.post
  quiet hf h := h.notices fun l k => ((hf _).2 l k).trans (h.events l k)
  raiseAlarm h := h.raiseAlarm
  alarmGone h := h.alarmGone
  bumpBy h := h.bumpBy
  bank hf h := h.bank (fun a => by rw [(hf _).1]; exact h.2.2.1 a) (hf _).2
  activate _ h := h.activate
  deactivate _ h := h.deactivate
  updateCap _ h := h.updateCap
  travel {f s} hf h := by
    obtain ⟨acc, metre, rest⟩ := h
    exact ⟨by rw [State.modTravel_travel, (hf _).1]; exact acc, by rw [State.modTravel_travel, (hf _).2]; exact metre, rest⟩
  addDistance h := h.addDistance
  scan _ h := h
  gov _ h := h
  setpoint _ h := h
  trim _ h := h
  endDirect h := h
  faultChannel _ h := h
  mendChannel _ _ h := h
  takeDirect _ _ _ _ h := h
  setDriveCut h := h
  broomCut h := h.broomCut
  releaseBroom h := h
  unit _ h := h
  setMode _ h := h.setMode
  leaveService {s} _ h := by
    have left := State.CountLaw.postBoth (k := .serviceLeft) (h.setMode (m := .transport))
    unfold State.leaveService
    generalize (s.setMode .transport).postBoth .serviceLeft = u at *
    exact State.endDirectWhere_keeps (fun h => h) left
  turn {f _ _ s} _ _ h := State.CountLaw.programChanged (s := s.modUnit f) h
  store _ _ h := h
  pend _ h := h
  armFlags _ h := h
  armMarks _ h := h
  rephase {a f s} _ _ h := by rw [(State.postCoils_spec a (s.modArm a f)).2.2.2.2.2.2]; exact h
  postRotation h := h
  postForce {a v s} h := by
    unfold State.postForce
    split <;> exact h
  judgeBars h := h.judgeBars
  settleBars hf h := State.CountLaw.judgeBars (h.spray fun b => by rw [hf]; exact ⟨rfl, rfl⟩)
  pump hf h := h.spray fun b => by rw [hf.1]; exact ⟨rfl, rfl⟩
  cycleStart h := h.cycleStart
  closeValve {b s} h := State.CountLaw.bar (s := s.postSetpoint b.valve 0) h (h.rems b)
  settings _ _ _ h := h
  transportMax {v s} _ h := State.CountLaw.updateCap (s := s.modSettings fun x => x.put v .transportMax) h

theorem State.CountLaw.drivePeriod (h : s.CountLaw) : s.drivePeriod.CountLaw := by
  refine countLaw_keptCore.drivePeriod (fun {s} h => ?_) (fun {r s} h => ?_) (fun h => h) (fun {s} h => ?_) (fun {s} h => ?_) h
  · have turned : ∀ {d : DriveDir} {u : State}, u.CountLaw → ((u.reportHeld d).restart3 d).CountLaw := fun {d u} hu => by
      have reported : (u.reportHeld d).CountLaw := by
        cases d
        · exact hu
        · exact hu.changeCeiling (f := fun c => { c with reportDir := .forward }) hu.2.2.2.2.2.2
        · exact hu.changeCeiling (f := fun c => { c with reportDir := .reverse }) hu.2.2.2.2.2.2
      generalize u.reportHeld d = v at *
      unfold State.restart3
      dsimp only
      split
      · exact reported
      · split
        · exact State.KeptCore.governorClear countLaw_keptCore (s := v.modScan _) reported
        · exact reported
    unfold State.takeDirection
    split
    · exact turned (u := s.modGov fun g => { g with held := s.gov.demandDir }) h
    · exact h
  · unfold State.keepRead
    split <;> exact h
  · unfold State.postPump
    repeat' split
    all_goals exact h
  · unfold State.releaseDrive
    split <;> exact h

/-- A state as the resets leave its counts. -/
theorem State.CountLaw.of_reset (ht : t.travel.accumulator = 0 ∧ t.travel.metreRem = 0) (hb : ∀ a, t.bank.swept a = 0)
    (hx : ∀ x : Tally, t.bank.tallies[x.index] ≤ x.limit) (hs : t.spray = {})
    (hn : ∀ l, (t.notices.events l).counts = Vector.replicate 16 0)
    (hc : ∀ src, (t.ceiling.entry src).engagements = 0) : t.CountLaw := by
  refine ⟨by omega, by omega, fun a => by rw [hb]; decide, fun b => ?_, hx, fun l k => ?_, fun src => by rw [hc]; decide⟩
  · rw [hs]; cases b <;> decide
  · rw [hn]; simp

theorem State.CountLaw.step (h : s.CountLaw) (hs : step s = .next t) : t.CountLaw :=
  (countLaw_keptCore.kept fun {a f s} _ h => by
    rw [(State.postCoils_spec a (s.modArm a f)).2.2.2.2.2.2]; exact h).step (fun h => h) (fun _ => {
    lower := fun _ {a s} _ _ h => countLaw_keptCore.moved (by
      rw [(State.postCoils_spec a (s.modArm a _)).2.2.2.2.2.2]; exact h)
    drive := fun _ _ h => h.drivePeriod
    powerOn := fun x _ s _ => .of_reset ⟨rfl, rfl⟩ (fun a => by cases a <;> rfl) (fun x => by
      show (Vector.replicate _ 0)[x.index] ≤ x.limit
      simp) rfl (fun l => by cases l <;> rfl) fun src => by cases src <;> rfl
    joint := fun _ s h => .of_reset ⟨rfl, rfl⟩ (fun a => by cases a <;> rfl) h.2.2.2.2.1 rfl (fun l => by cases l <;> rfl)
      fun src => by cases src <;> rfl }) h hs

/-- Settles O59: the bars are judged with every change of their conditions and their water is held at each tick and each program
(R117, R122, R128); every count is bounded where it is made (R58, R123, R125, R195, R197). -/
theorem barsLawKept : Obligations.BarsLawKept := fun _ _ hs =>
  ⟨fun bars owed => State.barsKept_iff.1 (State.BarsKept.step (State.barsKept_iff.2 ⟨bars, owed⟩) hs), fun h => h.step hs⟩

end

end Sys2Proof.Machine
end

section
/-! The queue, the frames of the links and the CRC (R174 to R176, R178, R179). -/

namespace Sys2Proof.Machine

/-- Settles O1: `step` is defined so. -/
theorem stepTakesFront : Obligations.StepTakesFront := fun s =>
  ⟨fun c rest h => by unfold step; rw [h]; rfl, fun h => by unfold step; rw [h]⟩

/-! ### The CRC-8 (R176) -/

/-- The shift that a shift of the CRC register can be undone by: the bit combined in tells which one was made. -/
def crcUnshift (r : Byte) : Byte := if r.getLsbD 0 then ((r ^^^ 0x07) >>> 1) ||| 0x80 else r >>> 1

theorem crcUnshift_crcShift (r : Byte) : crcUnshift (crcShift r) = r := by revert r; decide

theorem crcShift_injective : Function.Injective crcShift := Function.LeftInverse.injective crcUnshift_crcShift

theorem crcByte_eq (r b : Byte) : crcByte r b = crcShift^[8] (r ^^^ b) := rfl

/-- The register tells the byte combined in from another, and a register from another before the same byte. -/
theorem crcByte_inj {r r' b b' : Byte} (h : crcByte r b = crcByte r' b') : r ^^^ b = r' ^^^ b' := by
  rw [crcByte_eq, crcByte_eq] at h
  exact crcShift_injective.iterate 8 h

theorem crcByte_right_injective (r : Byte) : Function.Injective (crcByte r) := fun _ _ h =>
  BitVec.xor_right_inj r |>.1 (crcByte_inj h)

theorem crcByte_left_injective (b : Byte) : Function.Injective fun r => crcByte r b := fun _ _ h =>
  BitVec.xor_left_inj b |>.1 (crcByte_inj h)

theorem crcFold_injective (bytes : List Byte) : Function.Injective fun r => bytes.foldl crcByte r := by
  induction bytes with
  | nil => exact fun _ _ h => h
  | cons b rest ih => exact fun _ _ h => crcByte_left_injective b (ih h)

/-- Settles O4: each byte combined in, and each one after it, is told apart by the register (R176). -/
theorem oneByteErrorsCaught : Obligations.OneByteErrorsCaught := fun before after b c hne h => by
  simp only [crc8, List.foldl_append, List.foldl_cons] at h
  exact hne (crcByte_right_injective _ (crcFold_injective after h))

/-! ### Frames read (R175, R176) -/

theorem readFrame_short {after : Nat} {l : Link} {bytes : List Byte} (h : bytes.length < 16) :
    readFrame after l bytes = .shortFrame after l := if_pos h

/-- A complete frame with bytes after its sixteenth: the CRC is judged on the first sixteen. -/
theorem readFrame_complete (after : Nat) (l : Link) (b : Vector Byte 16) (extra : List Byte) :
    readFrame after l (b.toList ++ extra) =
      if crc8 (b.toList.take 15) ≠ b[15] then .crcFailure after l b[0] b[1]
      else requestOf ⟨l, b[1], b[14], after⟩ b[0]
        #v[b[2], b[3], b[4], b[5], b[6], b[7], b[8], b[9], b[10], b[11], b[12], b[13]] := by
  have long : ¬(b.toList ++ extra).length < 16 := by simp
  have get : ∀ i, (hi : i < 16) → (b.toList ++ extra).getD i 0 = b[i] := fun i hi => by
    rw [List.getD_append _ _ _ _ (by simpa using hi), List.getD_eq_getElem _ _ (by simpa using hi)]
    simp
  have take : (b.toList ++ extra).take 15 = b.toList.take 15 := List.take_append_of_le_length (by simp)
  unfold readFrame
  rw [if_neg long]
  simp only [take]
  rw [get 0 (by decide), get 1 (by decide), get 2 (by decide), get 3 (by decide), get 4 (by decide), get 5 (by decide),
    get 6 (by decide), get 7 (by decide), get 8 (by decide), get 9 (by decide), get 10 (by decide), get 11 (by decide),
    get 12 (by decide), get 13 (by decide), get 14 (by decide), get 15 (by decide)]

/-- Settles O3: the two tests of R175 and R176. -/
theorem badFramesTold : Obligations.BadFramesTold := fun after l bytes =>
  ⟨readFrame_short, fun b extra h => by rw [readFrame_complete, if_pos h]⟩

/-! ### Frames sent and read back (R174, R178, R179) -/

/-- Twelve parameter bytes: those given, and 0 after them (R178). -/
def paddedParams (params : List Byte) : Vector Byte 12 :=
  let b := fun i => params.getD i 0
  #v[b 0, b 1, b 2, b 3, b 4, b 5, b 6, b 7, b 8, b 9, b 10, b 11]

theorem paddedParams_getElem (params : List Byte) {i : Nat} (hi : i < 12) : (paddedParams params)[i] = params.getD i 0 := by
  interval_cases i <;> rfl

theorem padded_toList {params : List Byte} (h : params.length ≤ 12) :
    params ++ List.replicate (12 - params.length) 0 = (paddedParams params).toList := by
  refine List.ext_getElem (by simp; omega) fun i h1 h2 => ?_
  have hi : i < 12 := by simpa using h2
  rw [Vector.getElem_toList, paddedParams_getElem params hi]
  by_cases hp : i < params.length
  · rw [List.getElem_append_left hp, List.getD_eq_getElem _ _ hp]
  · rw [List.getElem_append_right (by omega), List.getElem_replicate, List.getD_eq_default _ _ (by omega)]

/-- A frame as it is sent reads as the request that its kind and its padded parameters spell. -/
theorem readFrame_sent (h : Head) (kind : Nat) {params : List Byte} (hp : params.length ≤ 12) (extra : List Byte) :
    (frameBody h kind params ++ [crc8 (frameBody h kind params)]).length = 16 ∧
    readFrame h.after h.link ((frameBody h kind params ++ [crc8 (frameBody h kind params)]) ++ extra) =
      requestOf h (BitVec.ofNat 8 kind) (paddedParams params) := by
  have body : frameBody h kind params = [BitVec.ofNat 8 kind, h.tag] ++ (paddedParams params).toList ++ [h.live] := by
    unfold frameBody; rw [padded_toList hp]
  generalize hc : crc8 (frameBody h kind params) = c
  rw [body] at hc ⊢
  generalize paddedParams params = p at *
  obtain ⟨⟨list⟩, hl⟩ := p
  match list, hl with
  | [p0, p1, p2, p3, p4, p5, p6, p7, p8, p9, p10, p11], hl =>
    let b : Vector Byte 16 := #v[BitVec.ofNat 8 kind, h.tag, p0, p1, p2, p3, p4, p5, p6, p7, p8, p9, p10, p11, h.live, c]
    refine ⟨rfl, ?_⟩
    have good : ¬crc8 (b.toList.take 15) ≠ b[15] := not_not.2 hc
    have read := readFrame_complete h.after h.link b extra
    rw [if_neg good] at read
    exact read

theorem word_bytes (v : Half) : word (lowByte v) (highByte v) = v := by
  unfold word lowByte highByte
  ext i hi
  simp only [BitVec.getElem_append, BitVec.getElem_setWidth, BitVec.getLsbD_ushiftRight]
  split
  · rfl
  · simp only [show 8 + (i - 8) = i by omega]; rfl

/-- A value written in its field's width reads back (R178). -/
theorem readFieldValue_fieldLabel {field : Byte} {v : FieldValue} (h : v.fits field = true) :
    readFieldValue field (fieldLabel v) = v := by
  unfold readFieldValue
  cases v with
  | label cs => exact if_pos h
  | point sp rot =>
    have h1 : ¬(field.toNat == 1) = true := fun e => by
      simp only [FieldValue.fits, beq_iff_eq, Bool.or_eq_true] at h e; omega
    rw [if_neg h1]
    refine (if_pos h).trans ?_
    show FieldValue.point (word (lowByte sp) (highByte sp)) (word (lowByte rot) (highByte rot)) = _
    rw [word_bytes, word_bytes]
  | word v =>
    simp only [FieldValue.fits, Bool.not_eq_true', Bool.or_eq_false_iff] at h
    rw [if_neg (by rw [h.1.1]; decide), if_neg (by rw [h.1.2, h.2]; decide)]
    show FieldValue.word (word (lowByte v) (highByte v)) = _
    rw [word_bytes]

theorem requestOf_unknown (h : Head) (n : Fin 219) (p : Vector Byte 12) :
    requestOf h (BitVec.ofNat 8 (37 + n.val)) p = .unknownRequestKind h (.kind n) := by
  have hn : (BitVec.ofNat 8 (37 + n.val)).toNat = 37 + n.val := by
    rw [BitVec.toNat_ofNat]; omega
  unfold requestOf
  rw [hn]
  split
  all_goals first
    | omega
    | (have : Fin.ofNat 219 (37 + n.val - 37) = n := Fin.ext (by simp)
       rw [this])

theorem requestOf_unknown_selector (h : Head) (n : Fin 248) :
    requestOf h (BitVec.ofNat 8 1) (paddedParams (byte1 (8 + n.val))) = .unknownRequestKind h (.selector n) := by
  have hn : (BitVec.ofNat 8 (8 + n.val)).toNat = 8 + n.val := by
    rw [BitVec.toNat_ofNat]; omega
  show readStatusOf h (BitVec.ofNat 8 (8 + n.val)) _ = _
  unfold readStatusOf
  rw [hn]
  split
  all_goals first
    | omega
    | (have : Fin.ofNat 248 (8 + n.val - 8) = n := Fin.ext (by simp)
       rw [this])

theorem requestOf_writeField (h : Head) {field place : Byte} {v : FieldValue} (hv : v.fits field = true) :
    requestOf h (BitVec.ofNat 8 13) (paddedParams (field :: place :: (fieldLabel v).toList)) =
      .writeField h field place v := by
  have read := readFieldValue_fieldLabel hv
  generalize fieldLabel v = bytes at *
  obtain ⟨⟨list⟩, hl⟩ := bytes
  match list, hl with
  | [v0, v1, v2, v3, v4, v5, v6, v7], hl =>
    show Instr.writeField h field place (readFieldValue field #v[v0, v1, v2, v3, v4, v5, v6, v7]) = _
    exact congrArg _ read

/-- The parameters of a request and the request that they spell (R179). -/
theorem requestParts_spec {i : Instr} {h : Head} {kind : Nat} {params : List Byte} (hw : i.wellFormed = true)
    (hi : requestParts i = some (h, kind, params)) :
    params.length ≤ 12 ∧ requestOf h (BitVec.ofNat 8 kind) (paddedParams params) = i := by
  cases i with
  | unknownRequestKind head what =>
    cases what with
    | kind n => cases hi; exact ⟨Nat.zero_le _, requestOf_unknown _ n _⟩
    | selector n => cases hi; exact ⟨by simp [byte1], requestOf_unknown_selector _ n⟩
  | writeField head field place v => cases hi; exact ⟨by simp, requestOf_writeField _ hw⟩
  | writeSetting head g k j v => cases hi; exact ⟨by simp, congrArg (Instr.writeSetting _ g k j) (word_bytes v)⟩
  | driveDemand head d v => cases hi; exact ⟨by simp, congrArg (Instr.driveDemand _ d) (word_bytes v)⟩
  | directDrive head ch v => cases hi; exact ⟨by simp, congrArg (Instr.directDrive _ ch) (word_bytes v)⟩
  | ackEvents head v => cases hi; exact ⟨by simp, congrArg (Instr.ackEvents _) (word_bytes v)⟩
  | setEventMask head v => cases hi; exact ⟨by simp, congrArg (Instr.setEventMask _) (word_bytes v)⟩
  | _ => cases hi <;> exact ⟨by simp, rfl⟩

/-- Settles O2: a frame is read by its sixteen bytes, whose parameters spell the request (R174, R178, R179). -/
theorem requestFramesReadBack : Obligations.RequestFramesReadBack := fun i h kind params bytes extra hw hi hf => by
  obtain ⟨length, spelled⟩ := requestParts_spec hw hi
  have sent := readFrame_sent h kind length extra
  rw [spelled] at sent
  unfold frameOf at hf
  rw [hi] at hf
  cases hf
  exact sent

end Sys2Proof.Machine
end

section
/-! The ports: the answer frame, bad frames, the gate, and the requests and timers of supervision (R174 to R177, R180, R183 to
R188). -/

namespace Sys2Proof.Machine

/-! ### The answer frame (R174, R175) -/

/-- Bytes 0 to 14 of an answer frame. -/
def State.answerBody (s : State) (l : Link) : List Byte := (s.link l).answer.bytes ++ [s.summary l]

theorem State.answerBody_length (s : State) (l : Link) : (s.answerBody l).length = 15 := by
  simp [State.answerBody, Answer.bytes]

theorem State.answerFrame_toList (s : State) (l : Link) :
    (s.answerFrame l).toList = s.answerBody l ++ [crc8 (s.answerBody l)] := by
  have length : (s.answerBody l ++ [crc8 (s.answerBody l)]).length = 16 := by simp [State.answerBody_length]
  refine List.ext_getElem (by simp [length]) fun i h1 h2 => ?_
  simp only [State.answerFrame, Vector.getElem_toList, Vector.getElem_ofFn]
  exact List.getD_eq_getElem _ _ h2

theorem State.answerFrame_getElem (s : State) (l : Link) {i : Nat} (hi : i < 16) :
    (s.answerFrame l)[i] = (s.answerBody l ++ [crc8 (s.answerBody l)])[i]'(by simp [State.answerBody_length]; omega) := by
  rw [← Vector.getElem_toList (by simpa using hi)]
  simp only [State.answerFrame_toList]

/-- The bits of the summary flags (R174). -/
theorem summaryBits (a b c d : Bool) (x : LinkState) :
    let f : Byte := BitVec.ofNat 8 (flagBit a 0 + flagBit b 1 + flagBit c 2 + flagBit d 3 + 16 * x.number)
    f.getLsbD 0 = a ∧ f.getLsbD 1 = b ∧ f.getLsbD 2 = c ∧ f.getLsbD 3 = d ∧ (f >>> 4).toNat = x.number := by
  cases a <;> cases b <;> cases c <;> cases d <;> cases x <;> decide

theorem EventSet.attention_iff (e : EventSet) :
    e.attention = true ↔ ∃ k : Fin 16, e.pending.getLsbD k = true ∧ e.mask.getLsbD k = true := by
  unfold EventSet.attention
  rw [bne_iff_ne]
  constructor
  · intro h
    by_contra hn
    refine h (BitVec.eq_of_getLsbD_eq fun i hi => ?_)
    have off : ¬(e.pending.getLsbD i = true ∧ e.mask.getLsbD i = true) := fun hb => hn ⟨⟨i, hi⟩, hb⟩
    have zero : (0 : BitVec 16).getLsbD i = false := BitVec.getLsbD_zero
    rw [BitVec.getLsbD_and, zero, ← Bool.not_eq_true, Bool.and_eq_true]
    exact off
  · rintro ⟨k, hp, hm⟩ h
    have off := congrArg (fun v => v.getLsbD k.val) h
    rw [BitVec.getLsbD_and, hp, hm] at off
    simp at off

/-- Settles O5: the frame is the body and its CRC, byte by byte; its last body byte are the summary flags (R174 to R176). -/
theorem answerFrameFormed : Obligations.AnswerFrameFormed := fun after l s => by
  refine ⟨(s.elapse after).assertSelect l, rfl, ?_, ?_, by simp [State.assertSelect, State.modLink]; cases l <;> rfl, ?_⟩
  · have link : (s.elapse after).link l = s.link l := by simp [State.link]
    have frame : (((s.elapse after).assertSelect l).link l) =
        { s.link l with selected := true, discard := false, outFrame := (s.elapse after).answerFrame l } := by
      rw [State.assertSelect, State.modLink_same, link]
    have body : (s.elapse after).answerBody l = (s.link l).answer.bytes ++ [(s.elapse after).summary l] := by
      rw [State.answerBody, link]
    have summary := summaryBits ((s.elapse after).attentionLow l) (s.elapse after).alarmPresent
      ((s.elapse after).unit.staging.any fun g => g.holder == l) (s.elapse after).links.window.isSome
      ((s.elapse after).link l).state
    have list := State.answerFrame_toList (s.elapse after) l
    have get := fun i hi => State.answerFrame_getElem (s.elapse after) l (i := i) hi
    have flags : ((s.elapse after).answerFrame l)[14] = (s.elapse after).summary l := by
      rw [get 14 (by decide)]; simp only [body]
      rw [List.getElem_append_left (by simp [Answer.bytes]), List.getElem_append_right (by simp [Answer.bytes])]
      simp
    dsimp only
    rw [frame]
    obtain ⟨b0, b1, b2, b3, b4⟩ := summary
    rw [link] at b4
    refine ⟨by rw [get 0 (by decide)]; simp only [body]; rfl, by rw [get 1 (by decide)]; simp only [body]; rfl,
      by rw [get 2 (by decide)]; simp only [body]; rfl, ?_, ?_, ?_, ?_, ?_, ?_, ?_, rfl⟩
    · rw [list, body]
      have data : (s.link l).answer.data.toList.length = 11 := by simp
      simp [Answer.bytes, data]
    · rw [list, get 15 (by decide), List.take_left' (State.answerBody_length _ _),
        List.getElem_append_right (by simp [State.answerBody_length])]
      simp
    · rw [flags]
      refine (Eq.congr_left b0).trans ?_
      rw [State.attentionLow, EventSet.attention_iff]; simp
    · rw [flags]
      refine (Eq.congr_left b1).trans ?_
      simp [State.alarmPresent]
    · rw [flags]
      refine (Eq.congr_left b2).trans ?_
      simp [Option.any_eq_true]
    · rw [flags]
      refine (Eq.congr_left b3).trans ?_
      simp
    · rw [flags]
      refine b4.trans ?_
      cases (s.link l).state <;> rfl
  · rw [State.assertSelect, State.modLink_other (by cases l <;> decide)]; simp [State.link]
  · simp [State.assertSelect, State.modLink, State.modLinks]

/-! ### Bad frames (R175, R176) -/

/-- A change of one link's record leaves the other link and everything beyond the links. -/
theorem State.modLink_spec (l : Link) (f : LinkRec → LinkRec) (s : State) :
    (s.modLink l f).link l = f (s.link l) ∧ (s.modLink l f).link l.other = s.link l.other ∧
    (s.modLink l f).links.window = s.links.window ∧ s.modLink l f = { s with links := (s.modLink l f).links } :=
  ⟨State.modLink_same l f s, State.modLink_other (by cases l <;> decide) f s, by cases l <;> rfl, rfl⟩

@[simp] theorem State.elapse_link (us : Nat) (s : State) (l : Link) : (s.elapse us).link l = s.link l := by
  simp [State.link]

theorem State.badFrame_counted {l : Link} {f : LinkRec → LinkRec} {s : State} (h : (s.link l).discard = false) :
    s.badFrame l f = (s.modLink l fun x => { f x with selected := false }).bump (.badFrames l) := by
  simp [State.badFrame, h]

theorem State.badFrame_discarded {l : Link} {f : LinkRec → LinkRec} {s : State} (h : (s.link l).discard = true) :
    s.badFrame l f = s.modLink l fun x => { x with selected := false, discard := false } := by
  simp [State.badFrame, h]

/-- What a bad frame does: counted in its link's record, unless it is marked (R175, R176, R188). -/
theorem State.badFrame_spec (l : Link) (f : LinkRec → LinkRec) (s : State) :
    (s.badFrame l f).link l.other = s.link l.other ∧
    ((s.link l).discard = false → (s.badFrame l f).link l = { f (s.link l) with selected := false } ∧
      s.badFrame l f = { s.bump (.badFrames l) with links := (s.badFrame l f).links }) ∧
    ((s.link l).discard = true → (s.badFrame l f).link l = { s.link l with selected := false, discard := false } ∧
      s.badFrame l f = { s with links := (s.badFrame l f).links }) := by
  cases hd : (s.link l).discard with
  | false =>
    rw [State.badFrame_counted hd]
    obtain ⟨own, other, -, -⟩ := State.modLink_spec l (fun x => { f x with selected := false }) s
    exact ⟨other, fun _ => ⟨own, rfl⟩, fun h => nomatch h⟩
  | true =>
    rw [State.badFrame_discarded hd]
    obtain ⟨own, other, -, rest⟩ := State.modLink_spec l (fun x => { x with selected := false, discard := false }) s
    exact ⟨other, (fun h => nomatch h), fun _ => ⟨own, rest⟩⟩

/-- Settles O6: both bad frames are `State.badFrame` after the passing of time. -/
theorem badFramesCounted : Obligations.BadFramesCounted := fun after l kind tag s => by
  have spec := fun f => State.badFrame_spec l f (s.elapse after)
  simp only [State.elapse_link] at spec
  have short := spec fun x => { x with short := x.short + 1 }
  have crc := spec fun x => { x with crcFail := x.crcFail + 1, answer := { kind := kind, tag := tag, code := .badFrame } }
  exact ⟨⟨_, rfl, short.1, short.2.1, short.2.2⟩, ⟨_, rfl, crc.1, crc.2.1, crc.2.2⟩⟩

/-! ### The gate (R180) -/

/-- Every request is served by the port (R180). -/
theorem exec_request {i : Instr} {h : Head} {kind : Nat} {params : List Byte}
    (hi : requestParts i = some (h, kind, params)) (s : State) : ∃ act, exec i s = .next (s.serve h kind act) := by
  cases i with
  | unknownRequestKind head what => cases what <;> cases hi <;> exact ⟨_, rfl⟩
  | _ => cases hi <;> exact ⟨_, rfl⟩

theorem passesReturned_eq_false {kind : Nat} (hk : kind ≤ 36)
    (hn : kind ∉ [0, 1, 2, 3, 4, 5, 6, 28, 30, 34, 29, 31, 32, 35, 36]) : passesReturned kind = false := by
  have all : ∀ k : Fin 37, k.val ∉ [0, 1, 2, 3, 4, 5, 6, 28, 30, 34, 29, 31, 32, 35, 36] → passesReturned k.val = false := by
    decide
  exact all ⟨kind, by omega⟩ hn

/-- Settles O7: a request is served, and the gate or the mark of its frame holds it back (R180, R188). -/
theorem gateHoldsBack : Obligations.GateHoldsBack := fun i h kind params s hi => by
  obtain ⟨act, served⟩ := exec_request hi s
  refine ⟨fun hk hd hs => ?_, fun hd => ?_⟩
  · have unknown : decide (36 < kind) = false := by simpa using hk
    have gated : gatePasses kind ((s.taken h).link h.link).state = false := by
      rcases hs with hs | ⟨hs, hn⟩
      · rw [hs]; exact unknown
      · rw [hs]; simp only [gatePasses, passesReturned_eq_false hk hn, unknown, Bool.or_false]
    rw [served, State.serve_gated hd gated]
  · obtain ⟨own, other, -, rest⟩ := State.modLink_spec h.link
      (fun x => { x with selected := false, discard := false }) (s.elapse h.after)
    rw [State.elapse_link] at own other
    exact ⟨_, by rw [served, State.serve_discards hd], rest, own, other⟩

/-- Settles O8: an unknown kind passes every gate, and an unknown selector the gate of READ_STATUS (R180). -/
theorem unknownRequestAnswered : Obligations.UnknownRequestAnswered := fun h s hd => by
  refine ⟨fun n => ?_, fun n hs => ?_⟩
  · have passes : s.passes h (37 + n.val) := ⟨hd, by
      have above : decide (36 < 37 + n.val) = true := by simp; omega
      cases ((s.taken h).link h.link).state <;> simp [gatePasses, above]⟩
    exact congrArg Host.Outcome.next (State.serve_eq_answered passes rfl)
  · have passes : s.passes h 1 := ⟨hd, by rcases hs with hs | hs <;> rw [hs] <;> rfl⟩
    exact congrArg Host.Outcome.next (State.serve_eq_answered passes rfl)

end Sys2Proof.Machine
end

section
/-! Supervision: NULL and RESUME, the restart window, and the deadline (R177, R183 to R187). -/

namespace Sys2Proof.Machine

/-! ### The answer of a request -/

@[simp] theorem answerData_nil : answerData [] = Vector.replicate 11 0 := by decide

/-- An answer without data, on its link and beyond it. -/
theorem State.answered_spec (h : Head) (kind : Nat) (c : Code) (s : State) :
    (s.answered h kind c []).link h.link =
      { s.link h.link with answer := ⟨BitVec.ofNat 8 kind, h.tag, c, Vector.replicate 11 0⟩ } ∧
    (s.answered h kind c []).link h.link.other = s.link h.link.other ∧
    (s.answered h kind c []).links.window = s.links.window ∧
    s.answered h kind c [] = { s with links := (s.answered h kind c []).links } := by
  obtain ⟨own, other, window, rest⟩ := State.modLink_spec h.link (fun x => { x with
    answer := { kind := BitVec.ofNat 8 kind, tag := h.tag, code := c, data := answerData [] } }) s
  exact ⟨own.trans (by rw [answerData_nil]), other, window, rest⟩

theorem State.answered_answerIs (h : Head) (kind : Nat) (c : Code) (s : State) :
    (s.answered h kind c []).answerIs h kind c := by
  unfold State.answerIs
  rw [(State.answered_spec h kind c s).1]

@[simp] theorem State.taken_window (h : Head) (s : State) : (s.taken h).links.window = s.links.window := by
  have window := (State.modLink_spec h.link (LinkRec.receive (s.elapse h.after).now h.live) (s.elapse h.after)).2.2.1
  unfold State.taken State.receive
  dsimp only
  split <;> simpa using window

/-! ### One post to the Ceiling Table (R48, R58, R59) -/

section Posts
variable (src : Source) (cap : Nat) (s : State)

theorem State.activate_reports : State.CeilingReports s (s.activate src cap) :=
  State.changeEntry_reports src (fun e => if e.active then { e with cap := cap } else
    { e with active := true, cap := cap, since := s.now }) (fun e => by split <;> rfl) s

theorem State.updateCap_reports : State.CeilingReports s (s.updateCap src cap) :=
  State.changeEntry_reports src (fun e => { e with cap := cap }) (fun _ => rfl) s

theorem State.deactivate_reports : State.CeilingReports s (s.deactivate src) :=
  State.changeEntry_reports src (fun e => { e with active := false }) (fun _ => rfl) s

/-- Activity and cap of an entry aside, a post moves the reports alone. -/
theorem State.deactivate_rest : s.deactivate src = { s with
    ceiling := (s.deactivate src).ceiling, notices := (s.deactivate src).notices, bank := (s.deactivate src).bank } := by
  unfold State.deactivate State.changeCeiling
  dsimp only
  split
  · rfl
  · split <;> rfl

variable {a : Source} {src s}

theorem State.activate_other (ha : a ≠ src) : (s.activate src cap).ceiling.sameEntry s.ceiling a :=
  State.changeEntry_other ha _ s

theorem State.updateCap_other (ha : a ≠ src) : (s.updateCap src cap).ceiling.sameEntry s.ceiling a :=
  State.changeEntry_other ha _ s

theorem State.deactivate_other (ha : a ≠ src) : (s.deactivate src).ceiling.sameEntry s.ceiling a :=
  State.changeEntry_other ha _ s

end Posts

/-- What the table reports depends on the table, the notices, the tallies, the speed reference and the time alone. -/
theorem State.CeilingReports.congr {u u' t t' : State} (h : State.CeilingReports u t) (hu : u'.ceiling = u.ceiling)
    (hun : u'.notices = u.notices) (hub : u'.bank.tallies = u.bank.tallies) (hv : u'.gov.vRef = u.gov.vRef)
    (hnow : u'.now = u.now) (ht : t'.ceiling = t.ceiling) (htn : t'.notices = t.notices)
    (htb : t'.bank.tallies = t.bank.tallies) : State.CeilingReports u' t' := by
  unfold State.CeilingReports State.postedOnce at *
  simp only [hu, hun, hub, hv, hnow, ht, htn, htb]
  exact h

@[simp] theorem State.elapse_tallies (us : Nat) (s : State) : (s.elapse us).bank.tallies = s.bank.tallies := by
  unfold State.elapse
  dsimp only
  split <;> rfl

/-! ### The refresh of a link (R183, R184) -/

/-- Time has passed and the request's frame is entered in its link's record. -/
def State.refreshed (h : Head) (s : State) : State :=
  (s.elapse h.after).modLink h.link (LinkRec.receive (s.elapse h.after).now h.live)

theorem State.refreshed_link (h : Head) (s : State) : (s.refreshed h).link h.link = (s.taken h).link h.link := by
  unfold State.refreshed
  rw [State.modLink_same, State.elapse_link, (State.taken_rest h s).2.1]

/-- A link that does not become LIVE brings nothing beyond its record. -/
theorem State.taken_stays {h : Head} {s : State}
    (hl : ((s.taken h).link h.link).state ≠ .live ∨ (s.link h.link).state = .live) : s.taken h = s.refreshed h := by
  unfold State.taken State.receive
  refine if_neg fun ⟨was, is⟩ => hl.elim (fun hn => hn ?_) fun hw => was ?_
  · rw [← State.refreshed_link]; exact is
  · rw [State.elapse_link]; exact hw

/-- A link that becomes LIVE has its loss entry deactivated (R55). -/
theorem State.taken_becomesLive {h : Head} {s : State} (is : ((s.taken h).link h.link).state = .live)
    (was : (s.link h.link).state ≠ .live) : s.taken h = (s.refreshed h).deactivate (lossEntry h.link) := by
  unfold State.taken State.receive
  refine if_pos ⟨?_, ?_⟩
  · rw [State.elapse_link]; exact was
  · rw [← State.refreshed_link] at is; exact is

/-- What the record of a link takes from a frame (R183, R184). -/
theorem LinkRec.receive_spec (now : Time) (live : Byte) (x : LinkRec) :
    LinkRec.receive now live x = { x with
      accepted := x.accepted + 1, lastCount := some live, selected := false
      state := (LinkRec.receive now live x).state, timer := (LinkRec.receive now live x).timer } ∧
    (x.lastCount = some live →
      (LinkRec.receive now live x).state = x.state ∧ (LinkRec.receive now live x).timer = x.timer) ∧
    (x.lastCount ≠ some live → (LinkRec.receive now live x).state = x.state.refreshed ∧
      (LinkRec.receive now live x).timer = some (later now x.deadline)) := by
  unfold LinkRec.receive
  dsimp only
  split
  · next same => exact ⟨by rw [← same], fun _ => ⟨rfl, rfl⟩, fun hn => absurd same hn⟩
  · next differs => exact ⟨rfl, fun he => absurd he differs, fun _ => ⟨rfl, rfl⟩⟩

/-- What NULL is answered (R177, R180). -/
def nullCode (x : LinkState) : Code := if gatePasses 0 x then .done else .state

theorem State.serve_null {h : Head} {s : State} (hd : (s.link h.link).discard = false) :
    s.serve h 0 (answer .done) = (s.taken h).answered h 0 (nullCode ((s.taken h).link h.link).state) [] := by
  unfold nullCode
  cases hg : gatePasses 0 ((s.taken h).link h.link).state with
  | true => exact State.serve_eq_answered ⟨hd, hg⟩ rfl
  | false => exact State.serve_gated hd hg _

/-- Settles O9: the answer goes into the record that `LinkRec.receive` leaves, and a link that becomes LIVE has its loss
entry deactivated. -/
theorem nullRefreshes : Obligations.NullRefreshes := fun h s hd => by
  refine ⟨_, congrArg Host.Outcome.next (State.serve_null hd), ?_⟩
  obtain ⟨-, taken, other, alarms⟩ := State.taken_rest h s
  have live : ((s.taken h).link h.link).state = .live → (s.link h.link).state ≠ .live → s.taken h = _ :=
    State.taken_becomesLive
  have stays : ((s.taken h).link h.link).state ≠ .live ∨ (s.link h.link).state = .live → s.taken h = _ := State.taken_stays
  have window := State.taken_window h s
  obtain ⟨own, other', window', rest⟩ := State.answered_spec h 0 (nullCode ((s.taken h).link h.link).state) (s.taken h)
  have answered := State.answered_answerIs h 0 (nullCode ((s.taken h).link h.link).state) (s.taken h)
  generalize (s.taken h).answered h 0 (nullCode ((s.taken h).link h.link).state) [] = t at *
  obtain ⟨record, same, differs⟩ := LinkRec.receive_spec (s.elapse h.after).now h.live (s.link h.link)
  rw [← taken] at record same differs
  have now : t.now = (s.elapse h.after).now := by
    have : (s.taken h).clock = (s.elapse h.after).clock := by rw [(State.taken_rest h s).1]
    rw [rest]; exact congrArg Clock.timebase this
  have state : (t.link h.link).state = ((s.taken h).link h.link).state := by rw [own]
  have timer : (t.link h.link).timer = ((s.taken h).link h.link).timer := by rw [own]
  refine ⟨?_, other'.trans other, window'.trans window⟩
  dsimp only
  rw [state, timer, now]
  refine ⟨?_, same, fun hn => ⟨(differs hn).2, fun hs => ?_, fun hs => ?_⟩, fun hs => ?_, fun hs => ?_, fun is was => ?_,
    fun hs => ?_⟩
  · rw [own, record]
  · rw [(differs hn).1]; rcases hs with hs | hs <;> rw [hs] <;> rfl
  · rw [(differs hn).1]; rcases hs with hs | hs <;> rw [hs] <;> rfl
  · rcases hs with hs | hs <;> rw [hs] at answered <;> exact answered
  · rw [hs] at answered; exact answered
  · obtain ⟨inactive, cap, since, settles⟩ := State.deactivate_spec (lossEntry h.link) (s.refreshed h)
    have others := fun src (hn : src ≠ lossEntry h.link) => State.deactivate_other (s := s.refreshed h) hn
    have reports := State.deactivate_reports (lossEntry h.link) (s.refreshed h)
    rw [← live is was] at inactive cap since settles others reports
    have ceiling : (s.refreshed h).ceiling = s.ceiling := by simp [State.refreshed, State.modLink]
    have notices : (s.refreshed h).notices = s.notices := by simp [State.refreshed, State.modLink]
    have tallies : (s.refreshed h).bank.tallies = s.bank.tallies := by simp [State.refreshed, State.modLink]
    have events := settles.events
    have masks := settles.masks
    have counts := settles.tallies
    rw [ceiling] at cap since others
    rw [notices] at events masks
    rw [tallies] at counts
    have onCeiling : t.ceiling = (s.taken h).ceiling := by rw [rest]
    have onNotices : t.notices = (s.taken h).notices := by rw [rest]
    have onBank : t.bank = (s.taken h).bank := by rw [rest]
    rw [onCeiling, onNotices, onBank]
    refine ⟨inactive, cap, since, others, settles.report.trans (congrArg CeilingTable.reportDir ceiling), ?_, alarms,
      fun l k hk => events l k (by simp) hk, masks, fun z hz => counts z (by simp) hz, ?_⟩
    · exact reports.congr rfl rfl rfl rfl rfl onCeiling onNotices (by rw [onBank])
    · refine rest.trans ?_
      rw [(State.taken_rest h s).1]
  · rw [rest, stays hs]
    rfl

/-! ### RESUME (R186) -/

/-- A RETURNED link that resumes is LIVE and has its loss entry deactivated; its loss alarm is yet to go. -/
def State.resumed (l : Link) (s : State) : State :=
  (s.modLink l fun x => { x with state := .live }).deactivate (lossEntry l)

theorem State.resume_returned {l : Link} {s : State} (hs : (s.link l).state = .returned) :
    s.resume l = answer .done ((s.resumed l).alarmGone (lossAlarm l) 0) := by
  simp only [State.resume, hs]
  rfl

theorem State.resume_live {l : Link} {s : State} (hs : (s.link l).state = .live) : s.resume l = answer .notActive s := by
  simp only [State.resume, hs]

/-- A table and its reports settle alike from states that differ in their links alone. -/
theorem State.resumed_spec (l : Link) (s : State) :
    State.SettlesTo [lossEntry l] [] [] { s with links := (s.resumed l).links } (s.resumed l) ∧
    State.CeilingReports { s with links := (s.resumed l).links } (s.resumed l) ∧
    ((s.resumed l).ceiling.entry (lossEntry l)).active = false ∧
    (s.resumed l).link l = { s.link l with state := .live } ∧ (s.resumed l).link l.other = s.link l.other ∧
    (s.resumed l).links.window = s.links.window ∧
    (s.resumed l).spray = s.spray ∧ (s.resumed l).output = s.output ∧
    s.resumed l = { s with
      links := (s.resumed l).links, ceiling := (s.resumed l).ceiling, notices := (s.resumed l).notices
      bank := (s.resumed l).bank } := by
  obtain ⟨own, other, window, -⟩ := State.modLink_spec l (fun x => { x with state := .live }) s
  have links : (s.resumed l).links = (s.modLink l fun x => { x with state := .live }).links := by simp [State.resumed]
  have start : ({ s with links := (s.resumed l).links } : State) = s.modLink l fun x => { x with state := .live } := by
    rw [links]; rfl
  obtain ⟨inactive, -, -, settles⟩ := State.deactivate_spec (lossEntry l) (s.modLink l fun x => { x with state := .live })
  have reports := State.deactivate_reports (lossEntry l) (s.modLink l fun x => { x with state := .live })
  rw [start]
  exact ⟨settles, reports, inactive, by rw [State.link, links]; exact own, by rw [State.link, links]; exact other,
    by rw [links]; exact window, by simp [State.resumed, State.modLink], by simp [State.resumed, State.modLink],  by
      rw [links]; exact State.deactivate_rest _ _⟩

/-- A report of absence changes the notices alone. -/
theorem State.alarmGone_rest (c : AlarmCode) (d : Nat) (s : State) :
    s.alarmGone c d = { s with notices := (s.alarmGone c d).notices } := by
  unfold State.alarmGone
  split <;> rfl

/-- No condition of the key is present after its report of absence. -/
theorem State.GoesAbsent.absent {c : AlarmCode} {d : Nat} {s t : State} (h : State.GoesAbsent c d s t) :
    (∀ a ∈ t.notices.alarms, a.code = c → a.detail = d → a.present = false) ∧
    t.notices.alarms.length = s.notices.alarms.length := by
  rw [h.1]
  refine ⟨fun a ha hc hd => ?_, List.length_map _⟩
  obtain ⟨b, -, rfl⟩ := List.mem_map.1 ha
  by_cases key : b.code = c ∧ b.detail = d
  · simp [key]
  · rw [if_neg key] at hc hd
    exact absurd ⟨hc, hd⟩ key

/-- Settles O10: a RETURNED link is resumed and its loss alarm goes; a LIVE one has nothing to resume. -/
theorem resumeRestoresLink : Obligations.ResumeRestoresLink := fun h s hd => by
  refine ⟨fun hs => ?_, fun hs => ?_⟩
  · have passes : s.passes h 35 := ⟨hd, by rw [hs]; rfl⟩
    refine ⟨(s.taken h).resumed h.link, _,
      congrArg Host.Outcome.next (State.serve_eq_answered passes (State.resume_returned hs)), ?_⟩
    obtain ⟨taken, -, other, alarms⟩ := State.taken_rest h s
    obtain ⟨settles, reports, inactive, live, other', window, spray, output, vrest⟩ := State.resumed_spec h.link (s.taken h)
    generalize (s.taken h).resumed h.link = v at *
    have gone := State.alarmGone_goes (lossAlarm h.link) 0 v
    have rest := State.alarmGone_rest (lossAlarm h.link) 0 v
    generalize v.alarmGone (lossAlarm h.link) 0 = w at *
    have wlinks : w.links = v.links := by rw [rest]
    obtain ⟨own, otherA, windowA, restA⟩ := State.answered_spec h 35 .done w
    generalize w.answered h 35 .done [] = t at *
    have tnotices : t.notices = w.notices := by rw [restA]
    refine ⟨?_, settles, reports, inactive, ?_, ?_, ?_, ?_, ?_, ?_, ?_, ?_, ?_⟩
    · have wlive : w.link h.link = v.link h.link := by rw [State.link, wlinks]; rfl
      rw [own, wlive, live]; rfl
    · unfold State.GoesAbsent State.told; rw [tnotices]; exact gone
    · rw [tnotices]; exact gone.absent.1
    · rw [tnotices, gone.absent.2, settles.alarms]; exact congrArg List.length alarms
    · exact spray.trans (by rw [taken]; simp)
    · exact output.trans (by rw [taken]; simp)
    · rw [restA, rest]
    · rw [otherA, State.link, wlinks]; exact other'.trans other
    · rw [windowA, wlinks, window, State.taken_window]
    · rw [restA, rest]
      exact congrArg (fun x : State => { x with links := t.links, notices := w.notices }) vrest
  · have passes : s.passes h 35 := ⟨hd, by rw [hs]; rfl⟩
    exact congrArg Host.Outcome.next (State.serve_eq_answered passes (State.resume_live hs))

/-! ### The restart window (R187) -/

section Restart
variable {l : Link} {tag : Byte} {w : Window} {s : State}

theorem State.restart_moving (hm : 0 < s.travel.ground ∨ 0 < s.gov.vRef) : s.restart l tag = answer .state s :=
  if_pos hm

theorem State.restart_opens (hg : s.travel.ground = 0) (hv : s.gov.vRef = 0) (hw : s.links.window = none) :
    s.restart l tag =
      answer .accepted (s.modLinks fun x => { x with window := some ⟨l, tag, later s.now 1000⟩ }) := by
  unfold State.restart
  rw [if_neg (by omega)]
  simp only [hw]

theorem State.restart_busy (hg : s.travel.ground = 0) (hv : s.gov.vRef = 0) (hw : s.links.window = some w)
    (hl : w.holder = l) : s.restart l tag = answer .busy s := by
  unfold State.restart
  rw [if_neg (by omega)]
  simp only [hw, if_pos hl]

theorem State.restart_confirms (hg : s.travel.ground = 0) (hv : s.gov.vRef = 0) (hw : s.links.window = some w)
    (hl : w.holder ≠ l) :
    s.restart l tag = answer .done (s.jointRestart.putAnswer w.holder 36 w.tag { code := .done }) := by
  unfold State.restart
  rw [if_neg (by omega)]
  simp only [hw, if_neg hl]

end Restart

@[simp] theorem State.taken_travel (h : Head) (s : State) : (s.taken h).travel = s.travel := by
  rw [(State.taken_rest h s).1]
  simp

@[simp] theorem State.taken_gov (h : Head) (s : State) : (s.taken h).gov = s.gov := by
  rw [(State.taken_rest h s).1]
  simp

/-- An open window lapses: it closes, and its holder is told (R187). -/
theorem State.lapseWindow_open {s : State} {w : Window} (hw : s.links.window = some w) :
    s.lapseWindow.links = { s.links with window := none } ∧
    s.lapseWindow.notices.events w.holder = (s.notices.events w.holder).post .restartLapsed ∧
    s.lapseWindow.notices.events w.holder.other = s.notices.events w.holder.other ∧
    s.lapseWindow.notices.alarms = s.notices.alarms ∧
    s.lapseWindow = { s with links := s.lapseWindow.links, notices := s.lapseWindow.notices } := by
  unfold State.lapseWindow
  simp only [hw]
  cases w.holder <;> exact ⟨rfl, rfl, rfl, rfl, rfl⟩

/-- Settles O11: the answers of RESTART while no joint restart comes of it, and the lapse of its window. -/
theorem restartWindowOpensAndLapses : Obligations.RestartWindowOpensAndLapses := by
  refine ⟨fun h s hp => ?_, fun after s w hw hr => ?_⟩
  · have restart {c : Code} {t : State} (ha : (s.taken h).restart h.link h.tag = answer c t) :
        exec (.restart h) s = .next (t.answered h 36 c []) :=
      congrArg Host.Outcome.next (State.serve_eq_answered hp ha)
    rw [← State.taken_travel h s, ← State.taken_gov h s, ← State.taken_window h s]
    exact ⟨fun hm => restart (State.restart_moving hm), fun hg hv hw => restart (State.restart_opens hg hv hw),
      fun w hg hv hw hl => restart (State.restart_busy hg hv hw hl)⟩
  · have window : (s.elapse after).links.window = some w := by simpa using hw
    obtain ⟨links, holder, other, alarms, rest⟩ := State.lapseWindow_open window
    have lapses : (s.elapse after).windowExpiry = (s.elapse after).lapseWindow :=
      if_pos (by rw [window]; exact hr)
    have notices : (s.elapse after).notices = s.notices := by simp
    rw [notices] at holder other alarms
    refine ⟨_, congrArg Host.Outcome.next lapses, links.trans (by simp), ?_, ?_, ?_, other, alarms, rest⟩
    · rw [holder]; rfl
    · rw [holder]; exact (EventSet.post_spec .restartLapsed _).2.1
    · rw [holder]; rfl

end Sys2Proof.Machine
end

section
/-! The two resets: power-on and the joint restart (R4, R188). -/

namespace Sys2Proof.Machine

/-! ### What the port's step 1 leaves (R180, R184) -/

section Taken
variable (h : Head) (s : State)

@[simp] theorem State.taken_output : (s.taken h).output = s.output := by rw [(State.taken_rest h s).1]; simp

@[simp] theorem State.taken_settings : (s.taken h).settings = s.settings := by rw [(State.taken_rest h s).1]; simp

@[simp] theorem State.taken_pending : (s.taken h).pending = s.pending := by rw [(State.taken_rest h s).1]; simp

@[simp] theorem State.taken_freeCount : (s.taken h).freeCount = s.freeCount := by rw [(State.taken_rest h s).1]; simp

@[simp] theorem State.taken_alarms : (s.taken h).notices.alarms = s.notices.alarms := (State.taken_rest h s).2.2.2

/-- The snapshots are taken by TAKE_SNAPSHOT alone (R198). -/
theorem State.taken_snapshots :
    (s.taken h).bank.snapDrive = s.bank.snapDrive ∧ (s.taken h).bank.snapBody = s.bank.snapBody := by
  have elapsed : (s.elapse h.after).bank.snapDrive = s.bank.snapDrive ∧
      (s.elapse h.after).bank.snapBody = s.bank.snapBody := by
    unfold State.elapse
    dsimp only
    split <;> exact ⟨rfl, rfl⟩
  rw [(State.taken_rest h s).1]
  exact elapsed

end Taken

/-! ### The joint restart (R188) -/

/-- The cap that each entry of the Ceiling Table has after a joint restart (R47, entry 19). -/
def restartCap (c : CapSettings) : Source → Nat
  | .mode => c.transportMax | .rangeShift => c.shiftSpeed | .armTransition => c.armMove
  | .armYield => c.yieldCap | .sprayLimit => 200 | .slope => c.slopeCap1 | .traction => c.traction
  | .oilHot => c.oilCap | .sensorFault => c.sensorCap | .bodyLoss => c.crawl
  | .reverseArms | .drySweep | .driveLoss | .driveFault => 0

theorem restartCeiling_entry (c : CapSettings) (src : Source) : (restartCeiling c).entry src =
    { active := decide (src = .mode ∨ src = .driveLoss ∨ src = .bodyLoss), cap := restartCap c src, since := 0
      engagements := 0 } := by
  cases src <;> rfl

/-- A channel after a joint restart is off, with its dither values loaded (R159, R164). -/
theorem restartChannel_spec (free : Half) (c : ChannelRec) (ch : Channel) :
    restartChannel free c = {
      carrier := {
        high := c.carrier.nextHigh.getD c.carrier.high, low := c.carrier.nextLow.getD c.carrier.low
        amp := c.carrier.nextAmp.getD c.carrier.amp }
      measured := free } ∧
    (restartChannel free c).stateWith false = .off ∧ (restartChannel free c).commandedOn ch = 0 := by
  refine ⟨rfl, rfl, ?_⟩
  unfold ChannelRec.commandedOn
  split <;> rfl

theorem State.jointRestart_cutFlag (s : State) (ch : Channel) : s.jointRestart.output.cutFlag ch = false := by
  simp [State.jointRestart, Output.restarted, Output.cutFlag]

/-- The timer of the cycle boundary runs with the active program's period (R26). -/
theorem ModeUnit.restarted_boundary (u : ModeUnit) :
    (u.restarted.active = none → u.restarted.boundary = none) ∧
    ∀ i, u.restarted.active = some i → u.restarted.boundary = u.restarted.slots[i].map fun p => later 0 p.period := by
  have boundary : u.restarted.boundary =
      (u.restarted.active.bind fun i => u.restarted.slots[i]).map fun p => later 0 p.period := rfl
  rw [boundary]
  exact ⟨fun h => by rw [h]; rfl, fun i h => by rw [h]; rfl⟩

/-- A request of a link that restarts jointly leaves nothing of its record but deadline, answer and port. -/
theorem LinkRec.receive_restarted (now : Time) (live : Byte) (x : LinkRec) :
    (LinkRec.receive now live x).restarted = { x.restarted with selected := false, discard := false } := by
  unfold LinkRec.receive
  dsimp only
  split <;> rfl

/-- The links after a confirming RESTART: each has DONE for its own (R188). -/
theorem State.confirmed_links {h : Head} {w : Window} (hl : w.holder ≠ h.link) (s : State) :
    let t := (s.jointRestart.putAnswer w.holder 36 w.tag { code := .done }).answered h 36 .done []
    t.link h.link =
      { (s.link h.link).restarted with answer := ⟨36, h.tag, .done, Vector.replicate 11 0⟩ } ∧
    t.link w.holder =
      { (s.link w.holder).restarted with answer := ⟨36, w.tag, .done, Vector.replicate 11 0⟩ } ∧
    t.links.window = none ∧ t = { s.jointRestart with links := t.links } := by
  have requester : h.link = w.holder.other := Link.ne_iff_eq_other.1 hl.symm
  have back : w.holder = h.link.other := Link.ne_iff_eq_other.1 hl
  have restarted : ∀ l, s.jointRestart.link l = (s.link l).restarted := fun l => by cases l <;> rfl
  obtain ⟨first, firstOther, firstRest⟩ := State.putAnswer_spec w.holder 36 w.tag { code := .done } s.jointRestart
  have firstWindow : (s.jointRestart.putAnswer w.holder 36 w.tag { code := .done }).links.window = none := by
    cases w.holder <;> rfl
  generalize s.jointRestart.putAnswer w.holder 36 w.tag { code := .done } = v at *
  obtain ⟨own, other, window, rest⟩ := State.answered_spec h 36 .done v
  generalize v.answered h 36 .done [] = t at *
  refine ⟨?_, ?_, window.trans firstWindow, ?_⟩
  · rw [own, requester, firstOther, restarted, ← requester]; rfl
  · rw [back, other, ← back, first, restarted, answerData_nil]
  · rw [rest, firstRest]

/-- Settles O12: block by block, what `State.jointRestart` keeps and resets. -/
theorem jointRestartPerformed : Obligations.JointRestartPerformed := fun h s w hp hg hv hw hl => by
  have confirms := State.restart_confirms (l := h.link) (tag := h.tag) (s := s.taken h)
    (by rw [State.taken_travel]; exact hg) (by rw [State.taken_gov]; exact hv)
    (by rw [State.taken_window]; exact hw) hl
  obtain ⟨own, holder, window, rest⟩ := State.confirmed_links hl (s.taken h)
  refine ⟨_, congrArg Host.Outcome.next (State.serve_eq_answered hp confirms), ?_⟩
  generalize State.answered h 36 .done [] _ = t at *
  intro caps capOf restarted
  obtain ⟨snapDrive, snapBody⟩ := State.taken_snapshots h s
  have unit : t.unit = s.unit.restarted := by rw [rest, ← State.taken_unit h s]; rfl
  have ceiling : t.ceiling = restartCeiling s.settings.caps := by rw [rest, ← State.taken_settings h s]; rfl
  have output : t.output = (s.taken h).jointRestart.output := by rw [rest]
  have channel : ∀ ch : Channel, t.output.channels[ch] = restartChannel (freeCurrent s.freeCount ch) s.output.channels[ch] :=
    fun ch => by rw [output, State.jointRestart_channel, State.taken_freeCount, State.taken_output]
  have cut : ∀ ch : Channel, t.output.cutFlag ch = false := fun ch => by rw [output, State.jointRestart_cutFlag]
  refine ⟨by rw [rest]; rfl, by rw [rest]; rfl, by rw [unit]; rfl, fun hn => ?_, fun x hx => ?_, fun hn => ?_,
    fun i hi => ?_, ?_, by rw [ceiling]; rfl, by rw [ceiling]; rfl, fun src => ?_, by rw [rest]; rfl, by rw [rest]; rfl,
    by rw [rest]; rfl, by rw [rest]; rfl, by rw [output]; rfl, by rw [output]; rfl, fun ch => ?_, ?_, ?_, window, ?_,
    by rw [rest]; rfl, by rw [rest]; rfl, ?_, ?_, ?_⟩
  · rw [unit]; exact s.unit.restarted_stands hn
  · rw [unit]; exact s.unit.restarted_swaps hx
  · rw [unit] at hn ⊢; exact (ModeUnit.restarted_boundary _).1 hn
  · rw [unit] at hi ⊢; exact (ModeUnit.restarted_boundary _).2 i hi
  · rw [rest, ← State.taken_travel h s]; rfl
  · rw [ceiling, restartCeiling_entry]; cases src <;> rfl
  · have spec := restartChannel_spec (freeCurrent s.freeCount ch) s.output.channels[ch] ch
    rw [← channel ch] at spec
    obtain ⟨record, off, zero⟩ := spec
    refine ⟨?_, ?_, zero⟩
    · rw [record]
    · unfold Output.stateOf; rw [cut, off]
  · rw [own, (State.taken_rest h s).2.1, LinkRec.receive_restarted]; rfl
  · rw [holder, Link.ne_iff_eq_other.1 hl, (State.taken_rest h s).2.2.1]; rfl
  · rw [rest, ← State.taken_alarms h s]; rfl
  · rw [rest, ← snapDrive, ← snapBody]; rfl
  · rw [rest, ← State.taken_settings h s]; rfl
  · rw [rest, ← State.taken_pending h s]; rfl

/-! ### Power-on reset (R4) -/

/-- Settles O14: the reset state with its straps, but for the measured currents. -/
theorem powerOnResets : Obligations.PowerOnResets := fun straps s => by
  refine ⟨s.powerOn straps, rfl, rfl, rfl, rfl, fun ch => ?_, rfl, rfl, rfl⟩
  rw [State.powerOn_channel]
  rfl

end Sys2Proof.Machine
end

section
/-! The state after reset, and the passing of time before a timer's command (R2, R4; entries 1, 3, 47). -/

namespace Sys2Proof.Machine

/-! ### The state after reset -/

theorem State.reset_channel (ch : Channel) :
    State.reset.output.channels[ch].holder = none ∧ State.reset.output.channels[ch].setpoint = 0 ∧
    State.reset.output.channels[ch].target = 0 ∧ State.reset.output.channels[ch].fault = .none ∧
    State.reset.output.channels[ch].carrier.part = .rest := Output.initial_channel ch

theorem State.reset_stowed (a : Arm) : (State.reset.arm a).state = .stowed := by cases a <;> rfl

theorem State.reset_tallies (x : Tally) : State.reset.bank.tallies[x.index] = 0 := by
  show (Vector.replicate _ 0)[x.index] = 0
  simp

theorem State.reset_laws : State.reset.Laws := by
  have channel := State.reset_channel
  have bars : State.reset.BarsKept := .of_idle rfl rfl fun ch => (channel ch).2.1
  have coils : State.reset.CoilsLaw := .of_idle State.reset_stowed fun ch => ⟨(channel ch).1, (channel ch).2.1, (channel ch).2.2.1⟩
  have alarms : State.reset.AlarmLaw := ⟨Nat.zero_le _, List.Pairwise.nil, fun _ h => absurd h List.not_mem_nil⟩
  have counts : State.reset.CountLaw := .of_reset ⟨rfl, rfl⟩ (fun a => by cases a <;> rfl)
    (fun x => by rw [State.reset_tallies]; exact Nat.zero_le _) rfl (fun l => by cases l <;> rfl)
    fun src => by cases src <;> rfl
  have pumps : State.reset.PumpLaw := .of_idle fun ch => ⟨(channel ch).1, (channel ch).2.1, (channel ch).2.2.2.2⟩
  have programs : State.reset.ProgramLaw := by
    refine ⟨fun i p h => ?_, (fun _ h => nomatch h), (fun _ h => nomatch h), fun h => nomatch h⟩
    have empty : ∀ i : Fin 8, State.reset.unit.slots[i] = none := by decide
    rw [empty i] at h
    cases h
  obtain ⟨barLaw, owedLaw⟩ := State.barsKept_iff.1 bars
  exact ⟨alarms, coils.direct, programs, ⟨rfl, le_rfl, Nat.zero_le _⟩, pumps, coils.arm, barLaw, owedLaw, rfl,
    (State.coilsLaw_iff.1 coils).2.2, (fun h => nomatch h), counts⟩

/-- Settles O60: the laws from the idle records, the values one by one. -/
theorem resetHasLaws : Obligations.ResetHasLaws := by
  refine ⟨State.reset_laws, ?_⟩
  refine ⟨rfl, rfl, rfl, rfl, by decide, rfl, rfl, fun w => by cases w <;> exact ⟨rfl, rfl, rfl⟩, rfl, rfl, rfl, rfl,
    fun src => by cases src <;> decide, rfl, rfl, rfl, rfl, rfl, rfl, rfl, rfl, rfl, rfl, rfl,
    fun a => by cases a <;> exact ⟨rfl, rfl, rfl⟩, rfl, fun b => by cases b <;> exact ⟨rfl, rfl, rfl⟩, rfl, rfl, rfl,
    by decide, by decide, rfl, rfl, rfl, rfl, rfl, fun ch => ?_, fun l => by cases l <;> exact ⟨rfl, rfl, rfl, rfl, rfl, rfl⟩,
    rfl, rfl, State.reset_tallies⟩
  revert ch
  decide

/-! ### A timer before its time (entries 1, 3, 47) -/

/-- A stopped timer, and one whose time has not come. -/
def Early (now : Time) (o : Option Time) : Prop := ∀ e, o = some e → reached now e = false

theorem Early.due {now : Time} {o : Option Time} (h : Early now o) : ¬due now o = true := by
  cases o with
  | none => exact Bool.false_ne_true
  | some e => exact (Bool.not_eq_true _).mpr (h e rfl)

section Early
variable {s : State}

theorem State.deadline_early {l : Link} (h : Early s.now (s.link l).timer) : s.deadline l = s := if_neg h.due

theorem State.windowExpiry_early (h : Early s.now (s.links.window.map (·.expiry))) : s.windowExpiry = s := if_neg h.due

theorem State.cycleBoundary_early (h : Early s.now s.unit.boundary) : s.cycleBoundary = s := by
  unfold State.cycleBoundary
  split
  · next e he => rw [h e he]; rfl
  · rfl

theorem State.halfCycleMark_early (h : Early s.now s.unit.halfMark) : s.halfCycleMark = s := if_neg h.due

theorem State.claimIdle_early (h : Early s.now (s.unit.staging.map (·.idle))) : s.claimIdle = s := if_neg h.due

theorem State.armDue_early {a : Arm} (h : Early s.now (s.arm a).timer) (st : ArmState) (ph : Option Phase) :
    ¬s.armDue a st ph = true := by
  unfold State.armDue
  rw [(Bool.not_eq_true _).mp h.due, Bool.and_false]
  exact Bool.false_ne_true

theorem State.slowSettle_early (h : ∀ i till, s.scan.slow = some ⟨i, .settling till⟩ → reached s.nowUs till = false) :
    s.slowSettle = s := by
  unfold State.slowSettle
  split
  · next i till hs => rw [h i till hs]; rfl
  all_goals rfl

theorem State.conversionDone_early (h : ∀ e, s.scan.convStart = some e → since s.nowUs e < 10) :
    ¬s.conversionDone = true := by
  unfold State.conversionDone
  split
  · next e he => have := h e he; simpa using this
  · exact Bool.false_ne_true

theorem State.conversionLate_early (h : ∀ e, s.scan.convStart = some e → since s.nowUs e < 120) :
    ¬s.conversionLate = true := by
  unfold State.conversionLate
  split
  · next e he => have := h e he; simpa using this
  · exact Bool.false_ne_true

theorem openDue_early {ch : Channel} (h : ∀ e, s.output.channels[ch].openSince = some e →
    since s.nowUs e < (if 15 ≤ ch.val then 10000 else 200000)) : ¬openDue ch s = true := by
  unfold openDue
  split
  · next e he =>
    have early := h e he
    simpa [openLimit, isPulseChannel] using early
  · exact Bool.false_ne_true

end Early

/-- Settles O51: each command of a timer looks at it first. -/
theorem earlyTimersDoNothing : Obligations.EarlyTimersDoNothing := fun after s => by
  have tested {α : Type} {b : Bool} (x y : α) (h : b = false) : (if b = true then x else y) = y := by rw [h]; rfl
  intro u early
  refine ⟨rfl, rfl, rfl, ?_, fun l h => ?_, fun h => ?_, tested _ _, fun w h => if_neg (Early.due h),
    fun h => if_neg (Early.due h), fun h => ?_, fun h => ?_, fun h => ?_, tested _ _, fun h => if_neg (Early.due h),
    fun h => if_neg (Early.due h), tested _ _, fun a h => ?_, tested _ _, fun b h => if_neg (Early.due h),
    tested _ _, tested _ _, fun h => ?_, fun code h => if_neg (State.conversionDone_early h),
    fun h => if_neg (State.conversionLate_early h), fun x => tested _ _, fun ch h => if_neg (openDue_early h), fun h => ?_⟩
  · refine State.eq_of_fields rfl rfl rfl rfl rfl rfl rfl rfl rfl rfl rfl rfl ?_ rfl rfl rfl
    by_cases hm : s.unit.mode = .sweep
    · simp [u, State.elapse, hm]
    · simp [u, State.elapse, hm]
  · exact congrArg Host.Outcome.next (State.deadline_early h)
  · exact congrArg Host.Outcome.next (State.windowExpiry_early h)
  · exact congrArg Host.Outcome.next (State.cycleBoundary_early h)
  · exact congrArg Host.Outcome.next (State.halfCycleMark_early h)
  · exact congrArg Host.Outcome.next (State.claimIdle_early h)
  · have idle := State.armDue_early (s := u) h
    refine ⟨if_neg (idle _ _), if_neg (idle _ _), ?_, ?_⟩
    · rintro rfl; exact if_neg (idle _ _)
    · rintro b rfl; exact ⟨if_neg (idle _ _), if_neg (idle _ _)⟩
  · exact congrArg Host.Outcome.next (State.slowSettle_early h)
  · exact congrArg Host.Outcome.next (if_neg (Nat.not_le.2 h))

end Sys2Proof.Machine
end

section
/-! The reads: READ_STATUS and the records of blocks, each a run of bytes of which one part is answered (R178). -/

namespace Sys2Proof.Machine

@[simp] theorem State.taken_spray (h : Head) (s : State) : (s.taken h).spray = s.spray := by
  rw [(State.taken_rest h s).1]
  simp

/-- A request that only reads is answered its reply, on the state that the port's step 1 leaves. -/
theorem State.serve_readOnly {h : Head} {kind : Nat} {s : State} (hp : s.passes h kind) (f : State → Reply) :
    s.serve h kind (State.readOnly f) = (s.taken h).putAnswer h.link (BitVec.ofNat 8 kind) h.tag (f (s.taken h)) :=
  State.serve_passes hp _

/-! ### READ_STATUS -/

theorem State.periodRead_inForce {s : State} {q : Program} (hq : s.inForce = some q) (k : Nat) : s.periodRead k = q.period := by
  unfold State.periodRead
  rw [hq]

/-- With the tank not EMPTY the effective dose is read, 0 for an absent one (R121, R138). -/
theorem State.doseRead_inForce {s : State} {q : Program} (hq : s.inForce = some q) (ht : s.spray.tank ≠ .empty) (b : Bar)
    (k : Nat) : s.doseRead b k = (effectiveDose s.spray.tank q b).getD 0 := by
  have program : s.program = q := by unfold State.program; rw [hq]; rfl
  unfold State.doseRead
  rw [hq, program, if_neg ht]
  cases hd : q.dose b with
  | some d => simp [hd]
  | none => cases htank : s.spray.tank <;> simp [effectiveDose, hd]

/-- Settles O16: each read answers its run; P and the doses of a program in force are read as they stand (R29, R138). -/
theorem statusReadsAnswer : Obligations.StatusReadsAnswer := fun h p s hp => by
  have reads (f : State → Reply) := congrArg (Host.Outcome.next (φ := Fault) (ρ := Refusal)) (State.serve_readOnly hp f)
  have draws (n : Nat) (f : State → Reply) :=
    congrArg (Host.Outcome.next (φ := Fault) (ρ := Refusal)) (State.serve_passes hp (State.readDrawing n f))
  refine ⟨⟨reads _, reads _, reads _, reads _, reads _, reads _, draws 1 _, draws 4 _⟩, fun q hq => ?_⟩
  have inForce : (s.taken h).inForce = some q :=
    (State.inForce_congr (by rw [State.taken_unit]) (by rw [State.taken_unit])).trans hq
  refine ⟨State.periodRead_inForce inForce, fun ht => ?_⟩
  rw [← State.taken_spray h s] at ht ⊢
  exact State.doseRead_inForce inForce ht

/-! ### The other reads -/

theorem Source.ofSlot_slot (src : Source) : Source.ofSlot src.slot.val = some src := by cases src <;> rfl

theorem Source.ofSlot_eq_none {n : Nat} (h : 14 ≤ n) : Source.ofSlot n = none := List.getElem?_eq_none h

theorem channelOf_val (ch : Channel) : channelOf ch.val = some ch := dif_pos ch.isLt

theorem channelOf_eq_none {n : Nat} (h : 18 ≤ n) : channelOf n = none := dif_neg (by omega)

/-- A run that exists is answered part by part. -/
theorem partOfRun_some (run : List Byte) (p : Byte) : partOfRun (some run) p = partOf run p := rfl

section ScanRun
variable (s : State)

theorem State.scanRun_result (c : Fin 9) : s.scanRun c.val = some (s.resultRun c) := dif_pos c.isLt

theorem State.scanRun_comp (c : Fin 4) : s.scanRun (12 + c.val) = some (s.compRun c) := by
  obtain ⟨n, hn⟩ := c
  interval_cases n <;> rfl

theorem State.scanRun_eq_none {n : Nat} (h : 17 ≤ n) : s.scanRun n = none := by
  unfold State.scanRun
  rw [dif_neg (by omega)]
  split <;> first | omega | rfl

end ScanRun

/-- Pages 0 to 3 exist (R29). -/
theorem Program.page_isSome {p : Program} {n : Nat} {run : List Byte} (h : p.page n = some run) : n ≤ 3 := by
  unfold Program.page at h
  split at h
  all_goals first | omega | cases h

section ProgramReply
variable {s : State} {x y p : Byte} {run : List Byte}

theorem State.programReply_slot {i : Fin 8} {q : Program} (hi : i.val = x.toNat) (hq : s.unit.slots[i] = some q)
    (hr : q.page y.toNat = some run) : s.programReply x y p = partOf run p := by
  have page := Program.page_isSome hr
  unfold State.programReply
  rw [if_neg (by omega), ← hi, slotOf_val]
  simp only [hq, hr, partOfRun]

theorem State.programReply_empty {i : Fin 8} (hi : i.val = x.toNat) (hy : y.toNat ≤ 3) (hq : s.unit.slots[i] = none) :
    s.programReply x y p = { code := .empty } := by
  unfold State.programReply
  rw [if_neg (by omega), ← hi, slotOf_val]
  simp only [hq]

theorem State.programReply_staging {g : Staging} (hx : x.toNat = 8) (hg : s.unit.staging = some g)
    (hr : g.record.page y.toNat = some run) : s.programReply x y p = partOf run p := by
  have page := Program.page_isSome hr
  unfold State.programReply
  rw [if_neg (by omega), slotOf_eq_none (by omega)]
  simp only [hg, hr, partOfRun]

theorem State.programReply_free (hx : x.toNat = 8) (hy : y.toNat ≤ 3) (hg : s.unit.staging = none) :
    s.programReply x y p = { code := .notActive } := by
  unfold State.programReply
  rw [if_neg (by omega), slotOf_eq_none (by omega)]
  simp only [hg]

end ProgramReply

theorem State.alarmReply_held {s : State} {x p : Byte} (hx : x.toNat ≤ 15) : s.alarmReply x p =
    partOf (byte1 s.notices.alarms.length ++ byte4 s.bank.tallies[(18 : Fin 19)] ++
      alarmRun s.notices.alarms[x.toNat]?) p := if_neg (by omega)

theorem Snapshot.page_eq_none {x : Snapshot} {n : Nat} (h : 4 ≤ n) : x.page n = none := by
  unfold Snapshot.page
  split <;> first | omega | rfl

theorem State.taken_snap (h : Head) (l : Link) (s : State) : (s.taken h).bank.snap l = s.bank.snap l := by
  obtain ⟨drive, body⟩ := State.taken_snapshots h s
  cases l
  · exact drive
  · exact body

/-- Settles O17: each reply is its run's part, or tells what does not exist. -/
theorem recordReadsAnswer : Obligations.RecordReadsAnswer := fun h x y z p s => by
  intro r u
  have reads {kind : Nat} (hp : s.passes h kind) (f : State → Reply) {reply : Reply} (hr : f u = reply) :
      Host.Outcome.next (s.serve h kind (State.readOnly f)) = r kind reply := by
    subst hr
    exact congrArg Host.Outcome.next (State.serve_readOnly hp f)
  refine ⟨fun hp => ⟨fun src hs => reads hp _ ?_, fun hx => reads hp _ ?_⟩,
    fun hp => ⟨fun ch hc => reads hp _ ?_, fun hx => reads hp _ ?_⟩,
    fun hp => ⟨fun c hc => reads hp _ ?_, fun c hc => reads hp _ ?_, fun hx => reads hp _ ?_, fun hx => reads hp _ ?_,
      fun hx => reads hp _ ?_, fun hx => reads hp _ ?_, fun hx => reads hp _ ?_⟩,
    fun hp => ⟨fun i q run hi hq hr => reads hp _ ?_, fun i hi hy hq => reads hp _ ?_, fun g run hx hg hr => reads hp _ ?_,
      fun hx hy hg => reads hp _ ?_, fun hn => reads hp _ (if_pos hn)⟩,
    fun hp => ⟨fun k hk => reads hp _ ?_, fun hn => reads hp _ ?_⟩,
    fun hp => ⟨fun hx => reads hp _ ?_, fun hx => reads hp _ (if_pos (by omega))⟩,
    fun hp => reads hp _ rfl, fun hp => ⟨fun run hr => reads hp _ ?_, fun hx => reads hp _ ?_⟩⟩
  · rw [← hs, Source.ofSlot_slot]; rfl
  · rw [Source.ofSlot_eq_none hx]; rfl
  · rw [← hc, channelOf_val]; rfl
  · rw [channelOf_eq_none hx]; rfl
  · rw [← hc, State.scanRun_result]; rfl
  · rw [← hc, State.scanRun_comp]; rfl
  · rw [hx]; rfl
  · rw [hx]; rfl
  · rw [hx]; rfl
  · rw [hx]; rfl
  · rw [State.scanRun_eq_none u hx]; rfl
  · exact State.programReply_slot hi (by rw [State.taken_unit]; exact hq) hr
  · exact State.programReply_empty hi hy (by rw [State.taken_unit]; exact hq)
  · exact State.programReply_staging hx (by rw [State.taken_unit]; exact hg) hr
  · exact State.programReply_free hx hy (by rw [State.taken_unit]; exact hg)
  · unfold State.settingReply; rw [hk]
  · unfold State.settingReply; rw [hn]
  · rw [State.alarmReply_held hx, State.taken_alarms]
  · rw [State.taken_snap, hr]; rfl
  · rw [Snapshot.page_eq_none hx]; rfl

end Sys2Proof.Machine
end

section
/-! The fields of answers (R178): widths, parts of a run, and the runs byte for byte. -/

namespace Sys2Proof.Machine

/-! ### Numbers in bytes -/

theorem byte2_toNat {n : Nat} (h : n < 65536) :
    (BitVec.ofNat 8 n).toNat + 256 * (BitVec.ofNat 8 (n / 256)).toNat = n := by
  simp only [BitVec.toNat_ofNat]
  omega

theorem byte4_toNat {n : Nat} (h : n < 4294967296) :
    (BitVec.ofNat 8 n).toNat + 256 * (BitVec.ofNat 8 (n / 256)).toNat +
      65536 * (BitVec.ofNat 8 (n / 65536)).toNat + 16777216 * (BitVec.ofNat 8 (n / 65536 / 256)).toNat = n := by
  simp only [BitVec.toNat_ofNat]
  omega

/-- Two bytes of a word give the word again. -/
theorem bytes_append (v : BitVec 16) : BitVec.ofNat 8 (v.toNat / 256) ++ BitVec.ofNat 8 v.toNat = v := by
  apply BitVec.eq_of_toNat_eq
  have := v.isLt
  simp only [BitVec.toNat_append, BitVec.toNat_ofNat]
  rw [← Nat.shiftLeft_add_eq_or_of_lt (by omega), Nat.shiftLeft_eq]
  omega

/-- Four bytes of a double word give it again. -/
theorem bytes_append4 (v : BitVec 32) :
    BitVec.ofNat 8 (v.toNat / 65536 / 256) ++ BitVec.ofNat 8 (v.toNat / 65536) ++ BitVec.ofNat 8 (v.toNat / 256) ++
      BitVec.ofNat 8 v.toNat = v := by
  apply BitVec.eq_of_toNat_eq
  have := v.isLt
  simp only [BitVec.toNat_append, BitVec.toNat_ofNat]
  rw [← Nat.shiftLeft_add_eq_or_of_lt (by omega), ← Nat.shiftLeft_add_eq_or_of_lt (by omega),
    ← Nat.shiftLeft_add_eq_or_of_lt (by omega), Nat.shiftLeft_eq, Nat.shiftLeft_eq, Nat.shiftLeft_eq]
  omega

/-! ### Parts of a run -/

theorem partOf_within {run : List Byte} {p : Byte} (h : 11 * p.toNat < run.length) :
    (partOf run p).code = .done ∧
    ∀ k : Fin 11, (answerData (partOf run p).data)[k] = run.getD (11 * p.toNat + k.val) 0 := by
  have part : partOf run p = { code := .done, data := (run.drop (11 * p.toNat)).take 11 } := if_neg (by omega)
  rw [part]
  refine ⟨rfl, fun k => ?_⟩
  simp [answerData, List.getElem?_drop]

/-! ### Codings: an enumeration's value is its place in the list of its rule -/

theorem codeIn_dir (d : Dir) : codeIn [Dir.forward, .reverse] d = byte1 (Dir.number d) := by cases d <;> rfl
theorem codeIn_drive (d : DriveDir) : codeIn [DriveDir.neutral, .forward, .reverse] d = byte1 (DriveDir.number d) := by cases d <;> rfl
theorem codeIn_range (r : Range) : codeIn [Range.work, .transport] r = byte1 (Range.number r) := by cases r <;> rfl
theorem codeIn_link (l : Link) : codeIn [Link.drive, .body] l = byte1 (Link.number l) := by cases l <;> rfl
theorem codeIn_bool (b : Bool) : codeIn [false, true] b = bool1 b := by cases b <;> rfl
theorem codeIn_arm (x : ArmState) :
    codeIn [ArmState.stowed, .lowering, .working, .yielding, .jammed, .raising, .fault] x = byte1 (ArmState.number x) := by
  cases x <;> rfl
theorem codeIn_tank (x : Tank) : codeIn [Tank.normal, .low, .empty] x = byte1 (Tank.number x) := by cases x <;> rfl
theorem codeIn_linkState (x : LinkState) :
    codeIn [LinkState.waiting, .live, .lost, .returned] x = byte1 (LinkState.number x) := by cases x <;> rfl
theorem codeIn_mode (x : Mode) :
    codeIn [Mode.transport, .entering, .sweep, .leaving, .service] x = byte1 (Mode.number x) := by cases x <;> rfl
theorem codeIn_channelState (x : ChannelState) :
    codeIn [ChannelState.off, .driven, .cut, .direct, .fault] x = byte1 (ChannelState.number x) := by cases x <;> rfl
theorem codeIn_part (x : CarrierPart) : codeIn [CarrierPart.rest, .high, .low] x = byte1 (CarrierPart.number x) := by cases x <;> rfl
theorem codeIn_holder (x : Option Link) :
    codeIn [none, some Link.drive, some .body] x = byte1 (holderNumber x) := by rcases x with _ | _ | _ <;> rfl
theorem codeIn_compMode (x : CompMode) : codeIn [CompMode.above, .below, .outside] x = byte1 (CompMode.number x) := by
  cases x <;> rfl
theorem codeIn_reference (x : Reference) : codeIn [Reference.low, .mid, .high] x = byte1 (Reference.number x) := by cases x <;> rfl

theorem codeOrNone_wheel (o : Option Wheel) :
    codeOrNone [Wheel.left, .right] o = opt1 (o.map Wheel.number) := by rcases o with _ | _ | _ <;> rfl
theorem codeOrNone_range (o : Option Range) :
    codeOrNone [Range.work, .transport] o = opt1 (o.map Range.number) := by rcases o with _ | _ | _ <;> rfl
theorem codeOrNone_phase (o : Option Phase) :
    codeOrNone [Phase.lift, .settle] o = opt1 (o.map Phase.number) := by rcases o with _ | _ | _ <;> rfl
theorem codeOrNone_link (o : Option Link) :
    codeOrNone [Link.drive, .body] o = opt1 (o.map Link.number) := by rcases o with _ | _ | _ <;> rfl
theorem codeOrNone_slow (o : Option SlowItem) :
    codeOrNone [SlowItem.a6, .a7, .a8, .reference] o = opt1 (o.map SlowItem.number) := by
  rcases o with _ | _ | _ | _ | _ <;> rfl
theorem shift_code (x : Shift) :
    (if x = .none then [0xFF] else codeIn [Shift.waiting, .settling] x) = opt1 (Shift.number x) := by cases x <;> rfl
theorem faultKind_code (x : FaultKind) :
    (if x = .none then [0xFF] else codeIn [FaultKind.openLoad, .shortLoad] x) = opt1 (FaultKind.number x) := by
  cases x <;> rfl

theorem channelKind_code (ch : Channel) :
    codeIn [ChannelKind.prop, .switch, .duty, .pulse]
      (if ch = 14 then .duty else if 15 ≤ ch.val then .pulse else if isPropChannel ch then .prop else .switch) =
    byte1 (ChannelKind.number (channelKind ch)) := by
  revert ch
  decide

/-! ### The set of active slots (R62) -/

/-- A number below 2 ^ k takes a flag as its bit k. -/
theorem testBit_add_flagBit {n k : Nat} (h : n < 2 ^ k) (b : Bool) (j : Nat) :
    n + flagBit b k < 2 ^ (k + 1) ∧ (n + flagBit b k).testBit j = if j = k then b else n.testBit j := by
  have high := Nat.testBit_lt_two_pow h
  cases b with
  | false =>
    refine ⟨?_, ?_⟩
    · simp only [flagBit, Bool.false_eq_true, if_false]; omega
    · simp only [flagBit, Bool.false_eq_true, if_false, Nat.add_zero]
      split
      · next e => rw [e, high]
      · rfl
  | true =>
    refine ⟨?_, ?_⟩
    · simp only [flagBit, if_true]; omega
    · simp only [flagBit, if_true]
      rw [Nat.add_comm]
      split
      · next e => rw [e, Nat.testBit_two_pow_add_eq, high]; rfl
      · next e =>
        rcases Nat.lt_or_gt_of_ne e with lt | gt
        · exact Nat.testBit_two_pow_add_gt lt n
        · rw [Nat.testBit_lt_two_pow (Nat.lt_of_lt_of_le h (Nat.pow_le_pow_right (by decide) (by omega)))]
          refine Nat.testBit_lt_two_pow (Nat.lt_of_lt_of_le (?_ : _ < 2 ^ (k + 1)) (Nat.pow_le_pow_right (by decide) gt))
          omega

/-- A sum of flags holds each at its place. -/
theorem testBit_flags (f : Nat → Bool) (m : Nat) :
    (List.range m).foldl (fun n k => n + flagBit (f k) k) 0 < 2 ^ m ∧
    ∀ j, ((List.range m).foldl (fun n k => n + flagBit (f k) k) 0).testBit j = (decide (j < m) && f j) := by
  induction m with
  | zero => exact ⟨Nat.one_pos, fun j => by simp⟩
  | succ m ih =>
    obtain ⟨below, bits⟩ := ih
    rw [List.range_succ, List.foldl_concat]
    have step := testBit_add_flagBit below (f m)
    refine ⟨(step 0).1, fun j => ?_⟩
    rw [(step j).2]
    split
    · next e => subst e; simp
    · next e =>
      rw [bits]
      have : j < m ↔ j < m + 1 := by omega
      simp [this]

theorem CeilingTable.activeSet_bits (t : CeilingTable) :
    t.activeSet < 65536 ∧ (∀ src : Source, t.activeSet.testBit src.slot.val = (t.entry src).active) ∧
    t.activeSet.testBit 14 = false ∧ t.activeSet.testBit 15 = false := by
  have flags : t.activeSet = (List.range 14).foldl (fun n k => n + flagBit
      (((Source.ofSlot k).map fun src => (t.entry src).active).getD false) k) 0 := rfl
  obtain ⟨below, bits⟩ := testBit_flags (fun k => ((Source.ofSlot k).map fun src => (t.entry src).active).getD false) 14
  rw [← flags] at below bits
  refine ⟨by omega, fun src => ?_, by rw [bits]; rfl, by rw [bits]; rfl⟩
  rw [bits, Source.ofSlot_slot]
  simp

/-- Two bytes of a number below 65536 hold its bits. -/
theorem bytes_getLsbD {n : Nat} (h : n < 65536) (k : Nat) (hk : k < 16) :
    (BitVec.ofNat 8 (n / 256) ++ BitVec.ofNat 8 n : Half).getLsbD k = n.testBit k := by
  have word := bytes_append (BitVec.ofNat 16 n)
  rw [BitVec.toNat_ofNat, Nat.mod_eq_of_lt h] at word
  rw [word, BitVec.getLsbD_ofNat, decide_eq_true hk, Bool.true_and]

/-! ### The lists of a record -/

theorem toList_eq_ofFn {α : Type} {n : Nat} (v : Vector α n) : v.toList = List.ofFn fun i : Fin n => v[i] := by
  apply List.ext_getElem
  · simp
  · intro i h1 h2; simp

theorem Snapshot.tallies_toList (x : Snapshot) : x.tallies.toList =
    ([0, 1, 2, 3, 4, 5, 6, 7, 8, 9, 10, 11, 12, 13, 14, 15, 16, 17, 18] : List (Fin 19)).map fun k => x.tallies[k] := by
  rw [toList_eq_ofFn]
  rfl

theorem Snapshot.page_eq (x : Snapshot) :
    let tally := fun (k : Fin 19) => byte4 x.tallies[k]
    x.page 0 = some (([0, 1, 2, 3, 4, 5] : List (Fin 19)).flatMap tally) ∧
    x.page 1 = some (([6, 7, 8, 9, 10, 11] : List (Fin 19)).flatMap tally) ∧
    x.page 2 = some (([12, 13, 14, 15, 16, 17, 18] : List (Fin 19)).flatMap tally) ∧
    x.page 3 = some (byte4 x.taken.toNat ++ byte1 x.clear) := by
  simp only [Snapshot.page, Snapshot.tallies_toList]
  exact ⟨rfl, rfl, rfl, trivial⟩

/-! ### The runs, field by field -/

section Widths
variable (n : Nat) (i : Int) (b : Bool) (o : Option Nat)

@[simp] theorem byte1_length : (byte1 n).length = 1 := rfl
@[simp] theorem byte2_length : (byte2 n).length = 2 := rfl
@[simp] theorem byte4_length : (byte4 n).length = 4 := rfl
@[simp] theorem int2_length : (int2 i).length = 2 := rfl
@[simp] theorem int4_length : (int4 i).length = 4 := rfl
@[simp] theorem bool1_length : (bool1 b).length = 1 := rfl
@[simp] theorem opt1_length : (opt1 o).length = 1 := rfl
@[simp] theorem opt2_length : (opt2 o).length = 2 := rfl

end Widths

section Runs
variable (s : State)

theorem State.runs_length : s.travelRun.length = 35 ∧ s.ceilingRun.length = 15 ∧ s.governorRun.length = 24 ∧
    s.armsRun.length = 43 ∧ s.tankRun.length = 10 ∧ (∀ l, (s.linksRun l).length = 30) ∧
    (∀ src, (s.entryRun src).length = 13) ∧ (∀ ch, (s.channelRun ch).length = 20) ∧
    (∀ c, (s.resultRun c).length = 10) :=
  ⟨by simp [State.travelRun], by simp [State.ceilingRun], by simp [State.governorRun], by simp [State.armsRun, State.armRun],
    by simp [State.tankRun], fun _ => by simp [State.linksRun, State.linkRun], fun _ => by simp [State.entryRun],
    fun _ => by simp [State.channelRun], fun _ => by simp [State.resultRun]⟩

theorem Snapshot.page_length (x : Snapshot) : (x.page 0).map List.length = some 24 ∧ (x.page 1).map List.length = some 24 ∧
    (x.page 2).map List.length = some 28 ∧ (x.page 3).map List.length = some 5 := by
  obtain ⟨p0, p1, p2, p3⟩ := Snapshot.page_eq x
  rw [p0, p1, p2, p3]
  simp

theorem fault_beq (ch : Channel) : (s.output.stateOf ch == .fault) = decide (s.output.channels[ch].fault ≠ .none) := by
  unfold Output.stateOf ChannelRec.stateWith
  split
  · next h => rw [decide_eq_true h]; rfl
  · next h =>
    rw [decide_eq_false h]
    repeat' split
    all_goals rfl

theorem standing_code (c : CeilingTable) (src : Source) : c.standing src =
    if c.binding .forward = src ∧ c.binding .reverse = src then 2
    else if c.binding .forward = src then 0 else if c.binding .reverse = src then 1 else 3 := by
  have code : ∀ f r : Bool, (match f, r with
      | true, false => 0 | false, true => 1 | true, true => 2 | false, false => 3) =
      if f = true ∧ r = true then 2 else if f = true then 0 else if r = true then 1 else 3 := by decide
  have beq := code (c.binding .forward == src) (c.binding .reverse == src)
  simp only [beq_iff_eq] at beq
  exact beq

theorem input_code (d : DriveDir) (c : Fin 4) : opt1 (inputOf d c) = if c.val < 3 then byte1 (c.val + 2)
    else if d = .neutral then [0xFF] else codeIn [DriveDir.forward, .reverse] d := by
  obtain ⟨n, hn⟩ := c
  interval_cases n <;> cases d <;> rfl

theorem remaining_code (now : Time) (o : Option Time) : opt2 (o.map fun e => remaining now (some e)) =
    if o = none then [0xFF, 0xFF] else byte2 (remaining now o) := by
  cases o with
  | none => rw [if_pos rfl, Option.map_none]; decide
  | some e => rw [if_neg (by simp)]; rfl

theorem open_code (now : Micros) (c : ChannelRec) : opt2 (openRun now c) =
    byte2 (match c.openSince with | none => 0xFFFF | some e => min 200 (since now e / 1000)) := by
  unfold openRun
  cases c.openSince <;> rfl

theorem measured_code (m : Nat) (b : Bool) : opt2 (if b = true then some m else none) = byte2 (if b = true then m else 0xFFFF) := by
  cases b <;> rfl

end Runs

/-- Settles O15: numbers, parts and codings once, then every run unfolded over them. -/
theorem fieldsAndParts : Obligations.FieldsAndParts := by
  refine ⟨fun n hn => ⟨_, _, rfl, byte2_toNat hn⟩, fun n hn => ⟨_, _, _, _, rfl, byte4_toNat hn⟩, fun i lo hi => ⟨_, _, rfl, ?_⟩,
    fun i lo hi => ⟨_, _, _, _, rfl, ?_⟩, rfl, rfl, answerData_nil, fun run p hp => partOf_within hp, fun run p hp => if_pos hp,
    State.runs_length, Snapshot.page_length, fun s => ?_, fun a => ?_, rfl, fun p => ?_, Snapshot.page_eq⟩
  · rw [word, bytes_append, BitVec.toInt_ofInt_eq_self (by decide) lo (by omega)]
  · rw [bytes_append4, BitVec.toInt_ofInt_eq_self (by decide) lo (by omega)]
  · intro dirs drives ranges links bits until_
    refine ⟨?_, ?_, ?_, ?_, ?_, ?_, ?_, ?_, ?_, ?_, ?_, ?_, ?_, ?_, ?_⟩
    · simp only [State.travelRun, dirs, bits, until_, codeIn_dir, codeIn_bool, codeOrNone_wheel, List.append_assoc]
    · obtain ⟨below, active, bit14, bit15⟩ := CeilingTable.activeSet_bits s.ceiling
      have bit := bytes_getLsbD below
      refine ⟨BitVec.ofNat 8 s.ceiling.activeSet, BitVec.ofNat 8 (s.ceiling.activeSet / 256),
        fun src => (bit _ (by omega)).trans (active src), (bit 14 (by decide)).trans bit14,
        (bit 15 (by decide)).trans bit15, ?_⟩
      simp only [State.ceilingRun, dirs, bits, codeIn_dir, codeIn_bool, List.append_assoc]
      rfl
    · simp only [State.governorRun, drives, ranges, bits, until_, codeIn_drive, codeIn_range, codeIn_bool, codeOrNone_range,
        shift_code, List.append_assoc]
    · intro first middle side
      simp only [State.armsRun, State.armRun, first, middle, side, bits, until_, codeIn_arm, codeIn_bool, codeOrNone_phase,
        List.append_assoc, List.headD_eq_head?_getD, if_true, List.nil_append]
      rfl
    · intro bar
      simp only [State.sprayRun, State.barRun, bar, bits, until_, codeIn_bool]
    · simp only [State.tankRun, bits, codeIn_tank, codeIn_bool, fault_beq]
      rfl
    · intro per l
      simp only [State.linksRun, State.linkRun, per, links, until_, codeIn_link, codeIn_linkState, codeOrNone_link,
        Option.map_map]
      rfl
    · simp only [State.modeRun, links, ranges, until_, codeIn_mode, codeOrNone_link, codeOrNone_range, Option.map_map,
        remaining_code]
      rfl
    · intro src e forward reverse
      simp only [State.entryRun, bits, codeIn_bool, standing_code]
      cases src <;> rfl
    · intro ch c k
      simp only [State.channelRun, bits, channelKind_code, codeIn_channelState, faultKind_code, codeIn_holder, codeIn_bool,
        codeIn_part, measured_code, open_code]
      rfl
    · intro c
      simp only [State.resultRun, bits, codeIn_bool]
    · intro f
      simp only [State.refRun, bits, codeIn_bool]
    · intro c
      simp only [State.compRun, bits, codeIn_bool, codeIn_compMode, input_code]
    · simp only [State.converterRun, bits, codeIn_bool, codeIn_reference, codeOrNone_slow]
      rcases s.scan.slow with _ | ⟨i, _ | _ | _⟩ <;> rfl
    · intro l
      rfl
  · simp only [alarmRun, codeIn_bool]
  · simp only [Program.page, codeIn_bool]
    exact ⟨trivial, trivial, rfl, rfl⟩

end Sys2Proof.Machine
end

section
/-! The Ceiling Table, the demand, the alarm requests and the tallies (R48, R56 to R59, R66, R193, R196 to R198). -/

namespace Sys2Proof.Machine

/-! ### The ceiling (R56) -/

theorem CeilingTable.applies_iff (t : CeilingTable) (d : Dir) (src : Source) :
    t.applies d src = true ↔ (t.entry src).active = true ∧ (src = .reverseArms → d = .reverse) := by
  unfold CeilingTable.applies
  rw [Bool.and_eq_true]
  refine and_congr_right fun _ => ?_
  cases src <;> cases d <;> decide

theorem Source.urgent_iff (src : Source) : src.urgent = true ↔ src = .driveLoss ∨ src = .driveFault := by
  cases src <;> decide

/-! ### A change of the table (R58, R59) -/

/-- Beside the table, a change moves CEILING_BINDING and the urgent stops alone. -/
theorem State.changeCeiling_beside (f : CeilingTable → CeilingTable) (s : State) :
    let t := s.changeCeiling f
    t.notices.alarms = s.notices.alarms ∧
    (∀ l : Link, (t.notices.events l).mask = (s.notices.events l).mask ∧
      ∀ k : EventKind, k ≠ .ceilingBinding → (t.notices.events l).sameKind (s.notices.events l) k) ∧
    (∀ x : Tally, x ≠ .urgentStops → t.bank.tallies[x.index] = s.bank.tallies[x.index]) ∧
    t = { s with ceiling := t.ceiling, notices := t.notices, bank := { s.bank with tallies := t.bank.tallies } } := by
  intro t
  obtain ⟨-, -, notices, bank⟩ := State.changeCeiling_spec f s
  have post := fun l : Link => EventSet.post_spec .ceilingBinding (s.notices.events l)
  refine ⟨?_, fun l => ?_, fun x hx => ?_, ?_⟩
  · rcases notices with h | h
    · rw [h]
    · rw [h, State.postBoth_alarms]
  · rcases notices with h | h
    · rw [h]; exact ⟨rfl, fun _ _ => ⟨rfl, rfl⟩⟩
    · rw [h, State.postBoth_events]; exact ⟨(post l).2.2.1, (post l).2.2.2⟩
  · rcases bank with h | h
    · rw [h]
    · rw [h]; exact (State.bumpBy_tallies .urgentStops 1 s).2 x hx
  · have whole : t.bank = { s.bank with tallies := t.bank.tallies } := by
      rcases bank with h | h
      · rw [h]
      · rw [h]; rfl
    exact State.eq_of_fields (by simp [t]) (by simp [t]) (by simp [t]) (by simp [t]) rfl (by simp [t]) (by simp [t])
      (by simp [t]) (by simp [t]) (by simp [t]) (by simp [t]) rfl whole (by simp [t]) (by simp [t]) (by simp [t])

theorem State.reportHeld_dir (d : Dir) (s : State) :
    s.reportHeld (match d with | .forward => .forward | .reverse => .reverse) =
      s.changeCeiling fun t => { t with reportDir := d } := by
  cases d <;> rfl

/-- Settles O30: the search leaves the lowest of the least caps, and each post is one change of the table. -/
theorem ceilingIsLowestCap : Obligations.CeilingIsLowestCap := by
  refine ⟨fun c d hm => ?_, fun src cap s => ?_, ?_⟩
  · obtain ⟨-, applies, least⟩ := c.binding_leads d hm
    have all : ∀ src, src ∈ Source.all := fun src => by cases src <;> decide
    refine ⟨(c.applies_iff d _).1 applies, rfl, fun src hs => (least src (all src) ((c.applies_iff d src).2 hs)).1,
      fun src hs he => (least src (all src) ((c.applies_iff d src).2 hs)).2 he, Source.urgent_iff _⟩
  · intro a only
    have post (f : CeilingEntry → CeilingEntry) := State.changeCeiling_beside (CeilingTable.modEntry src f) s
    obtain ⟨aActive, aCap, aSince, aSettles⟩ := State.activate_spec src cap s
    obtain ⟨uActive, uCap, uSince, uSettles⟩ := State.updateCap_spec src cap s
    obtain ⟨dActive, dCap, dSince, dSettles⟩ := State.deactivate_spec src s
    refine ⟨⟨aActive, aCap, aSince, ⟨State.activate_reports .., fun x hx => State.activate_other cap hx, post _⟩,
        aSettles.report⟩,
      ⟨uActive, uCap, uSince, ⟨State.updateCap_reports .., fun x hx => State.updateCap_other cap hx, post _⟩,
        uSettles.report⟩,
      ⟨dActive, dCap, dSince, ⟨State.deactivate_reports .., fun x hx => State.deactivate_other hx, post _⟩,
        dSettles.report⟩, rfl, fun d => ?_⟩
    intro t
    have held : t = s.changeCeiling fun c => { c with reportDir := d } := State.reportHeld_dir d s
    obtain ⟨entries, dir, -, -⟩ := State.changeCeiling_spec (fun c => { c with reportDir := d }) s
    have beside := State.changeCeiling_beside (fun c => { c with reportDir := d }) s
    have reports := State.changeCeiling_reports (fun c => { c with reportDir := d }) s rfl fun _ => rfl
    rw [← held] at entries dir reports
    dsimp only at beside
    rw [← held] at beside
    exact ⟨⟨reports, fun x _ => entries x, beside⟩, entries src, dir⟩
  · exact ⟨rfl, rfl, rfl, rfl, rfl, rfl, rfl, rfl, fun src => by cases src <;> decide⟩

/-! ### The demand (R66) -/

theorem State.holdDemand_keeps {d : DriveDir} {m : Nat} {s : State} (h : s.unit.mode ≠ .service ∨ m = 0) :
    s.holdDemand d m = { s with gov := { s.gov with demandDir := d, demandMag := min 1000 m } } :=
  if_neg fun ⟨pos, service⟩ => h.elim (fun hn => hn service) fun hm => by omega

theorem State.holdDemand_leaves {d : DriveDir} {m : Nat} {s : State} (hs : s.unit.mode = .service) (hm : m ≠ 0) :
    s.holdDemand d m = ({ s with gov := { s.gov with demandDir := d, demandMag := min 1000 m } } : State).leaveService :=
  if_pos ⟨by omega, hs⟩

theorem demandDirOf_eq_none {n : Nat} (h : 2 < n) : demandDirOf n = none := by
  unfold demandDirOf
  split <;> first | omega | rfl

/-- Settles O31: the demand is held, and what SERVICE does then is `State.leaveService`. -/
theorem demandIsHeld : Obligations.DemandIsHeld := fun h dir magnitude s hp => by
  have demand {c : Code} {t : State} (ha : (s.taken h).driveDemand h.link dir magnitude = answer c t) :
      exec (.driveDemand h dir magnitude) s = .next (t.answered h 18 c []) :=
    congrArg Host.Outcome.next (State.serve_eq_answered hp ha)
  refine ⟨⟨fun hl => demand (by rw [hl]; rfl), fun hl hd => demand ?_⟩, fun d hl hd => ?_⟩
  · rw [hl]
    simp only [State.driveDemand, demandDirOf_eq_none hd]
  · have held : (s.taken h).driveDemand h.link dir magnitude = answer .done ((s.taken h).holdDemand d magnitude.toNat) := by
      rw [hl]
      unfold State.driveDemand
      rw [hd]
      cases d <;> rfl
    rw [← State.taken_gov h s, ← State.taken_unit h s]
    refine ⟨fun hm => ?_, fun hs hm => ?_⟩
    · rw [demand held, State.holdDemand_keeps (hm.imp_right fun hz => by rw [hz]; rfl)]
    · rw [demand held, State.holdDemand_leaves hs fun hz => hm (BitVec.eq_of_toNat_eq hz)]
      exact ⟨_, rfl, State.leaveService_spec _⟩

/-! ### CLEAR_ALARM (R193) -/

/-- A code's number is its place in the table of R190, from 1. -/
theorem AlarmCode.ofNumber_number (c : AlarmCode) : AlarmCode.ofNumber (AlarmCode.number c) = some c := by cases c <;> rfl

theorem AlarmCode.ofNumber_eq_none {n : Nat} (h : n = 0 ∨ 13 < n) : AlarmCode.ofNumber n = none := by
  unfold AlarmCode.ofNumber
  split <;> first | omega | rfl

theorem AlarmCode.exists_ofNumber {n : Nat} (lo : 1 ≤ n) (hi : n ≤ 13) :
    ∃ c, AlarmCode.ofNumber n = some c ∧ AlarmCode.number c = n := by
  interval_cases n <;> exact ⟨_, rfl, rfl⟩

theorem AlarmCode.number_injective {a b : AlarmCode} (h : AlarmCode.number a = AlarmCode.number b) : a = b := by
  have e := congrArg AlarmCode.ofNumber h
  rw [AlarmCode.ofNumber_number, AlarmCode.ofNumber_number] at e
  exact Option.some.inj e

theorem Alarm.hasKey_iff_number {c : AlarmCode} {d : Nat} {a : Alarm} :
    a.hasKey c d = true ↔ AlarmCode.number a.code = AlarmCode.number c ∧ a.detail = d := by
  simp only [Alarm.hasKey, Bool.and_eq_true, beq_iff_eq]
  exact and_congr_left fun _ => ⟨fun h => by rw [h], AlarmCode.number_injective⟩

section ClearAlarm
variable {code detail : Byte} {c : AlarmCode} {s : State}

theorem State.clearAlarm_unknown (h : code.toNat = 0 ∨ 13 < code.toNat) :
    s.clearAlarm code detail = answer .unknown s := by
  simp only [State.clearAlarm, AlarmCode.ofNumber_eq_none h]

theorem State.clearAlarm_absent (hc : AlarmCode.ofNumber code.toNat = some c)
    (hn : ∀ a ∈ s.notices.alarms, ¬a.hasKey c detail.toNat = true) :
    s.clearAlarm code detail = answer .notActive s := by
  have find : s.notices.alarms.find? (Alarm.hasKey c detail.toNat) = none := List.find?_eq_none.2 hn
  simp only [State.clearAlarm, hc, find]

/-- The first entry with the key is found, and erased alone. -/
theorem State.clearAlarm_found {l r : List Alarm} {a : Alarm} (hc : AlarmCode.ofNumber code.toNat = some c)
    (hs : s.notices.alarms = l ++ a :: r) (ha : a.hasKey c detail.toNat = true)
    (hl : ∀ x ∈ l, ¬x.hasKey c detail.toNat = true) :
    s.clearAlarm code detail = if a.present = true then answer .active s
      else answer .done { s with notices := { s.notices with alarms := l ++ r } } := by
  have find : s.notices.alarms.find? (Alarm.hasKey c detail.toNat) = some a := by
    rw [hs, List.find?_append, List.find?_eq_none.2 hl, List.find?_cons, ha]
    rfl
  have erase : s.notices.alarms.eraseP (Alarm.hasKey c detail.toNat) = l ++ r := by
    rw [hs, List.eraseP_append_right _ hl, List.eraseP_cons_of_pos ha]
  simp only [State.clearAlarm, hc, find]
  split
  · rfl
  · simp only [State.modNotices, erase]

end ClearAlarm

/-! ### The events of one link (R196) -/

/-- An act on one link's event set leaves the other's and all else. -/
theorem State.modEvents_spec (l : Link) (f : EventSet → EventSet) (s : State) :
    let t := s.modNotices (Notices.modEvents l f)
    t.notices.events l = f (s.notices.events l) ∧ t.notices.events l.other = s.notices.events l.other ∧
    t.notices.alarms = s.notices.alarms ∧ t = { s with notices := t.notices } := by
  cases l <;> exact ⟨rfl, rfl, rfl, rfl⟩

theorem EventSet.acknowledge_spec (kinds : Half) (e : EventSet) (k : Fin 16) :
    (e.acknowledge kinds).pending.getLsbD k = (e.pending.getLsbD k && !kinds.getLsbD k) ∧
    (e.acknowledge kinds).counts[k] = if kinds.getLsbD k then 0 else e.counts[k] := by
  refine ⟨?_, by simp [EventSet.acknowledge]⟩
  have hk : k.val < 16 := k.isLt
  simp only [EventSet.acknowledge, BitVec.getLsbD_and, BitVec.getLsbD_not, hk, decide_true, Bool.true_and]

/-- Settles O34: the alarm found by its key, and an act on one link's event set. -/
theorem noticesAreHandled : Obligations.NoticesAreHandled := fun h code detail kinds s => by
  refine ⟨fun hp => ?_, fun hp => ?_, fun hp => ?_⟩
  · intro reply keyed
    have clear {c : Code} {t : State} (ha : (s.taken h).clearAlarm code detail = answer c t) :
        exec (.clearAlarm h code detail) s = .next (t.answered h 29 c []) :=
      congrArg Host.Outcome.next (State.serve_eq_answered hp ha)
    refine ⟨fun hn => clear (State.clearAlarm_unknown hn), fun lo hi hn => ?_, fun l r a lo hi hs ha hl => ?_⟩
    · obtain ⟨c, hc, number⟩ := AlarmCode.exists_ofNumber lo hi
      refine clear (State.clearAlarm_absent hc fun a ha hk => ?_)
      rw [State.taken_alarms] at ha
      rw [Alarm.hasKey_iff_number, number] at hk
      exact hn a ha hk
    · obtain ⟨c, hc, number⟩ := AlarmCode.exists_ofNumber lo hi
      have key : ∀ x, keyed x ↔ x.hasKey c detail.toNat = true := fun x => by rw [Alarm.hasKey_iff_number, number]
      have found := State.clearAlarm_found (s := s.taken h) hc (by rw [State.taken_alarms]; exact hs) ((key a).1 ha)
        fun x hx hk => hl x hx ((key x).2 hk)
      refine ⟨fun present => clear (by rw [found, if_pos present]), fun absent => ⟨_, clear ?_, rfl⟩⟩
      rw [found, if_neg (by rw [absent]; exact Bool.false_ne_true)]
  · obtain ⟨own, other, alarms, rest⟩ := State.modEvents_spec h.link (EventSet.acknowledge kinds) (s.taken h)
    refine ⟨_, congrArg Host.Outcome.next (State.serve_eq_answered hp rfl), ?_, other,
      alarms.trans (State.taken_alarms h s), rest⟩
    rw [own]
    exact ⟨fun k => EventSet.acknowledge_spec kinds _ k, rfl⟩
  · obtain ⟨own, other, alarms, rest⟩ := State.modEvents_spec h.link (fun e => { e with mask := kinds }) (s.taken h)
    exact ⟨_, congrArg Host.Outcome.next (State.serve_eq_answered hp rfl), own, other,
      alarms.trans (State.taken_alarms h s), rest⟩

end Sys2Proof.Machine
end

section
/-! The Tally Bank: the snapshot and the sweep second (R197, R198). -/

namespace Sys2Proof.Machine

theorem State.snapshot_spec (l : Link) (c : Nat) (s : State) :
    (s.snapshot l c).bank.snap l = ⟨s.bank.tallies, s.now, c⟩ ∧
    (s.snapshot l c).bank.snap l.other = s.bank.snap l.other ∧
    (s.snapshot l c).bank = { s.bank with
      tallies := if c = 1 then Vector.replicate 19 0 else s.bank.tallies
      snapDrive := (s.snapshot l c).bank.snapDrive, snapBody := (s.snapshot l c).bank.snapBody } ∧
    s.snapshot l c = { s with bank := (s.snapshot l c).bank } := by
  unfold State.snapshot
  by_cases hc : c = 1
  · subst hc; cases l <;> exact ⟨rfl, rfl, rfl, rfl⟩
  · simp only [State.modBank, hc, if_false]
    cases l <;> exact ⟨rfl, rfl, rfl, trivial⟩

/-- The notices after a snapshot: SNAPSHOT_TAKEN to its link, and with the clear flag TALLIES_CLEARED to both (R198). -/
def Notices.snapshotTaken (l : Link) (clears : Bool) (n : Notices) (k : Link) : EventSet :=
  let e := if k = l then (n.events l).post .snapshotTaken else n.events k
  if clears then e.post .talliesCleared else e

theorem State.takeSnapshot_taken (l : Link) {clear : Byte} (hc : clear.toNat ≤ 1) (s : State) :
    ∃ t, s.takeSnapshot l clear = answer .done t ∧ t.bank = (s.snapshot l clear.toNat).bank ∧
      (∀ k, t.notices.events k = s.notices.snapshotTaken l (clear.toNat == 1) k) ∧
      t.notices.alarms = s.notices.alarms ∧ t = { s with bank := t.bank, notices := t.notices } := by
  have step : s.takeSnapshot l clear = answer .done (if clear.toNat = 1 then
      ((s.snapshot l clear.toNat).post .snapshotTaken l).postBoth .talliesCleared
    else (s.snapshot l clear.toNat).post .snapshotTaken l) := if_neg (by omega)
  refine ⟨_, step, ?_⟩
  obtain ⟨-, -, -, rest⟩ := State.snapshot_spec l clear.toNat s
  generalize s.snapshot l clear.toNat = v at *
  have notices : v.notices = s.notices := by rw [rest]
  have posted : ∀ k, (v.post .snapshotTaken l).notices.events k =
      if k = l then (s.notices.events l).post .snapshotTaken else s.notices.events k := fun k => by
    rw [State.post_events, notices]
  have postRest : v.post .snapshotTaken l = { s with bank := v.bank, notices := (v.post .snapshotTaken l).notices } := by
    rw [rest]; rfl
  have alarms : (v.post .snapshotTaken l).notices.alarms = s.notices.alarms := by rw [State.post_alarms, notices]
  generalize v.post .snapshotTaken l = w at *
  have bank : w.bank = v.bank := by rw [postRest]
  split
  · next hc =>
    refine ⟨bank, fun k => ?_, alarms, ?_⟩
    · rw [State.postBoth_events, posted, hc]; rfl
    · rw [postRest]; rfl
  · next hn =>
    refine ⟨bank, fun k => ?_, alarms, ?_⟩
    · rw [posted, Notices.snapshotTaken, beq_false_of_ne hn]; rfl
    · rw [postRest]

theorem EventSet.sameKind_refl (e : EventSet) (k : EventKind) : e.sameKind e k := ⟨rfl, rfl⟩

/-- What the notices of a snapshot move: the kinds of its postings, each once. -/
theorem Notices.snapshotTaken_spec (l : Link) (b : Bool) (n : Notices) (k : Link) :
    (n.snapshotTaken l b k).mask = (n.events k).mask ∧
    (k = l → (n.snapshotTaken l b k).pending.getLsbD 15 = true ∧
      (n.snapshotTaken l b k).counts[15] = min 15 ((n.events k).counts[15] + 1)) ∧
    (b = true → (n.snapshotTaken l b k).pending.getLsbD EventKind.talliesCleared.index = true ∧
      (n.snapshotTaken l b k).counts[EventKind.talliesCleared.index] =
        min 15 ((n.events k).counts[EventKind.talliesCleared.index] + 1)) ∧
    (b = false → (n.snapshotTaken l b k).sameKind (n.events k) .talliesCleared) ∧
    ∀ e : EventKind, e ≠ .talliesCleared → e ≠ .snapshotTaken ∨ k ≠ l →
      (n.snapshotTaken l b k).sameKind (n.events k) e := by
  unfold Notices.snapshotTaken
  dsimp only
  generalize hw : (if k = l then (n.events l).post .snapshotTaken else n.events k) = w
  have first : w.mask = (n.events k).mask ∧
      (k = l → w.pending.getLsbD 15 = true ∧ w.counts[15] = min 15 ((n.events k).counts[15] + 1)) ∧
      ∀ e : EventKind, e ≠ .snapshotTaken ∨ k ≠ l → w.sameKind (n.events k) e := by
    subst hw
    split
    · next same =>
      subst same
      obtain ⟨pending, count, mask, others⟩ := EventSet.post_spec .snapshotTaken (n.events k)
      exact ⟨mask, fun _ => ⟨pending, count⟩, fun e he => others e (he.resolve_right fun hn => hn rfl)⟩
    · next differs => exact ⟨rfl, fun same => absurd same differs, fun e _ => EventSet.sameKind_refl _ e⟩
  clear hw
  obtain ⟨mask, own, others⟩ := first
  have cleared := others .talliesCleared (.inl (by decide))
  cases b with
  | false => exact ⟨mask, own, (fun h => nomatch h), fun _ => cleared, fun e _ he => others e he⟩
  | true =>
    obtain ⟨pending', count', mask', others'⟩ := EventSet.post_spec .talliesCleared w
    have snap := others' .snapshotTaken (by decide)
    refine ⟨mask'.trans mask, fun same => ⟨snap.1.trans (own same).1, snap.2.trans (own same).2⟩,
      fun _ => ⟨pending', count'.trans (by rw [cleared.2])⟩, (fun h => nomatch h),
      fun e hc he => EventSet.sameKind_trans (others e he) (others' e hc)⟩

/-- The port's step 1 leaves the masks (R195). -/
theorem State.taken_masks (h : Head) (s : State) (l : Link) :
    ((s.taken h).notices.events l).mask = (s.notices.events l).mask := by
  have start : (s.refreshed h).notices = s.notices := by simp [State.refreshed, State.modLink]
  by_cases becomes : ((s.taken h).link h.link).state = .live ∧ (s.link h.link).state ≠ .live
  · have settles := (State.deactivate_spec (lossEntry h.link) (s.refreshed h)).2.2.2
    rw [State.taken_becomesLive becomes.1 becomes.2, settles.masks, start]
  · rw [State.taken_stays (by tauto), start]

theorem State.sweepSecond_full {s : State} (full : 1000 ≤ s.bank.sweepRem) : s.sweepSecond = { s with bank := { s.bank with
    sweepRem := s.bank.sweepRem - 1000
    tallies := s.bank.tallies.set 16 (min 16777215 (s.bank.tallies[16] + 1)) } } := by
  have limit : Tally.limit .sweepTime = 16777215 := rfl
  have place : Tally.index .sweepTime = 16 := rfl
  unfold State.sweepSecond
  rw [if_pos full]
  simp only [State.bump, State.bumpBy, State.modBank, limit, place]
  rfl

/-- Settles O35: the copy and its postings, and the second of the remainder. -/
theorem talliesAreKept : Obligations.TalliesAreKept := by
  refine ⟨fun h clear s hp => ⟨fun hc => ?_, fun hc => ?_⟩, fun after s => ?_⟩
  · exact congrArg Host.Outcome.next (State.serve_eq_answered hp (if_pos hc))
  · obtain ⟨t, taken, bank, events, alarms, rest⟩ := State.takeSnapshot_taken h.link hc (s.taken h)
    refine ⟨t, congrArg Host.Outcome.next (State.serve_eq_answered hp taken), ?_⟩
    obtain ⟨own, other, tallies, -⟩ := State.snapshot_spec h.link clear.toNat (s.taken h)
    rw [← bank] at own other tallies
    have now : t.now = (s.taken h).now := by rw [rest]; rfl
    have one : clear = 1 ↔ clear.toNat = 1 := ⟨fun e => by rw [e]; rfl, fun e => BitVec.eq_of_toNat_eq e⟩
    have spec := fun k => Notices.snapshotTaken_spec h.link (clear.toNat == 1) (s.taken h).notices k
    simp only [← events] at spec
    refine ⟨own.trans (by rw [now]), other.trans (State.taken_snap h _ s), ?_, ((spec h.link).2.1 rfl).1,
      ((spec h.link).2.1 rfl).2, fun e l => (spec l).2.2.1 (beq_iff_eq.2 (one.1 e)),
      fun l => ((spec l).1).trans (State.taken_masks h s l), fun l k => (spec l).2.2.2.2 k,
      fun e l => (spec l).2.2.2.1 (by rw [e]; rfl), alarms.trans (State.taken_alarms h s), rest⟩
    simp only [one]
    exact tallies
  · refine ⟨fun full => ?_, ?_⟩
    · exact congrArg Host.Outcome.next (State.sweepSecond_full full)
    · by_cases hm : s.unit.mode = .sweep
      · simp [State.elapse, hm]
      · simp [State.elapse, hm]

end Sys2Proof.Machine
end

section
/-! The range request's completion and the stall timer (R7, R11, R28, R77, R80). -/

namespace Sys2Proof.Machine

/-! ### The bars while none is active -/

section Idle
variable {s : State}

/-- A bar that is not active and may not be stands through a judgement. -/
theorem State.judgeBar_idle {b : Bar} (ha : (s.spray.bar b).active = false) (hm : s.barMayBeActive b = false) :
    s.judgeBar b = s := by
  simp [State.judgeBar, ha, hm]

theorem State.holdOwed_idle {b : Bar} (ha : (s.spray.bar b).active = false) : s.holdOwed b = s := by
  simp [State.holdOwed, ha]

/-- With no bar active and none to become so, a judgement moves no water. -/
theorem State.judgeBars_idle (ha : ∀ b, (s.spray.bar b).active = false) (hm : ∀ b, s.barMayBeActive b = false) :
    s.judgeBars.spray = s.spray ∧ s.judgeBars.output = s.output := by
  have bars : Bar.all.foldl State.judgeBar s = s := by
    simp only [Bar.all, List.foldl, State.judgeBar_idle (ha _) (hm _)]
  have pump : s.judgePump s.spray.anyActive = s := by
    unfold State.judgePump
    cases s.spray.anyActive <;> rfl
  unfold State.judgeBars
  dsimp only
  rw [bars, pump]
  simp [State.judgeDrySweep]

theorem State.programChanged_idle (ha : ∀ b, (s.spray.bar b).active = false) (hm : s.unit.mode ≠ .sweep) :
    s.programChanged.spray = s.spray ∧ s.programChanged.output = s.output := by
  have capped : ∃ u : State, u.spray = s.spray ∧ u.output = s.output ∧ u.unit = s.unit ∧
      s.programChanged = u.sprayProgramChange := ⟨_, by simp [State.writeModeCap], by simp [State.writeModeCap],
        by simp [State.writeModeCap], rfl⟩
  obtain ⟨u, spray, output, unit, e⟩ := capped
  have idle : ∀ b, (u.spray.bar b).active = false := fun b => by rw [spray]; exact ha b
  have barred : ∀ b, u.barMayBeActive b = false := fun b => by simp [State.barMayBeActive, unit, hm]
  obtain ⟨judged, posted⟩ := State.judgeBars_idle idle barred
  have stands : ∀ b, (u.judgeBars.spray.bar b).active = false := fun b => by rw [judged]; exact idle b
  have held : Bar.all.foldl State.holdOwed u.judgeBars = u.judgeBars := by
    simp only [Bar.all, List.foldl, State.holdOwed_idle (stands _)]
  rw [e]
  unfold State.sprayProgramChange
  rw [held]
  simp [judged, posted, spray, output]

end Idle

/-! ### A change of the work mode -/

/-- One judgement is told by the spray, the setpoints and the start duty alone. -/
theorem State.barsSettled_congr {u u' t t' : State} (h : State.barsSettled u t) (hu : u'.spray = u.spray)
    (huo : u'.output = u.output) (hus : u'.settings = u.settings) (ht : t'.spray = t.spray)
    (hto : ∀ ch : Channel, 14 ≤ ch.val → t'.output.channels[ch] = t.output.channels[ch]) : State.barsSettled u' t' := by
  unfold State.barsSettled at *
  have pump := hto 14 le_rfl
  have valve : ∀ b : Bar, t'.output.channels[b.valve] = t.output.channels[b.valve] :=
    fun b => hto _ ((Bar.valve_ge b).trans' (by decide))
  simp only [hu, huo, hus, ht, pump, valve]
  exact h

/-- A change of the mode posts MODE_CHANGED once and judges the bars once (R4, R117). -/
theorem State.setMode_once (m : Mode) (s : State) :
    s.postedOnce .modeChanged (s.setMode m) ∧ State.barsSettled s (s.setMode m) := by
  have capped := (State.updateCap_spec .mode (State.modeCap (s.modUnit fun u => { u with mode := m }))
    (s.modUnit fun u => { u with mode := m })).2.2.2
  have e : s.setMode m = ((State.updateCap .mode (State.modeCap (s.modUnit fun u => { u with mode := m }))
    (s.modUnit fun u => { u with mode := m })).postBoth .modeChanged).judgeBars := rfl
  have frame : ∀ cap, (State.updateCap .mode cap (s.modUnit fun u => { u with mode := m })).spray = s.spray ∧
      (State.updateCap .mode cap (s.modUnit fun u => { u with mode := m })).output = s.output := fun _ => by simp
  obtain ⟨spray, output⟩ := frame (State.modeCap (s.modUnit fun u => { u with mode := m }))
  rw [e]
  generalize State.updateCap .mode _ (s.modUnit fun u => { u with mode := m }) = v at *
  obtain ⟨settles, -, settled⟩ := State.judgeBars_spec (v.postBoth .modeChanged)
  have once := State.postBoth_once .modeChanged v
  have settings : v.settings = s.settings := by rw [capped.rest]; rfl
  refine ⟨State.postedOnce_after_same (State.postedOnce_of_same once fun l => settles.events l _ (by simp) (by decide))
    fun l => capped.events l _ (by simp) (by decide), ?_⟩
  exact State.barsSettled_congr settled spray.symm output.symm settings.symm rfl fun _ _ => rfl

/-! ### The unit takes a range-done (R7, R11, R28) -/

/-- A range-done that the unit discards. -/
theorem State.takesRangeDone_refl {r : Range} {s : State} (h : s.unit.awaited ≠ some r ∨
    (s.unit.mode = .entering → r ≠ .work) ∧ (s.unit.mode = .leaving → r ≠ .transport)) : State.TakesRangeDone r s s where
  discards _ := rfl
  starts ha hm hr := (h.elim (fun hn => hn ha) fun hn => hn.1 hm hr).elim
  waits ha hm hr _ := (h.elim (fun hn => hn ha) fun hn => hn.2 hm hr).elim
  returns ha hm hr _ := (h.elim (fun hn => hn ha) fun hn => hn.2 hm hr).elim
  changes hn := absurd rfl hn
  stands _ := ⟨rfl, fun _ _ => rfl, fun _ _ => ⟨rfl, rfl, rfl⟩, fun _ => ⟨rfl, rfl⟩⟩
  swaps _ := ⟨⟨rfl, rfl, rfl⟩, rfl, fun _ => ⟨rfl, rfl⟩⟩
  channels _ _ _ := rfl
  entries _ _ := ⟨rfl, rfl, rfl⟩

/-- ENTERING ends with the work range (R7). -/
theorem State.takesRangeDone_sweep {s : State} (ha : s.unit.awaited = some .work) (hm : s.unit.mode = .entering) :
    State.TakesRangeDone .work s ((s.modUnit fun u => { u with awaited := none }).setMode .sweep) := by
  obtain ⟨settles, cap, judged⟩ := State.setMode_spec .sweep (s.modUnit fun u => { u with awaited := none })
  obtain ⟨once, settled⟩ := State.setMode_once .sweep (s.modUnit fun u => { u with awaited := none })
  generalize State.setMode .sweep (s.modUnit fun u => { u with awaited := none }) = t at *
  have unit : t.unit = { s.unit with mode := .sweep, awaited := none } := by rw [settles.rest]; rfl
  have moved : t.unit.mode ≠ s.unit.mode := by rw [unit, hm]; simp
  exact {
    discards := fun h => (h.elim (fun hn => hn ha) fun hn => hn.1 hm rfl).elim
    starts := fun _ _ _ => ⟨unit, cap⟩
    waits := fun _ hl _ _ => by rw [hm] at hl; cases hl
    returns := fun _ hl _ _ => by rw [hm] at hl; cases hl
    changes := fun _ => ⟨once, judged, settled⟩
    stands := fun h => absurd h moved
    swaps := fun _ => ⟨settles.entries _ (by decide) (by decide) (by decide), settles.tallies _ (by simp) (by decide),
      fun l => settles.events l _ (by decide) (by decide)⟩
    channels := fun ch _ hc => settles.channels ch hc
    entries := fun src hs => settles.entries src (by simp at hs ⊢; tauto) (by simp at hs; tauto) (by simp at hs; tauto) }

/-- LEAVING waits for an arm with the transport range reached (R11). -/
theorem State.takesRangeDone_wait {s : State} (ha : s.unit.awaited = some .transport) (hm : s.unit.mode = .leaving)
    (hd : s.arms.allDown = false) :
    State.TakesRangeDone .transport s (s.modUnit fun u => { u with reached := true }) := by
  have out : ¬∀ a : Arm, (s.arm a).state = .stowed ∨ (s.arm a).state = .fault := fun h => by
    rw [(Arms.allDown_iff s.arms).2 h] at hd; cases hd
  exact {
    discards := fun h => (h.elim (fun hn => hn ha) fun hn => hn.2 hm rfl).elim
    starts := fun _ he _ => by rw [hm] at he; cases he
    waits := fun _ _ _ _ => rfl
    returns := fun _ _ _ hdown => absurd hdown out
    changes := fun hn => absurd rfl hn
    stands := fun _ => ⟨rfl, fun _ _ => rfl, fun _ _ => ⟨rfl, rfl, rfl⟩, fun _ => ⟨rfl, rfl⟩⟩
    swaps := fun _ => ⟨⟨rfl, rfl, rfl⟩, rfl, fun _ => ⟨rfl, rfl⟩⟩
    channels := fun _ _ _ => rfl
    entries := fun _ _ => ⟨rfl, rfl, rfl⟩ }

/-- The state with a pending swap in its slot, before its caps and its judgement (R27). -/
def State.withSwap (w : Swap) (s : State) : State :=
  { s with unit := { s.unit with
    slots := s.unit.slots.set w.target (some w.record), active := some w.target, swap := none } }

theorem State.applySwap_some {s : State} {w : Swap} (hw : s.unit.swap = some w) :
    s.applySwap = ((s.withSwap w).postBoth .programSwapped).programChanged := by
  simp only [State.applySwap, hw]
  rfl

/-- A pending swap applied in TRANSPORT with no bar active moves no water; its caps and its posting (R27, R28). -/
theorem State.applySwap_idle {s : State} {w : Swap} (hw : s.unit.swap = some w)
    (ha : ∀ b, (s.spray.bar b).active = false) (hm : s.unit.mode = .transport) :
    s.applySwap.spray = s.spray ∧ s.applySwap.output = s.output ∧ s.postedOnce .programSwapped s.applySwap ∧
    (s.applySwap.ceiling.entry .mode).cap = s.settings.caps.transportMax := by
  rw [State.applySwap_some hw]
  have once := State.postBoth_once .programSwapped (s.withSwap w)
  have mode : ((s.withSwap w).postBoth .programSwapped).unit.mode = .transport := hm
  have bars : ∀ b, (((s.withSwap w).postBoth .programSwapped).spray.bar b).active = false := ha
  obtain ⟨spray, output⟩ := State.programChanged_idle bars (by rw [mode]; decide)
  obtain ⟨settles, cap, -⟩ := State.programChanged_spec ((s.withSwap w).postBoth .programSwapped)
  refine ⟨spray, output, State.postedOnce_of_same once fun l => settles.events l _ (by simp) (by decide), cap.trans ?_⟩
  simp only [State.modeCap, mode]
  rfl

/-- LEAVING ends with the transport range and every arm down, and a pending swap is applied (R11, R28). -/
theorem State.takesRangeDone_transport {s : State} (ha : s.unit.awaited = some .transport) (hm : s.unit.mode = .leaving)
    (hd : s.arms.allDown = true) : State.TakesRangeDone .transport s s.reachTransport := by
  have down := (Arms.allDown_iff s.arms).1 hd
  have e : s.reachTransport = ((s.modUnit fun u =>
      { u with awaited := none, requested := false, reached := false }).setMode .transport).applySwap := rfl
  obtain ⟨settles, cap, judged⟩ := State.setMode_spec .transport
    (s.modUnit fun u => { u with awaited := none, requested := false, reached := false })
  obtain ⟨once, settled⟩ := State.setMode_once .transport
    (s.modUnit fun u => { u with awaited := none, requested := false, reached := false })
  rw [e]
  generalize State.setMode .transport
    (s.modUnit fun u => { u with awaited := none, requested := false, reached := false }) = x at *
  have unit : x.unit = { s.unit with mode := .transport, awaited := none, requested := false, reached := false } := by
    rw [settles.rest]; rfl
  have settings : x.settings = s.settings := by rw [settles.rest]; rfl
  have capped : (x.ceiling.entry .mode).cap = s.settings.caps.transportMax := cap
  have swap : x.unit.swap = s.unit.swap := by rw [unit]
  have idle : ∀ b, (x.spray.bar b).active = false := fun b => by
    rw [judged.1 b]; simp [State.barMayBeActive, unit]
  have moved : ∀ t : State, t.unit.mode = .transport → t.unit.mode ≠ s.unit.mode := fun t ht => by rw [ht, hm]; decide
  have discards : ∀ {α : Prop}, (s.unit.awaited ≠ some .transport ∨
      (s.unit.mode = .entering → Range.transport ≠ .work) ∧ (s.unit.mode = .leaving → Range.transport ≠ .transport)) → α :=
    fun h => (h.elim (fun hn => hn ha) fun hn => hn.2 hm rfl).elim
  cases hw : s.unit.swap with
  | none =>
    rw [(State.applySwap_spec x).1 (swap.trans hw)]
    exact {
      discards := discards
      starts := fun _ he _ => by rw [hm] at he; cases he
      waits := fun _ _ _ ⟨a, ne, nf⟩ => ((down a).elim ne nf).elim
      returns := fun _ _ _ _ => ⟨by rw [unit]; exact congrArg (fun w => { s.unit with
          mode := .transport, awaited := none, requested := false, reached := false, swap := w }) hw, capped, fun _ => by rw [unit]; exact ⟨rfl, rfl⟩,
        fun w h => by rw [hw] at h; cases h⟩
      changes := fun _ => ⟨once, judged, settled⟩
      stands := fun h => absurd h (moved x (by rw [unit]))
      swaps := fun _ => ⟨settles.entries _ (by decide) (by decide) (by decide), settles.tallies _ (by simp) (by decide),
        fun l => settles.events l _ (by decide) (by decide)⟩
      channels := fun ch _ hc => settles.channels ch hc
      entries := fun src hs => settles.entries src (by simp at hs ⊢; tauto) (by simp at hs; tauto) (by simp at hs; tauto) }
  | some w =>
    have mode : x.unit.mode = .transport := by rw [unit]
    obtain ⟨spray, output, swapped, modeCap⟩ := State.applySwap_idle (swap.trans hw) idle mode
    obtain ⟨settles', reverse, dry, -, judged'⟩ := (State.applySwap_spec x).2 w (swap.trans hw)
    generalize x.applySwap = t at *
    have unit' : t.unit = { x.unit with
      slots := x.unit.slots.set w.target (some w.record), active := some w.target, swap := none } := by rw [settles'.rest]
    have mode' : t.unit.mode = .transport := by rw [unit', mode]
    exact {
      discards := discards
      starts := fun _ he _ => by rw [hm] at he; cases he
      waits := fun _ _ _ ⟨a, ne, nf⟩ => ((down a).elim ne nf).elim
      returns := fun _ _ _ _ => ⟨by rw [unit', unit], modeCap.trans (by rw [settings]), (fun h => by rw [hw] at h; cases h),
        fun w' h => by
          obtain rfl : w = w' := Option.some.inj (hw.symm.trans h)
          refine ⟨by rw [unit', unit], by rw [unit'], State.postedOnce_after_same swapped fun l => ?_, reverse, dry⟩
          exact settles.events l _ (by decide) (by decide)⟩
      changes := fun _ => ⟨State.postedOnce_of_same once fun l => settles'.events l _ (by decide) (by decide), judged',
        State.barsSettled_congr settled rfl rfl rfl spray fun ch _ => by rw [output]⟩
      stands := fun h => absurd h (moved t mode')
      swaps := fun h => by rw [hw, unit'] at h; cases h
      channels := fun ch _ hc => (settles'.channels ch hc).trans (settles.channels ch hc)
      entries := fun src hs => by
        have first := settles.entries src (by simp at hs ⊢; tauto) (by simp at hs; tauto) (by simp at hs; tauto)
        have second := settles'.entries src (by simp at hs ⊢; tauto) (by simp at hs; tauto) (by simp at hs; tauto)
        exact CeilingTable.sameEntry_trans first second }

theorem State.takeRangeDone_spec (r : Range) (s : State) : State.TakesRangeDone r s (s.takeRangeDone r) := by
  unfold State.takeRangeDone
  split
  · next ha => exact State.takesRangeDone_refl (.inl ha)
  · next ha =>
    have ha := not_not.1 ha
    split
    · next hm _ => exact State.takesRangeDone_sweep ha hm
    · next hm _ =>
      split
      · next hd => exact State.takesRangeDone_transport ha hm hd
      · next hd => exact State.takesRangeDone_wait ha hm (by simpa using hd)
    · next hw hl _ => exact State.takesRangeDone_refl (.inr ⟨fun hm hr => hw hm hr, fun hm hr => hl hm hr⟩)

/-- What a range-done may move, taken or discarded. -/
theorem State.takeRangeDone_settlesTo (r : Range) (s : State) :
    ∃ kinds : List EventKind, kinds ⊆ [.modeChanged, .programSwapped] ∧
      State.SettlesTo [.mode, .reverseArms] kinds [.shortfall] { s with unit := (s.takeRangeDone r).unit }
        (s.takeRangeDone r) := by
  unfold State.takeRangeDone
  split
  · exact ⟨[], by decide, State.settlesTo_refl _ _ _⟩
  · split
    · have settles := (State.setMode_spec .sweep (s.modUnit fun u => { u with awaited := none })).1
      generalize State.setMode .sweep (s.modUnit fun u => { u with awaited := none }) = t at *
      have unit : t.unit = { s.unit with mode := .sweep, awaited := none } := by rw [settles.rest]; rfl
      rw [unit]
      exact ⟨[.modeChanged], by decide, settles.weaken (by decide) (by decide)⟩
    · split
      · exact (State.reachTransport_spec s).1
      · exact ⟨[], by decide, State.settlesTo_refl _ _ _⟩
    · exact ⟨[], by decide, State.settlesTo_refl _ _ _⟩

/-- What a range-done has done stands through changes that leave the unit, the bars, and the events it posts. -/
theorem State.TakesRangeDone.after {r : Range} {u v t : State} (h : State.TakesRangeDone r u v) (unit : t.unit = v.unit)
    (spray : t.spray = v.spray) (arms : t.arms = v.arms)
    (channels : ∀ ch : Channel, 3 ≤ ch.val → t.output.channels[ch] = v.output.channels[ch])
    (entries : ∀ src : Source, src ≠ .rangeShift → t.ceiling.sameEntry v.ceiling src)
    (events : ∀ (l : Link) (k : EventKind), k = .modeChanged ∨ k = .programSwapped →
      (t.notices.events l).sameKind (v.notices.events l) k)
    (shortfall : t.bank.tallies[Tally.index .shortfall] = v.bank.tallies[Tally.index .shortfall]) :
    State.TakesRangeDone r u t := by
  have inForce : t.inForce = v.inForce := State.inForce_congr (by rw [unit]) (by rw [unit])
  have program : t.program = v.program := congrArg (fun p : Option Program => p.getD .default) inForce
  have judged : v.barsJudged → t.barsJudged := fun ⟨bars, dry, limit⟩ => by
    refine ⟨fun b => ?_, ?_, ?_⟩
    · unfold State.barMayBeActive
      rw [spray, unit, arms, inForce]; exact bars b
    · rw [(entries .drySweep (by decide)).1, unit, spray]; exact dry
    · rw [(entries .sprayLimit (by decide)).1, program, spray]; exact limit
  have once : ∀ k, k = .modeChanged ∨ k = .programSwapped → u.postedOnce k v → u.postedOnce k t := fun k hk ho =>
    State.postedOnce_of_same ho fun l => events l k hk
  exact {
    discards := fun hd => unit.trans (h.discards hd)
    starts := fun ha hm hr => ⟨unit.trans (h.starts ha hm hr).1,
      ((entries .mode (by decide)).2.1).trans (h.starts ha hm hr).2⟩
    waits := fun ha hm hr ho => unit.trans (h.waits ha hm hr ho)
    returns := fun ha hm hr hd => by
      obtain ⟨whole, cap, stands, swaps⟩ := h.returns ha hm hr hd
      rw [unit]
      refine ⟨whole, ((entries .mode (by decide)).2.1).trans cap, stands, fun w hw => ?_⟩
      obtain ⟨slots, active, posted, reverse, dry⟩ := swaps w hw
      exact ⟨slots, active, once _ (.inr rfl) posted, ((entries .reverseArms (by decide)).2.1).trans reverse,
        ((entries .drySweep (by decide)).2.1).trans dry⟩
    changes := fun hc => by
      rw [unit] at hc
      obtain ⟨posted, bars, settled⟩ := h.changes hc
      exact ⟨once _ (.inl rfl) posted, judged bars, State.barsSettled_congr settled rfl rfl rfl spray fun ch hch =>
        channels ch (hch.trans' (by decide))⟩
    stands := fun hc => by
      rw [unit] at hc
      obtain ⟨water, above, same, posted⟩ := h.stands hc
      exact ⟨spray.trans water, fun ch hch => (channels ch hch).trans (above ch hch),
        fun src hs => CeilingTable.sameEntry_trans (same src hs) (entries src hs),
        fun l => EventSet.sameKind_trans (posted l) (events l _ (.inl rfl))⟩
    swaps := fun hs => by
      rw [unit] at hs
      obtain ⟨same, short, posted⟩ := h.swaps hs
      exact ⟨CeilingTable.sameEntry_trans same (entries _ (by decide)), shortfall.trans short,
        fun l => EventSet.sameKind_trans (posted l) (events l _ (.inr rfl))⟩
    channels := fun ch hl hh => (channels ch hl).trans (h.channels ch hl hh)
    entries := fun src hs => CeilingTable.sameEntry_trans (h.entries src hs) (entries src (by simp at hs; tauto)) }

/-! ### The completion of a range request (R77) -/

/-- The governor and the unit after a range request has completed. -/
theorem State.completeRange_spec (s : State) :
    s.completeRange.gov = { s.gov with requested := none, shift := .none, settle := none } ∧
    (s.completeRange.ceiling.entry .rangeShift).active = false ∧
    State.TakesRangeDone s.gov.setRange s s.completeRange ∧
    ∃ kinds : List EventKind, kinds ⊆ [.modeChanged, .programSwapped] ∧
      State.SettlesTo [.mode, .reverseArms, .rangeShift] kinds [.shortfall]
        { s with unit := s.completeRange.unit, gov := s.completeRange.gov } s.completeRange := by
  have takes := State.takeRangeDone_spec s.gov.setRange s
  obtain ⟨kinds, sub, settles⟩ := State.takeRangeDone_settlesTo s.gov.setRange s
  have e : s.completeRange = ((s.takeRangeDone s.gov.setRange).modGov fun g =>
    { g with requested := none, shift := .none, settle := none }).deactivate .rangeShift := rfl
  rw [e]
  generalize s.takeRangeDone s.gov.setRange = v at *
  have gov : v.gov = s.gov := by rw [settles.rest]
  obtain ⟨w, hw⟩ : ∃ w : State, w = { v with gov := { s.gov with requested := none, shift := .none, settle := none } } :=
    ⟨_, rfl⟩
  have ended : (v.modGov fun g => { g with requested := none, shift := .none, settle := none }) = w := by
    rw [hw, ← gov]; rfl
  rw [ended]
  obtain ⟨inactive, -, -, off⟩ := State.deactivate_spec .rangeShift w
  have others := fun src (hs : src ≠ .rangeShift) => State.deactivate_other (src := .rangeShift) (a := src) (s := w) hs
  have spray : (w.deactivate .rangeShift).spray = v.spray := by rw [hw]; simp
  have output : (w.deactivate .rangeShift).output = v.output := by rw [hw]; simp
  generalize w.deactivate .rangeShift = t at *
  subst hw
  have unit : t.unit = v.unit := by rw [off.rest]
  have tgov : t.gov = { s.gov with requested := none, shift := .none, settle := none } := by rw [off.rest]
  refine ⟨tgov, inactive, takes.after unit spray (by rw [off.rest]) (fun ch _ => by rw [output]) others
    (fun l k _ => off.events l k (by simp) (by rename_i hk; rcases hk with rfl | rfl <;> decide))
    (off.tallies _ (by simp) (by decide)), kinds, sub, ?_⟩
  rw [unit, tgov]
  have first := settles.withUnitGov v.unit { s.gov with requested := none, shift := .none, settle := none }
  have both := first.trans off fun hk => absurd (sub hk) (by decide)
  rw [List.append_nil] at both
  exact both.weaken (by decide) (by simp)

/-! ### The two expiries (R77, R80) -/

/-- A raise changes the notices, and the bank where it counts an overflow. -/
theorem State.raiseAlarm_rest (c : AlarmCode) (d : Nat) (s : State) :
    s.raiseAlarm c d = { s with notices := (s.raiseAlarm c d).notices, bank := (s.raiseAlarm c d).bank } := by
  unfold State.raiseAlarm
  split <;> rfl

theorem State.stallExpiry_holds {s : State} (hs : s.gov.stallHold = true) :
    State.Raises .driveStall (Dir.detail s.gov.stallDir) s s.stallExpiry ∧
    s.stallExpiry = { s with gov := { s.gov with stallTimer := none, stallRaised := true }
                             notices := s.stallExpiry.notices, bank := s.stallExpiry.bank } := by
  have e : s.stallExpiry = State.raiseAlarm .driveStall (Dir.detail s.gov.stallDir)
      { s with gov := { s.gov with stallTimer := none, stallRaised := true } } := if_pos hs
  rw [e]
  exact ⟨State.raiseAlarm_raises .driveStall _ { s with gov := { s.gov with stallTimer := none, stallRaised := true } },
    State.raiseAlarm_rest _ _ _⟩

theorem State.stallExpiry_clear {s : State} (hs : s.gov.stallHold = false) :
    s.stallExpiry = { s with gov := { s.gov with stallTimer := none } } :=
  if_neg (by rw [show (s.modGov fun g => { g with stallTimer := none }).gov.stallHold = false from hs]
             exact Bool.false_ne_true)

theorem Output.eq_of_cuts {o p : Output} (hd : o.driveCut = p.driveCut) (hb : o.broomCut = p.broomCut) :
    o = { p with channels := o.channels } := by
  obtain ⟨_, _, _⟩ := o
  cases hd
  cases hb
  rfl

theorem due_some {now e : Time} {o : Option Time} (ho : o = some e) (hr : reached now e = true) : due now o = true := by
  rw [ho]; exact hr

/-- Settles O33: the settle expiry is the completion, the stall expiry a raise where stall hold stands. -/
theorem shiftAndStallEnd : Obligations.ShiftAndStallEnd := fun after s e he => by
  refine ⟨fun hs => ?_, fun hs => ?_⟩
  · have run : exec (.settleExpiry after) s = .next (s.elapse after).completeRange := if_pos (due_some hs he)
    refine ⟨_, run, ?_⟩
    obtain ⟨gov, inactive, takes, kinds, sub, settles⟩ := State.completeRange_spec (s.elapse after)
    generalize (s.elapse after).completeRange = t at *
    intro u
    have output : (s.elapse after).output = s.output := by simp
    have notices : (s.elapse after).notices = s.notices := by simp
    have channels := settles.channels
    have events := settles.events
    have masks := settles.masks
    have alarms := settles.alarms
    have cuts := settles.cuts
    simp only [output] at channels cuts
    simp only [notices] at events masks alarms
    refine ⟨gov, inactive, takes, fun ch hc => channels ch (hc.trans (by decide)), alarms, fun l k hk => ?_, masks,
      fun x hx hn => settles.tallies x (by simpa using hn) hx, ?_⟩
    · simp only [List.mem_cons, List.not_mem_nil, or_false, not_or] at hk
      exact events l k (fun hm => by have := sub hm; simp at this; tauto) hk.2.2
    · rw [← Output.eq_of_cuts cuts.1 cuts.2]
      exact settles.rest
  · have run : exec (.stallTimerExpiry after) s = .next (s.elapse after).stallExpiry := if_pos (due_some hs he)
    refine ⟨_, run, fun hh => ?_, fun hh => ?_⟩
    · exact State.stallExpiry_holds (s := s.elapse after) hh
    · exact State.stallExpiry_clear (s := s.elapse after) hh

end Sys2Proof.Machine
end

section
/-! The drive period (R64 to R77, R82). -/

namespace Sys2Proof.Machine

/-! ### Stall and comparator 3 (R80, R81, R151) -/

/-- A return to CLEAR ends the stall, and its alarm where it was raised (R80). -/
theorem State.governorClear_spec (s : State) :
    s.governorClear.gov = { s.gov with stallHold := false, stallTimer := none, stallRaised := false } ∧
    (s.gov.stallRaised = true → State.GoesAbsent .driveStall (Dir.detail s.gov.stallDir) s s.governorClear) ∧
    (s.gov.stallRaised = false → s.governorClear.notices = s.notices) ∧
    (∀ (l : Link) (k : EventKind), k ≠ .alarmGone →
      (s.governorClear.notices.events l).sameKind (s.notices.events l) k) ∧
    (∀ l : Link, (s.governorClear.notices.events l).mask = (s.notices.events l).mask) ∧
    s.governorClear = { s with gov := s.governorClear.gov, notices := s.governorClear.notices } := by
  obtain ⟨v, hv⟩ : ∃ v : State, v = { s with gov := { s.gov with
    stallHold := false, stallTimer := none, stallRaised := false } } := ⟨_, rfl⟩
  have goes := State.alarmGone_goes .driveStall (Dir.detail s.gov.stallDir) v
  obtain ⟨events, masks, -⟩ := State.alarmGone_events .driveStall (Dir.detail s.gov.stallDir) v
  have rest := State.alarmGone_rest .driveStall (Dir.detail s.gov.stallDir) v
  have e : s.governorClear = if s.gov.stallRaised then v.alarmGone .driveStall (Dir.detail s.gov.stallDir) else v := by
    rw [hv]; rfl
  rw [e]
  cases hr : s.gov.stallRaised with
  | true =>
    simp only [if_true]
    generalize v.alarmGone .driveStall (Dir.detail s.gov.stallDir) = t at *
    subst hv
    exact ⟨by rw [rest], fun _ => goes, (fun h => nomatch h), events, masks, by rw [rest]⟩
  | false =>
    simp only [Bool.false_eq_true, if_false]
    subst hv
    exact ⟨rfl, False.elim, fun _ => rfl, fun _ _ _ => ⟨rfl, rfl⟩, fun _ => rfl, rfl⟩

/-- A report of the held direction restarts comparator 3 where its input changes (R151). -/
theorem State.restart3_spec (d : DriveDir) (s : State) :
    (s.scan.input3 = d → s.restart3 d = s) ∧
    (s.scan.input3 ≠ d → (s.restart3 d).scan = { s.scan with input3 := d, comps := s.scan.comps.set 3 {} } ∧
      (s.scan.comps[(3 : Fin 4)].detected = false →
        (s.restart3 d).gov = s.gov ∧ (s.restart3 d).notices = s.notices) ∧
      (s.scan.comps[(3 : Fin 4)].detected = true →
        (s.restart3 d).gov = { s.gov with stallHold := false, stallTimer := none, stallRaised := false } ∧
        (s.gov.stallRaised = true → State.GoesAbsent .driveStall (Dir.detail s.gov.stallDir) s (s.restart3 d)) ∧
        (s.gov.stallRaised = false → (s.restart3 d).notices = s.notices))) ∧
    (s.restart3 d).gov = { s.gov with
      stallHold := (s.restart3 d).gov.stallHold, stallTimer := (s.restart3 d).gov.stallTimer
      stallRaised := (s.restart3 d).gov.stallRaised } ∧
    (∀ (l : Link) (k : EventKind), k ≠ .alarmGone →
      ((s.restart3 d).notices.events l).sameKind (s.notices.events l) k) ∧
    (∀ l : Link, ((s.restart3 d).notices.events l).mask = (s.notices.events l).mask) ∧
    s.restart3 d = { s with
      gov := (s.restart3 d).gov, scan := (s.restart3 d).scan, notices := (s.restart3 d).notices } := by
  by_cases hd : s.scan.input3 = d
  · have e : s.restart3 d = s := if_pos hd
    rw [e]
    exact ⟨fun _ => rfl, fun hn => absurd hd hn, rfl, fun _ _ _ => ⟨rfl, rfl⟩, fun _ => rfl, rfl⟩
  · obtain ⟨v, hv⟩ : ∃ v : State, v = { s with scan := { s.scan with input3 := d, comps := s.scan.comps.set 3 {} } } :=
      ⟨_, rfl⟩
    have e : s.restart3 d = if s.scan.comps[(3 : Fin 4)].detected then v.governorClear else v := by
      rw [hv]; exact if_neg hd
    obtain ⟨gov, goes, quiet, events, masks, rest⟩ := State.governorClear_spec v
    rw [e]
    cases hc : s.scan.comps[(3 : Fin 4)].detected with
    | true =>
      simp only [if_true]
      generalize v.governorClear = t at *
      subst hv
      exact ⟨fun h => absurd h hd, fun _ => ⟨by rw [rest], (fun h => nomatch h), fun _ => ⟨gov, goes, quiet⟩⟩,
        by rw [gov], events, masks, by rw [rest]⟩
    | false =>
      simp only [Bool.false_eq_true, if_false]
      subst hv
      exact ⟨fun h => absurd h hd, fun _ => ⟨rfl, fun _ => ⟨rfl, rfl⟩, False.elim⟩, rfl, fun _ _ _ => ⟨rfl, rfl⟩,
        fun _ => rfl, rfl⟩

/-! ### The held direction (R68) -/

theorem State.ceilingReports_refl (s : State) : State.CeilingReports s s :=
  ⟨fun _ => ⟨rfl, fun _ => rfl, rfl, rfl⟩, fun hn => absurd rfl hn⟩

/-- With the reference at 0 a change of the table counts no urgent stop (R59). -/
theorem State.changeCeiling_bank {s : State} (hv : s.gov.vRef = 0) (f : CeilingTable → CeilingTable) :
    (s.changeCeiling f).bank = s.bank := by
  unfold State.changeCeiling
  dsimp only
  split
  · rfl
  · rw [if_neg (by simp [hv])]
    rfl

/-- A report of the held direction, at a reference of 0 (R57, R58). -/
theorem State.reportHeld_spec (d : DriveDir) (s : State) (hv : s.gov.vRef = 0) :
    State.CeilingReports s (s.reportHeld d) ∧ (∀ src, (s.reportHeld d).ceiling.sameEntry s.ceiling src) ∧
    (∀ x, d.dir? = some x → (s.reportHeld d).ceiling.reportDir = x) ∧
    (∀ (l : Link) (k : EventKind), k ≠ .ceilingBinding →
      ((s.reportHeld d).notices.events l).sameKind (s.notices.events l) k) ∧
    (∀ l : Link, ((s.reportHeld d).notices.events l).mask = (s.notices.events l).mask) ∧
    (s.reportHeld d).notices.alarms = s.notices.alarms ∧
    s.reportHeld d = { s with ceiling := (s.reportHeld d).ceiling, notices := (s.reportHeld d).notices } := by
  have turned (x : Dir) : let t := s.changeCeiling fun c => { c with reportDir := x }
      State.CeilingReports s t ∧ (∀ src, t.ceiling.sameEntry s.ceiling src) ∧ t.ceiling.reportDir = x ∧
      (∀ (l : Link) (k : EventKind), k ≠ .ceilingBinding → (t.notices.events l).sameKind (s.notices.events l) k) ∧
      (∀ l : Link, (t.notices.events l).mask = (s.notices.events l).mask) ∧ t.notices.alarms = s.notices.alarms ∧
      t = { s with ceiling := t.ceiling, notices := t.notices } := by
    intro t
    obtain ⟨entries, dir, -, -⟩ := State.changeCeiling_spec (fun c => { c with reportDir := x }) s
    obtain ⟨alarms, events, -, rest⟩ := State.changeCeiling_beside (fun c => { c with reportDir := x }) s
    have bank := State.changeCeiling_bank hv fun c => { c with reportDir := x }
    refine ⟨State.changeCeiling_reports _ s rfl fun _ => rfl, entries, dir, fun l => (events l).2, fun l => (events l).1,
      alarms, rest.trans ?_⟩
    rw [bank]
  cases d with
  | neutral =>
    exact ⟨State.ceilingReports_refl s, fun _ => ⟨rfl, rfl, rfl⟩, (fun _ h => nomatch h), fun _ _ _ => ⟨rfl, rfl⟩,
      fun _ => rfl, rfl, rfl⟩
  | forward =>
    obtain ⟨h1, h2, h3, h4⟩ := turned .forward
    exact ⟨h1, h2, fun x hx => by cases hx; exact h3, h4⟩
  | reverse =>
    obtain ⟨h1, h2, h3, h4⟩ := turned .reverse
    exact ⟨h1, h2, fun x hx => by cases hx; exact h3, h4⟩

/-- The held direction taken up at a drive period expiry, from `s` to `t` (R68, R80, R151). -/
structure State.TakesDirection (s t : State) : Prop where
  held : t.gov.held = if s.gov.vRef = 0 ∧ s.gov.cutSeen = false then s.gov.demandDir else s.gov.held
  gov : t.gov = { s.gov with
    held := t.gov.held, stallHold := t.gov.stallHold, stallTimer := t.gov.stallTimer, stallRaised := t.gov.stallRaised }
  stands : t.gov.held = s.gov.held → t = s
  turns : t.gov.held ≠ s.gov.held → t.scan.input3 = t.gov.held ∧
    (∀ x, t.gov.held.dir? = some x → t.ceiling.reportDir = x) ∧
    ∃ r : State, State.CeilingReports s r ∧ t.ceiling = r.ceiling ∧
      ∀ l : Link, (t.notices.events l).sameKind (r.notices.events l) .ceilingBinding
  clear : s.scan.comps[(3 : Fin 4)].detected = false → t.gov.stallHold = s.gov.stallHold ∧
    t.gov.stallTimer = s.gov.stallTimer ∧ t.gov.stallRaised = s.gov.stallRaised ∧
    t.notices.alarms = s.notices.alarms ∧
    ∀ l : Link, (t.notices.events l).sameKind (s.notices.events l) .alarmGone
  restarts : t.gov.held ≠ s.gov.held → s.gov.held = s.scan.input3 → t.scan.comps = s.scan.comps.set 3 {} ∧
    (s.scan.comps[(3 : Fin 4)].detected = true →
      t.gov.stallHold = false ∧ t.gov.stallTimer = none ∧ t.gov.stallRaised = false ∧
      (s.gov.stallRaised = true → State.GoesAbsent .driveStall (Dir.detail s.gov.stallDir) s t) ∧
      (s.gov.stallRaised = false → t.notices.alarms = s.notices.alarms ∧
        ∀ l : Link, (t.notices.events l).sameKind (s.notices.events l) .alarmGone))
  hold : t.gov.stallHold = true → s.gov.stallHold = true
  entries : ∀ src, t.ceiling.sameEntry s.ceiling src
  events : ∀ (l : Link) (k : EventKind), k ≠ .alarmGone → k ≠ .ceilingBinding →
    (t.notices.events l).sameKind (s.notices.events l) k
  masks : ∀ l : Link, (t.notices.events l).mask = (s.notices.events l).mask
  scan : t.scan = { s.scan with input3 := t.scan.input3, comps := t.scan.comps }
  rest : t = { s with gov := t.gov, ceiling := t.ceiling, notices := t.notices, scan := t.scan }

/-- A direction that is held already, or cannot be taken up. -/
theorem State.takesDirection_refl {s : State}
    (h : s.gov.held = if s.gov.vRef = 0 ∧ s.gov.cutSeen = false then s.gov.demandDir else s.gov.held) :
    State.TakesDirection s s where
  held := h
  gov := rfl
  stands _ := rfl
  turns hn := absurd rfl hn
  clear _ := ⟨rfl, rfl, rfl, rfl, fun _ => ⟨rfl, rfl⟩⟩
  restarts hn := absurd rfl hn
  hold := id
  entries _ := ⟨rfl, rfl, rfl⟩
  events _ _ _ _ := ⟨rfl, rfl⟩
  masks _ := rfl
  scan := rfl
  rest := rfl

theorem State.setHeld_takes {s : State} (hv : s.gov.vRef = 0) (hc : s.gov.cutSeen = false)
    (hd : s.gov.held ≠ s.gov.demandDir) : State.TakesDirection s (s.setHeld s.gov.demandDir) := by
  obtain ⟨d, demand⟩ : ∃ d, d = s.gov.demandDir := ⟨_, rfl⟩
  obtain ⟨u, hu⟩ : ∃ u : State, u = { s with gov := { s.gov with held := d } } := ⟨_, rfl⟩
  have e : s.setHeld d = (u.reportHeld d).restart3 d := by rw [hu]; rfl
  rw [← demand, e]
  obtain ⟨reports, entries, dir, events, masks, alarms, rest⟩ := State.reportHeld_spec d u (by rw [hu]; exact hv)
  generalize u.reportHeld d = r at *
  have rscan : r.scan = s.scan := by rw [rest, hu]
  have rgov : r.gov = { s.gov with held := d } := by rw [rest, hu]
  have sreports : State.CeilingReports s r := by subst hu; exact reports
  have uceiling : u.ceiling = s.ceiling := by rw [hu]
  have unotices : u.notices = s.notices := by rw [hu]
  rw [uceiling] at entries
  rw [unotices] at events masks alarms
  obtain ⟨same, restarts, gov, events', masks', rest'⟩ := State.restart3_spec d r
  generalize r.restart3 d = t at *
  rw [rscan, rgov] at restarts
  rw [rscan] at same
  have held : t.gov.held = d := by rw [gov, rgov]
  have ceiling : t.ceiling = r.ceiling := by rw [rest']
  have turned : t.gov.held ≠ s.gov.held := by rw [held, demand]; exact hd.symm
  have input : t.scan.input3 = d := by
    by_cases hi : s.scan.input3 = d
    · rw [same hi, rscan]; exact hi
    · rw [(restarts hi).1]
  exact {
    held := by rw [held, if_pos ⟨hv, hc⟩, demand]
    gov := by rw [held, gov, rgov]
    stands := fun h => absurd h turned
    turns := fun _ => ⟨input.trans held.symm, fun x hx => by rw [ceiling]; rw [held] at hx; exact dir x hx, r, sreports,
      ceiling, fun l => events' l _ (by decide)⟩
    clear := fun hf => by
      by_cases hi : s.scan.input3 = d
      · rw [same hi, rgov]; exact ⟨rfl, rfl, rfl, alarms, fun l => events l _ (by decide)⟩
      · obtain ⟨kept, quiet⟩ := (restarts hi).2.1 hf
        rw [kept, quiet]; exact ⟨rfl, rfl, rfl, alarms, fun l => events l _ (by decide)⟩
    restarts := fun _ law => by
      have hi : s.scan.input3 ≠ d := by rw [← law, demand]; exact hd
      obtain ⟨scan, -, det⟩ := restarts hi
      refine ⟨by rw [scan], fun ht => ?_⟩
      obtain ⟨tgov, goes, quiet⟩ := det ht
      refine ⟨by rw [tgov], by rw [tgov], by rw [tgov], fun hr => ?_, fun hr => ?_⟩
      · have gone := goes hr
        unfold State.GoesAbsent at gone ⊢
        rw [alarms] at gone
        exact gone
      · rw [quiet hr]; exact ⟨alarms, fun l => events l _ (by decide)⟩
    hold := fun h => by
      by_cases hi : s.scan.input3 = d
      · rw [same hi, rgov] at h; exact h
      · cases hd : s.scan.comps[(3 : Fin 4)].detected with
        | false => rw [((restarts hi).2.1 hd).1] at h; exact h
        | true => rw [((restarts hi).2.2 hd).1] at h; cases h
    entries := fun src => by rw [ceiling]; exact entries src
    events := fun l k hg hb => EventSet.sameKind_trans (events l k hb) (events' l k hg)
    masks := fun l => (masks' l).trans (masks l)
    scan := by
      by_cases hi : s.scan.input3 = d
      · rw [same hi, rscan]
      · rw [(restarts hi).1]
    rest := by rw [rest', rest, hu] }

theorem State.takeDirection_takes (s : State) : State.TakesDirection s s.takeDirection := by
  unfold State.takeDirection
  split
  · next h =>
    obtain ⟨hv, hc, hd⟩ := h
    exact State.setHeld_takes hv (by simpa using hc) hd
  · next h =>
    refine State.takesDirection_refl ?_
    split
    · next hb => exact not_not.1 fun hn => h ⟨hb.1, by simp [hb.2], hn⟩
    · rfl

end Sys2Proof.Machine
end

section
/-! The drive period: the shift test, the posts of the pump coils, the release of a cut, and the ramp (R69 to R76, R82). -/

namespace Sys2Proof.Machine

/-! ### The shift test (R75 to R77) -/

/-- What the shift test of a drive period expiry may move, from `s` to `t`. -/
structure State.ShiftTested (s t : State) : Prop where
  switches : s.gov.shift = .waiting → s.travel.ground ≤ s.settings.caps.shiftSpeed →
    t.gov.shift = .settling ∧ t.gov.setRange = s.gov.requested.getD s.gov.setRange ∧
    t.gov.settle = some (later s.now s.settings.governor.settle) ∧
    t.output.channels[(2 : Channel)].setpoint = (if t.gov.setRange = .work then 1 else 0)
  stands : (s.gov.shift = .waiting ∧ s.settings.caps.shiftSpeed < s.travel.ground) ∨ s.gov.shift = .settling ∨
    (s.gov.shift = .none ∧ s.gov.requested = none) → t = s
  completes : s.gov.shift = .none → s.gov.requested.isSome = true → t = s.completeRange
  within : s.gov.shift ≠ .none ∨ s.gov.requested = none → t = { s with gov := t.gov, output := t.output } ∧
    ∀ ch : Channel, ch ≠ 2 → t.output.channels[ch] = s.output.channels[ch]
  gov : t.gov = { s.gov with
    requested := t.gov.requested, shift := t.gov.shift, settle := t.gov.settle, setRange := t.gov.setRange }
  pumps : ∀ ch : Channel, ch.val < 2 → t.output.channels[ch] = s.output.channels[ch]
  owners : ∀ ch : Channel, t.output.channels[ch].fault = s.output.channels[ch].fault ∧
    t.output.channels[ch].holder = s.output.channels[ch].holder ∧ t.output.channels[ch].level = s.output.channels[ch].level
  cuts : t.output.driveCut = s.output.driveCut ∧ t.output.broomCut = s.output.broomCut
  events : ∀ (l : Link) (k : EventKind), k ∉ [EventKind.modeChanged, .programSwapped, .ceilingBinding] →
    (t.notices.events l).sameKind (s.notices.events l) k
  masks : ∀ l : Link, (t.notices.events l).mask = (s.notices.events l).mask
  alarms : t.notices.alarms = s.notices.alarms
  tallies : ∀ x : Tally, x ≠ .urgentStops → x ≠ .shortfall → t.bank.tallies[x.index] = s.bank.tallies[x.index]
  rest : t = { s with
    unit := t.unit, gov := t.gov, ceiling := t.ceiling, output := t.output, spray := t.spray, notices := t.notices
    bank := { s.bank with tallies := t.bank.tallies } }

/-- The cases in which the test leaves the state. -/
theorem State.shiftTested_refl {s : State} (hw : ¬(s.gov.shift = .waiting ∧ s.travel.ground ≤ s.settings.caps.shiftSpeed))
    (hn : ¬(s.gov.shift = .none ∧ s.gov.requested.isSome = true)) : State.ShiftTested s s where
  switches h1 h2 := absurd ⟨h1, h2⟩ hw
  stands _ := rfl
  completes h1 h2 := absurd ⟨h1, h2⟩ hn
  within _ := ⟨rfl, fun _ _ => rfl⟩
  gov := rfl
  pumps _ _ := rfl
  owners _ := ⟨rfl, rfl, rfl⟩
  cuts := ⟨rfl, rfl⟩
  events _ _ _ := ⟨rfl, rfl⟩
  masks _ := rfl
  alarms := rfl
  tallies _ _ _ := rfl
  rest := rfl

theorem State.switchRange_tested {s : State} (hw : s.gov.shift = .waiting)
    (hg : s.travel.ground ≤ s.settings.caps.shiftSpeed) : State.ShiftTested s s.switchRange := by
  obtain ⟨r, range⟩ : ∃ r, r = s.gov.requested.getD s.gov.setRange := ⟨_, rfl⟩
  obtain ⟨v, hv⟩ : ∃ v : State, v = { s with gov := { s.gov with
    setRange := r, settle := some (later s.now s.settings.governor.settle), shift := .settling } } := ⟨_, rfl⟩
  obtain ⟨setpoint, others, owners, cuts⟩ := State.postSetpoint_spec 2 (if r = .work then 1 else 0) v
  have rest := State.postSetpoint_rest 2 (if r = .work then 1 else 0) v
  have e : s.switchRange = v.postSetpoint 2 (if r = .work then 1 else 0) := by rw [hv, range]; rfl
  rw [e]
  generalize v.postSetpoint 2 (if r = .work then 1 else 0) = t at *
  subst hv
  have gov : t.gov = { s.gov with
    setRange := r, settle := some (later s.now s.settings.governor.settle), shift := .settling } := by rw [rest]
  exact {
    switches := fun _ _ => by rw [gov]; exact ⟨rfl, range, rfl, setpoint⟩
    stands := fun h => by
      rcases h with h | h | h
      · omega
      · rw [hw] at h; cases h
      · rw [hw] at h; cases h.1
    completes := fun h _ => by rw [hw] at h; cases h
    within := fun _ => ⟨by rw [rest], others⟩
    gov := by rw [gov]
    pumps := fun ch hc => others ch fun h => by rw [h] at hc; exact absurd hc (by decide)
    owners := owners
    cuts := cuts
    events := fun _ _ _ => by rw [rest]; exact ⟨rfl, rfl⟩
    masks := fun _ => by rw [rest]
    alarms := by rw [rest]
    tallies := fun _ _ _ => by rw [rest]
    rest := by rw [rest] }

theorem State.completeRange_tested {s : State} (hn : s.gov.shift = .none) (hr : s.gov.requested.isSome = true) :
    State.ShiftTested s s.completeRange := by
  obtain ⟨gov, -, -, kinds, sub, settles⟩ := State.completeRange_spec s
  generalize run : s.completeRange = t at *
  exact {
    switches := fun h => by rw [hn] at h; cases h
    stands := fun h => by
      rcases h with h | h | h
      · rw [hn] at h; cases h.1
      · rw [hn] at h; cases h
      · rw [h.2] at hr; cases hr
    completes := fun _ _ => run.symm
    within := fun h => by
      rcases h with h | h
      · exact absurd hn h
      · rw [h] at hr; cases hr
    gov := by rw [gov]
    pumps := fun ch hc => settles.channels ch (hc.trans (by decide))
    owners := settles.owners
    cuts := settles.cuts
    events := fun l k hk => settles.events l k (fun hm => by have := sub hm; simp at this hk; tauto) (by simp at hk; tauto)
    masks := settles.masks
    alarms := settles.alarms
    tallies := fun x hu hs => settles.tallies x (by simpa using hs) hu
    rest := by rw [settles.rest] }

theorem State.shiftTest_tested (s : State) : State.ShiftTested s s.shiftTest := by
  unfold State.shiftTest
  split
  · next hw =>
    split
    · next hg => exact State.switchRange_tested hw hg
    · next hg => exact State.shiftTested_refl (fun h => hg h.2) fun h => by rw [hw] at h; cases h.1
  · next hs =>
    exact State.shiftTested_refl (fun h => by rw [hs] at h; cases h.1) fun h => by rw [hs] at h; cases h.1
  · next hn =>
    split
    · next hr => exact State.completeRange_tested hn hr
    · next hr => exact State.shiftTested_refl (fun h => by rw [hn] at h; cases h.1) fun h => hr h.2

/-! ### The pump coils (R74) -/

/-- Two channels are posted: each its setpoint, and no other channel moves. -/
theorem State.postTwo_spec {a b : Channel} (hab : a ≠ b) (x y : Nat) (s : State) :
    let o := ((s.postSetpoint a x).postSetpoint b y).output
    o.channels[a].setpoint = x ∧ o.channels[b].setpoint = y ∧
    (∀ k : Channel, k ≠ a → k ≠ b → o.channels[k] = s.output.channels[k]) ∧
    (∀ k : Channel, o.channels[k].fault = s.output.channels[k].fault ∧
      o.channels[k].holder = s.output.channels[k].holder ∧ o.channels[k].level = s.output.channels[k].level) ∧
    o.driveCut = s.output.driveCut ∧ o.broomCut = s.output.broomCut := by
  intro o
  obtain ⟨setA, othersA, ownersA, driveA, broomA⟩ := State.postSetpoint_spec a x s
  obtain ⟨setB, othersB, ownersB, driveB, broomB⟩ := State.postSetpoint_spec b y (s.postSetpoint a x)
  refine ⟨by rw [othersB a hab, setA], setB, fun k ha hb => (othersB k hb).trans (othersA k ha), fun k => ?_,
    driveB.trans driveA, broomB.trans broomA⟩
  exact ⟨(ownersB k).1.trans (ownersA k).1, (ownersB k).2.1.trans (ownersA k).2.1, (ownersB k).2.2.trans (ownersA k).2.2⟩

/-- What the posts of an expiry leave of the Output Stage: setpoints of the two coils aside, and their cut. -/
structure Output.DrivesPumps (fwd rev : Nat) (o p : Output) : Prop where
  forward : p.channels[(0 : Channel)].setpoint = fwd
  reverse : p.channels[(1 : Channel)].setpoint = rev
  others : ∀ k : Channel, 2 ≤ k.val → p.channels[k] = o.channels[k]
  owners : ∀ k : Channel, p.channels[k].fault = o.channels[k].fault ∧ p.channels[k].holder = o.channels[k].holder ∧
    p.channels[k].level = o.channels[k].level
  broom : p.broomCut = o.broomCut

theorem Channel.ne_of_two_le {k : Channel} (h : 2 ≤ k.val) : k ≠ 0 ∧ k ≠ 1 := by
  constructor <;> (rintro rfl; exact absurd h (by decide))

theorem State.postPump_drives (s : State) :
    Output.DrivesPumps (if s.gov.cutSeen = false ∧ s.gov.held = .forward then s.gov.coil else 0)
      (if s.gov.cutSeen = false ∧ s.gov.held = .reverse then s.gov.coil else 0) s.output s.postPump.output ∧
    s.postPump.output.driveCut = s.output.driveCut ∧ s.postPump = { s with output := s.postPump.output } := by
  have up (x y : Nat) : Output.DrivesPumps x y s.output ((s.postSetpoint 0 x).postSetpoint 1 y).output ∧
      ((s.postSetpoint 0 x).postSetpoint 1 y).output.driveCut = s.output.driveCut := by
    obtain ⟨first, second, others, owners, drive, broom⟩ := State.postTwo_spec (a := 0) (b := 1) (by decide) x y s
    exact ⟨⟨first, second, fun k hk => others k (Channel.ne_of_two_le hk).1 (Channel.ne_of_two_le hk).2, owners, broom⟩, drive⟩
  have down (x y : Nat) : Output.DrivesPumps y x s.output ((s.postSetpoint 1 x).postSetpoint 0 y).output ∧
      ((s.postSetpoint 1 x).postSetpoint 0 y).output.driveCut = s.output.driveCut := by
    obtain ⟨first, second, others, owners, drive, broom⟩ := State.postTwo_spec (a := 1) (b := 0) (by decide) x y s
    exact ⟨⟨second, first, fun k hk => others k (Channel.ne_of_two_le hk).2 (Channel.ne_of_two_le hk).1, owners, broom⟩, drive⟩
  unfold State.postPump
  cases hc : s.gov.cutSeen with
  | true =>
    simp only [if_true, Bool.true_eq_false, false_and, if_false]
    exact ⟨(up 0 0).1, (up 0 0).2, rfl⟩
  | false =>
    simp only [Bool.false_eq_true, if_false, true_and]
    cases hh : s.gov.held with
    | neutral => exact ⟨(up 0 0).1, (up 0 0).2, rfl⟩
    | forward => exact ⟨(down 0 s.gov.coil).1, (down 0 s.gov.coil).2, rfl⟩
    | reverse => exact ⟨(up 0 s.gov.coil).1, (up 0 s.gov.coil).2, rfl⟩

/-- A channel formed again keeps what its owner, its holder and its faults gave it (R170). -/
theorem State.reformed_channel (ch k : Channel) (s : State) :
    let p := (s.changeChannel ch id).output.channels[k]
    p.setpoint = s.output.channels[k].setpoint ∧ p.fault = s.output.channels[k].fault ∧
    p.holder = s.output.channels[k].holder ∧ p.level = s.output.channels[k].level := by
  intro p
  obtain ⟨own, others, -⟩ := State.changeChannel_spec ch id s
  by_cases hk : k = ch
  · subst hk
    have e : p = s.output.channels[k].reform (s.output.cutFlag k) s.settings.ranges[k] k := own
    rw [e]
    exact ⟨rfl, rfl, rfl, rfl⟩
  · have e : p = s.output.channels[k] := others k hk
    rw [e]
    exact ⟨rfl, rfl, rfl, rfl⟩

theorem State.releaseDriveCut_spec (s : State) :
    Output.DrivesPumps s.output.channels[(0 : Channel)].setpoint s.output.channels[(1 : Channel)].setpoint s.output
      s.releaseDriveCut.output := by
  have first := fun k => State.reformed_channel 0 k (s.modOutput fun o => { o with driveCut := false })
  have second := fun k => State.reformed_channel 1 k
    ((s.modOutput fun o => { o with driveCut := false }).changeChannel 0 id)
  obtain ⟨-, othersA, -⟩ := State.changeChannel_spec 0 id (s.modOutput fun o => { o with driveCut := false })
  obtain ⟨-, othersB, -⟩ := State.changeChannel_spec 1 id
    ((s.modOutput fun o => { o with driveCut := false }).changeChannel 0 id)
  exact {
    forward := (second 0).1.trans (first 0).1
    reverse := (second 1).1.trans (first 1).1
    others := fun k hk => (othersB k (Channel.ne_of_two_le hk).2).trans (othersA k (Channel.ne_of_two_le hk).1)
    owners := fun k => ⟨(second k).2.1.trans (first k).2.1, (second k).2.2.1.trans (first k).2.2.1,
      (second k).2.2.2.trans (first k).2.2.2⟩
    broom := rfl }

/-- The release of a cut forms the targets of the two coils again, and moves no setpoint (R82, R170). -/
theorem State.releaseDrive_spec (s : State) :
    Output.DrivesPumps s.output.channels[(0 : Channel)].setpoint s.output.channels[(1 : Channel)].setpoint s.output
      s.releaseDrive.output ∧
    (s.gov.cutSeen = true → s.scan.comps[(3 : Fin 4)].detected = false →
      s.releaseDrive.gov = { s.gov with cutSeen := false } ∧ s.releaseDrive.output.driveCut = false) ∧
    (s.gov.cutSeen = false ∨ s.scan.comps[(3 : Fin 4)].detected = true → s.releaseDrive = s) ∧
    s.releaseDrive = { s with gov := s.releaseDrive.gov, output := s.releaseDrive.output } := by
  unfold State.releaseDrive
  split
  · next h =>
    have h : s.gov.cutSeen = true ∧ s.scan.comps[(3 : Fin 4)].detected = false := by simpa using h
    exact ⟨State.releaseDriveCut_spec s, fun _ _ => ⟨rfl, rfl⟩, fun hn => by rw [h.1, h.2] at hn; simp at hn, rfl⟩
  · next h =>
    exact ⟨⟨rfl, rfl, fun _ _ => rfl, fun _ => ⟨rfl, rfl, rfl⟩, rfl⟩, fun h1 h2 => absurd
      (by rw [h1, show s.scan.comps[3].detected = false from h2]; rfl) h,
      fun _ => rfl, rfl⟩

/-! ### Target, ramp, trim and current (R69 to R74) -/

section Period
variable (r : DriveRead) (set : GovernorSettings) (g : Governor)

/-- The mode is one in which the program gives the ramp (R70). -/
def DriveRead.working (r : DriveRead) : Bool := r.mode == .entering || r.mode == .sweep || r.mode == .leaving

theorem rampLimits_eq : rampLimits r set =
    if r.working = true then (r.program.accel, r.program.decel) else (set.accel, set.decel) := by
  unfold rampLimits DriveRead.working
  cases r.mode <;> rfl

theorem formTarget_eq : formTarget r g = if g.cutSeen = true ∨ g.held = .neutral ∨ g.demandDir ≠ g.held then 0
    else min (g.demandMag * (r.ceiling.entry .mode).cap / 1000) ((r.limit g).getD 0) := by
  unfold formTarget
  by_cases hc : g.cutSeen = true
  · simp [hc]
  · by_cases hd : g.demandDir ≠ g.held
    · simp [hc, hd]
    · simp only [hc, hd, if_false, or_false]
      unfold DriveRead.limit
      cases g.held <;> rfl

/-- The stopping deceleration stands where urgent applies and the ceiling is the target (R72). -/
def DriveRead.stops (r : DriveRead) (g : Governor) (target : Nat) : Bool :=
  g.held.dir?.map r.ceiling.urgent == some true && r.limit g == some target

theorem DriveRead.stops_iff {target : Nat} :
    r.stops g target = true ↔ r.urgent g = true ∧ r.limit g = some target := by
  unfold DriveRead.stops DriveRead.urgent
  rw [Bool.and_eq_true, beq_iff_eq, beq_iff_eq]
  cases g.held <;> simp [DriveDir.dir?]

theorem rampedRef_falls {target : Nat} (h : target ≤ g.vRef) : rampedRef r set target g = g.vRef -
    min (max 1 ((if r.stops g target = true then set.stopDecel
      else if r.working = true then r.program.decel else set.decel) / 100)) (g.vRef - target) := by
  unfold rampedRef
  simp only [if_neg (Nat.not_lt.2 h), rampLimits_eq, rampStep, ← DriveRead.stops_iff]
  split
  · rfl
  · split <;> rfl

theorem rampedRef_rises {target : Nat} (h : g.vRef < target) (hc : (r.limit g).isSome = true) : rampedRef r set target g =
    if r.stall = true ∨ g.settle.isSome = true ∨ (r.limit g).getD 0 ≤ g.vRef then g.vRef
    else g.vRef + min (max 1 ((if r.working = true then r.program.accel else set.accel) / 100)) (target - g.vRef) := by
  obtain ⟨c, limit⟩ := Option.isSome_iff_exists.1 hc
  have barred : riseBarred r g = true ↔ r.stall = true ∨ g.settle.isSome = true ∨ (r.limit g).getD 0 ≤ g.vRef := by
    simp [riseBarred, limit, or_assoc]
  unfold rampedRef
  simp only [if_pos h, barred, rampLimits_eq, rampStep]
  split
  · rfl
  · split <;> rfl

theorem nextTrim_eq : nextTrim r set g = if g.vRef = 0 then 0
    else if r.slip = true ∨ r.stall = true ∨ g.cutSeen = true then g.trim
    else max (-(set.trimLimit : Int)) (min set.trimLimit (g.trim + ((g.vRef : Int) - r.ground).tdiv set.kDiv)) := by
  simp only [nextTrim, clamp, Bool.or_eq_true, or_assoc]

theorem coilCurrent_eq : (coilCurrent set g : Int) = if g.vRef = 0 then 0
    else max 0 (min (set.iFull : Int) ((set.iStart : Int) + ((g.vRef * (set.iFull - set.iStart) /
      (if g.setRange = .work then set.vFullWork else set.vFullTransport) : Nat) : Int) + g.trim)) := by
  unfold coilCurrent
  split
  · rfl
  · simp only [clamp]
    exact Int.toNat_of_nonneg (le_max_left _ _)

end Period

end Sys2Proof.Machine
end

section
/-! The drive period as a whole (R64, R68 to R77, R82), and the governor over every step (R68, R71, R80). -/

namespace Sys2Proof.Machine

/-! ### The posts of an expiry -/

/-- The posts and the release at the end of a drive period expiry. -/
theorem State.drivePosts_spec (s : State) :
    let t := s.postPump.releaseDrive
    t.gov = { s.gov with cutSeen := t.gov.cutSeen } ∧
    (s.gov.cutSeen = true → s.scan.comps[(3 : Fin 4)].detected = false →
      t.gov.cutSeen = false ∧ t.output.driveCut = false) ∧
    (s.gov.cutSeen = false ∨ s.scan.comps[(3 : Fin 4)].detected = true →
      t.gov.cutSeen = s.gov.cutSeen ∧ t.output.driveCut = s.output.driveCut) ∧
    Output.DrivesPumps (if s.gov.cutSeen = false ∧ s.gov.held = .forward then s.gov.coil else 0)
      (if s.gov.cutSeen = false ∧ s.gov.held = .reverse then s.gov.coil else 0) s.output t.output ∧
    t = { s with gov := t.gov, output := t.output } := by
  obtain ⟨drives, drive, rest⟩ := State.postPump_drives s
  obtain ⟨keeps, release, stands, rest'⟩ := State.releaseDrive_spec s.postPump
  have gov : s.postPump.gov = s.gov := by rw [rest]
  have scan : s.postPump.scan = s.scan := by rw [rest]
  rw [gov, scan] at release stands
  dsimp only
  generalize s.postPump.releaseDrive = t at *
  generalize s.postPump = v at *
  have whole : t = { s with gov := t.gov, output := t.output } := by rw [rest', rest]
  refine ⟨?_, fun h1 h2 => ?_, fun h => ?_, ?_, whole⟩
  · by_cases h : s.gov.cutSeen = true ∧ s.scan.comps[(3 : Fin 4)].detected = false
    · have e : t.gov = { s.gov with cutSeen := false } := (release h.1 h.2).1
      rw [e]
    · have e : t = v := stands (by
        by_contra hn
        exact h ⟨Bool.eq_true_of_not_eq_false fun e => hn (.inl e), Bool.eq_false_of_not_eq_true fun e => hn (.inr e)⟩)
      rw [e, gov]
  · obtain ⟨e, cut⟩ := release h1 h2
    exact ⟨congrArg Governor.cutSeen e, cut⟩
  · have e : t = v := stands h
    rw [e, gov]
    exact ⟨rfl, drive⟩
  · exact {
      forward := keeps.forward.trans drives.forward
      reverse := keeps.reverse.trans drives.reverse
      others := fun k hk => (keeps.others k hk).trans (drives.others k hk)
      owners := fun k => ⟨(keeps.owners k).1.trans (drives.owners k).1, (keeps.owners k).2.1.trans (drives.owners k).2.1,
        (keeps.owners k).2.2.trans (drives.owners k).2.2⟩
      broom := keeps.broom.trans drives.broom }

/-- The ceiling read is kept for the status, or two free values in neutral (R85, entry 7). -/
theorem State.keepRead_spec (r : DriveRead) (s : State) :
    (s.keepRead r).gov = { s.gov with
      ceilingRead := (s.keepRead r).gov.ceilingRead, urgentRead := (s.keepRead r).gov.urgentRead } ∧
    (∀ c, r.limit s.gov = some c → (s.keepRead r).gov.ceilingRead = c ∧
      some (s.keepRead r).gov.urgentRead = s.gov.held.dir?.map r.ceiling.urgent) ∧
    s.keepRead r = { s with gov := (s.keepRead r).gov, freeCount := (s.keepRead r).freeCount } := by
  unfold State.keepRead
  split
  · next c hc =>
    refine ⟨rfl, fun x hx => ⟨Option.some.inj (hc.symm.trans hx), ?_⟩, rfl⟩
    obtain ⟨d, hd, -⟩ := Option.map_eq_some_iff.1 hc
    simp [DriveRead.urgent, hd]
  · next hn => exact ⟨rfl, fun x hx => (by rw [hn] at hx; cases hx), rfl⟩

/-- The four steps on the governor record: each value by its rule, of the record after the steps before it. -/
theorem Governor.period_spec (r : DriveRead) (set : GovernorSettings) (g : Governor) :
    let k := g.period r set
    k = { g with target := k.target, vRef := k.vRef, trim := k.trim, coil := k.coil } ∧
    k.target = formTarget r g ∧ k.vRef = rampedRef r set k.target g ∧
    k.trim = nextTrim r set { g with vRef := k.vRef } ∧ k.coil = coilCurrent set k := ⟨rfl, rfl, rfl, rfl, rfl⟩

/-! ### The run of an expiry -/

/-- A drive period expiry from `p` to `t`: after the shift test `a`, the direction taken up `b`, the ceiling kept `c`. -/
structure State.DriveRun (p a b c t : State) : Prop where
  shift : State.ShiftTested p a
  turn : State.TakesDirection a b
  kept : c.gov = { b.gov with ceilingRead := c.gov.ceilingRead, urgentRead := c.gov.urgentRead }
  read : ∀ x, p.driveRead.limit b.gov = some x → c.gov.ceilingRead = x ∧
    some c.gov.urgentRead = b.gov.held.dir?.map p.ceiling.urgent
  rest : c = { b with gov := c.gov, freeCount := c.freeCount }
  posts : t = ((c.modGov (Governor.period p.driveRead c.settings.governor)).postPump).releaseDrive

theorem State.drivePeriod_runs (p : State) : ∃ a b c, State.DriveRun p a b c p.drivePeriod := by
  obtain ⟨kept, read, rest⟩ := State.keepRead_spec p.driveRead p.shiftTest.takeDirection
  exact ⟨p.shiftTest, p.shiftTest.takeDirection, p.shiftTest.takeDirection.keepRead p.driveRead,
    State.shiftTest_tested p, State.takeDirection_takes _, kept, read, rest, rfl⟩

section Run
variable {p a b c t : State}

/-- The record that the steps find: the one before the expiry but for shift, direction, stall and what is read. -/
theorem State.DriveRun.found (run : State.DriveRun p a b c t) :
    (c.gov = { p.gov with
      held := c.gov.held, stallHold := c.gov.stallHold, stallTimer := c.gov.stallTimer, stallRaised := c.gov.stallRaised
      requested := c.gov.requested, shift := c.gov.shift, settle := c.gov.settle, setRange := c.gov.setRange
      ceilingRead := c.gov.ceilingRead, urgentRead := c.gov.urgentRead }) ∧
    c.gov.held = (if p.gov.vRef = 0 ∧ p.gov.cutSeen = false then p.gov.demandDir else p.gov.held) ∧
    c.gov.held = b.gov.held ∧ c.gov.requested = a.gov.requested ∧ c.gov.shift = a.gov.shift ∧
    c.gov.settle = a.gov.settle ∧ c.gov.setRange = a.gov.setRange ∧ c.gov.stallHold = b.gov.stallHold ∧
    c.gov.stallTimer = b.gov.stallTimer ∧ c.gov.stallRaised = b.gov.stallRaised ∧ c.settings = p.settings := by
  have kept := run.kept
  have turned := run.turn.gov
  have tested := run.shift.gov
  have held := run.turn.held
  have settings : c.settings = p.settings := by rw [run.rest, run.turn.rest, run.shift.rest]
  have aRef : a.gov.vRef = p.gov.vRef := by rw [tested]
  have aCut : a.gov.cutSeen = p.gov.cutSeen := by rw [tested]
  have aDemand : a.gov.demandDir = p.gov.demandDir := by rw [tested]
  have aHeld : a.gov.held = p.gov.held := by rw [tested]
  rw [aRef, aCut, aDemand, aHeld] at held
  refine ⟨?_, by rw [kept]; exact held, by rw [kept], by rw [kept, turned], by rw [kept, turned], by rw [kept, turned],
    by rw [kept, turned], by rw [kept], by rw [kept], by rw [kept], settings⟩
  rw [kept, turned, tested]

/-- The record that the steps leave (R69 to R74), in terms of the one they find. -/
theorem State.DriveRun.left (run : State.DriveRun p a b c t) :
    (t.gov = { c.gov with
      target := t.gov.target, vRef := t.gov.vRef, trim := t.gov.trim, coil := t.gov.coil, cutSeen := t.gov.cutSeen }) ∧
    t.gov.target = formTarget p.driveRead c.gov ∧
    t.gov.vRef = rampedRef p.driveRead p.settings.governor t.gov.target c.gov ∧
    t.gov.trim = nextTrim p.driveRead p.settings.governor { c.gov with vRef := t.gov.vRef } ∧
    t.gov.coil = coilCurrent p.settings.governor t.gov ∧
    (c.gov.cutSeen = true → c.scan.comps[(3 : Fin 4)].detected = false →
      t.gov.cutSeen = false ∧ t.output.driveCut = false) ∧
    (c.gov.cutSeen = false ∨ c.scan.comps[(3 : Fin 4)].detected = true →
      t.gov.cutSeen = c.gov.cutSeen ∧ t.output.driveCut = c.output.driveCut) ∧
    Output.DrivesPumps (if c.gov.cutSeen = false ∧ t.gov.held = .forward then t.gov.coil else 0)
      (if c.gov.cutSeen = false ∧ t.gov.held = .reverse then t.gov.coil else 0) c.output t.output ∧
    t = { c with gov := t.gov, output := t.output } := by
  have settings := run.found.2.2.2.2.2.2.2.2.2.2
  have posts := run.posts
  rw [settings] at posts
  obtain ⟨whole, target, ref, trim, coil⟩ := Governor.period_spec p.driveRead p.settings.governor c.gov
  obtain ⟨gov, release, stands, drives, rest⟩ :=
    State.drivePosts_spec (c.modGov (Governor.period p.driveRead p.settings.governor))
  rw [← posts] at gov release stands drives rest
  rw [State.modGov_gov] at gov release stands drives
  generalize Governor.period p.driveRead p.settings.governor c.gov = g at *
  have gCut : g.cutSeen = c.gov.cutSeen := by rw [whole]
  rw [gCut] at release stands drives
  have kTarget : t.gov.target = g.target := by rw [gov]
  have kRef : t.gov.vRef = g.vRef := by rw [gov]
  have kTrim : t.gov.trim = g.trim := by rw [gov]
  have kCoil : t.gov.coil = g.coil := by rw [gov]
  have kHeld : t.gov.held = g.held := by rw [gov]
  rw [← kCoil, ← kHeld] at drives
  refine ⟨?_, kTarget.trans target, ?_, ?_, ?_, release, stands, drives, by rw [rest]; rfl⟩
  · rw [kTarget, kRef, kTrim, kCoil]
    refine gov.trans ?_
    rw [whole]
  · rw [kRef, kTarget]; exact ref
  · rw [kTrim, kRef]; exact trim
  · rw [kCoil, coil, gov]; rfl

end Run

end Sys2Proof.Machine
end

section
/-! The drive period by its rules, one lemma for each group of them, and the obligation put together from these. -/

namespace Sys2Proof.Machine

section Run
variable {p a b c t : State}

/-- What a run leaves of the record before it, and what of the state between its steps reaches its end. -/
theorem State.DriveRun.ends (run : State.DriveRun p a b c t) :
    t.gov.held = b.gov.held ∧ t.ceiling = b.ceiling ∧ t.notices = b.notices ∧ t.scan = b.scan ∧ t.unit = a.unit ∧
    t.spray = a.spray ∧ t.bank = a.bank ∧ a.scan = p.scan ∧ a.gov.held = p.gov.held ∧
    t.gov.stallHold = b.gov.stallHold ∧ t.gov.stallTimer = b.gov.stallTimer ∧ t.gov.stallRaised = b.gov.stallRaised := by
  have left := run.left.1
  have whole := run.left.2.2.2.2.2.2.2.2
  have kept := run.kept
  have rest := run.rest
  have turned := run.turn.rest
  have tested := run.shift.rest
  have ceiling : t.ceiling = c.ceiling := by rw [whole]
  have notices : t.notices = c.notices := by rw [whole]
  have scan : t.scan = c.scan := by rw [whole]
  have unit : t.unit = c.unit := by rw [whole]
  have spray : t.spray = c.spray := by rw [whole]
  have bank : t.bank = c.bank := by rw [whole]
  exact ⟨by rw [left, kept], ceiling.trans (by rw [rest]), notices.trans (by rw [rest]), scan.trans (by rw [rest]),
    unit.trans (by rw [rest, turned]), spray.trans (by rw [rest, turned]), bank.trans (by rw [rest, turned]),
    by rw [tested], by rw [run.shift.gov], by rw [left, kept], by rw [left, kept], by rw [left, kept]⟩

/-- Demand, direction and the stall direction (R66, R68). -/
theorem State.DriveRun.direction (run : State.DriveRun p a b c t) :
    t.gov.demandDir = p.gov.demandDir ∧ t.gov.demandMag = p.gov.demandMag ∧ t.gov.stallDir = p.gov.stallDir ∧
    t.gov.held = (if p.gov.vRef = 0 ∧ p.gov.cutSeen = false then p.gov.demandDir else p.gov.held) := by
  have left := run.left.1
  obtain ⟨found, held, -⟩ := run.found
  exact ⟨by rw [left, found], by rw [left, found], by rw [left, found], (by rw [left] : t.gov.held = c.gov.held).trans held⟩

/-- Target and reference (R69 to R72), the ceiling and the stall read at the start of the expiry (entry 21). -/
theorem State.DriveRun.ramps (run : State.DriveRun p a b c t) :
    let k := t.gov
    let g := p.gov
    let set := p.settings.governor
    let ceil := k.held.dir?.map p.ceiling.effective
    let working := p.unit.mode == .entering || p.unit.mode == .sweep || p.unit.mode == .leaving
    let stop := k.held.dir?.map p.ceiling.urgent == some true && ceil == some k.target
    k.target = (if g.cutSeen = true ∨ k.held = .neutral ∨ g.demandDir ≠ k.held then 0
      else min (g.demandMag * (p.ceiling.entry .mode).cap / 1000) (ceil.getD 0)) ∧
    (k.target ≤ g.vRef → k.vRef = g.vRef -
      min (max 1 ((if stop then set.stopDecel else if working then p.program.decel else set.decel) / 100))
        (g.vRef - k.target)) ∧
    (g.vRef < k.target → k.vRef =
      (if g.stallHold = true ∨ k.settle.isSome = true ∨ ceil.getD 0 ≤ g.vRef then g.vRef
       else g.vRef + min (max 1 ((if working then p.program.accel else set.accel) / 100)) (k.target - g.vRef))) := by
  intro k g set ceil working stop
  obtain ⟨left, target, ref, -⟩ := run.left
  obtain ⟨found, -⟩ := run.found
  have held : t.gov.held = c.gov.held := by rw [left]
  have settle : t.gov.settle = c.gov.settle := by rw [left]
  have cut : c.gov.cutSeen = p.gov.cutSeen := by rw [found]
  have demandDir : c.gov.demandDir = p.gov.demandDir := by rw [found]
  have demandMag : c.gov.demandMag = p.gov.demandMag := by rw [found]
  have vRef : c.gov.vRef = p.gov.vRef := by rw [found]
  have limit : p.driveRead.limit c.gov = ceil := by rw [DriveRead.limit, ← held]; rfl
  have formed : k.target = (if g.cutSeen = true ∨ k.held = .neutral ∨ g.demandDir ≠ k.held then 0
      else min (g.demandMag * (p.ceiling.entry .mode).cap / 1000) (ceil.getD 0)) := by
    rw [formTarget_eq, cut, demandDir, demandMag, limit, ← held] at target
    exact target
  refine ⟨formed, fun h => ?_, fun h => ?_⟩
  · rw [rampedRef_falls p.driveRead p.settings.governor c.gov (by rw [vRef]; exact h), vRef, DriveRead.stops, limit, ← held] at ref
    exact ref
  · have some : ceil.isSome = true := by
      have pos : k.target ≠ 0 := fun h0 => by omega
      have forced : k.held ≠ .neutral := fun hn => pos (formed.trans (if_pos (.inr (.inl hn))))
      rw [Option.isSome_map]
      cases hh : k.held with
      | neutral => exact absurd hh forced
      | forward | reverse => rfl
    rw [rampedRef_rises p.driveRead p.settings.governor c.gov (by rw [vRef]; exact h) (by rw [limit]; exact some), limit, vRef, ← settle] at ref
    exact ref

/-- Trim and coil current (R73, R74). -/
theorem State.DriveRun.currents (run : State.DriveRun p a b c t) :
    let k := t.gov
    let g := p.gov
    let set := p.settings.governor
    k.trim = (if k.vRef = 0 then 0
      else if p.travel.slipHold.isSome = true ∨ g.stallHold = true ∨ g.cutSeen = true then g.trim
      else max (-(set.trimLimit : Int)) (min set.trimLimit
        (g.trim + ((k.vRef : Int) - p.travel.ground).tdiv set.kDiv))) ∧
    (k.coil : Int) = (if k.vRef = 0 then 0
      else max 0 (min (set.iFull : Int) ((set.iStart : Int) +
        ((k.vRef * (set.iFull - set.iStart) /
          (if k.setRange = .work then set.vFullWork else set.vFullTransport) : Nat) : Int) + k.trim))) := by
  intro k g set
  obtain ⟨-, -, -, trim, coil, -⟩ := run.left
  obtain ⟨found, -⟩ := run.found
  have cut : c.gov.cutSeen = p.gov.cutSeen := by rw [found]
  have was : c.gov.trim = p.gov.trim := by rw [found]
  refine ⟨?_, ?_⟩
  · rw [nextTrim_eq] at trim
    dsimp only at trim
    rw [cut, was] at trim
    exact trim
  · exact (congrArg Nat.cast coil).trans (coilCurrent_eq p.settings.governor t.gov)

/-- The coils, the cut and the ceiling read (R74, R82, R85). -/
theorem State.DriveRun.coils (run : State.DriveRun p a b c t) :
    t.output.channels[(0 : Channel)].setpoint = (if p.gov.cutSeen = false ∧ t.gov.held = .forward then t.gov.coil else 0) ∧
    t.output.channels[(1 : Channel)].setpoint = (if p.gov.cutSeen = false ∧ t.gov.held = .reverse then t.gov.coil else 0) ∧
    (∀ x, t.gov.held.dir?.map p.ceiling.effective = some x →
      t.gov.ceilingRead = x ∧ some t.gov.urgentRead = t.gov.held.dir?.map p.ceiling.urgent) ∧
    (∀ k : Channel, 2 ≤ k.val → t.output.channels[k] = a.output.channels[k]) ∧
    (∀ k : Channel, t.output.channels[k].fault = p.output.channels[k].fault ∧
      t.output.channels[k].holder = p.output.channels[k].holder ∧ t.output.channels[k].level = p.output.channels[k].level) ∧
    t.output.broomCut = p.output.broomCut := by
  obtain ⟨left, -, -, -, -, -, -, drives, -⟩ := run.left
  obtain ⟨found, -, held, -⟩ := run.found
  have cut : c.gov.cutSeen = p.gov.cutSeen := by rw [found]
  have output : c.output = a.output := by rw [run.rest, run.turn.rest]
  have heldLeft : t.gov.held = b.gov.held := by rw [left]; exact held
  have read : t.gov.ceilingRead = c.gov.ceilingRead := by rw [left]
  have urgent : t.gov.urgentRead = c.gov.urgentRead := by rw [left]
  rw [cut, output] at drives
  refine ⟨drives.forward, drives.reverse, fun x hx => ?_, drives.others, fun k => ?_, drives.broom.trans run.shift.cuts.2⟩
  · rw [read, urgent, heldLeft]
    rw [heldLeft] at hx
    exact run.read x hx
  · obtain ⟨fault, holder, level⟩ := drives.owners k
    obtain ⟨fault', holder', level'⟩ := run.shift.owners k
    exact ⟨fault.trans fault', holder.trans holder', level.trans level'⟩

/-- A cut is released with comparator 3 CLEAR, and stands with it DETECTED (R82). -/
theorem State.DriveRun.release (run : State.DriveRun p a b c t) :
    (p.gov.cutSeen = true → p.scan.comps[(3 : Fin 4)].detected = false →
      t.gov.cutSeen = false ∧ t.output.driveCut = false) ∧
    (p.gov.cutSeen = true → p.scan.comps[(3 : Fin 4)].detected = true →
      t.gov.cutSeen = true ∧ t.output.driveCut = p.output.driveCut) ∧
    (p.gov.cutSeen = false → t.output.driveCut = p.output.driveCut) := by
  obtain ⟨-, -, -, -, -, release, stands, -, -⟩ := run.left
  obtain ⟨found, -⟩ := run.found
  obtain ⟨heldLeft, -, -, scanLeft, -, -, -, scan, heldFound, -⟩ := run.ends
  have cut : c.gov.cutSeen = p.gov.cutSeen := by rw [found]
  have output : c.output.driveCut = p.output.driveCut :=
    (by rw [run.rest, run.turn.rest] : c.output.driveCut = a.output.driveCut).trans run.shift.cuts.1
  have kept : p.gov.cutSeen = true → c.scan = p.scan := fun hc => by
    have same : b = a := run.turn.stands (by
      rw [← heldLeft, heldFound, run.direction.2.2.2, if_neg (by simp [hc])])
    rw [run.rest, same, ← scan]
  refine ⟨fun hc hf => release (cut.trans hc) (by rw [kept hc]; exact hf), fun hc hd => ?_, fun hc => ?_⟩
  · obtain ⟨seen, stood⟩ := stands (.inr (by rw [kept hc]; exact hd))
    exact ⟨seen.trans (cut.trans hc), stood.trans output⟩
  · exact (stands (.inl (cut.trans hc))).2.trans output

/-- The range test of an expiry: a waiting shift switches, and every other record but a found range stands (R75, R76). -/
theorem State.DriveRun.shifts (run : State.DriveRun p a b c t) :
    (p.gov.shift = .waiting → p.travel.ground ≤ p.settings.caps.shiftSpeed → t.gov.shift = .settling ∧
      t.gov.setRange = p.gov.requested.getD p.gov.setRange ∧
      t.gov.settle = some (later t.now p.settings.governor.settle) ∧
      t.output.channels[(2 : Channel)].setpoint = (if t.gov.setRange = .work then 1 else 0)) ∧
    ((p.gov.shift = .waiting ∧ p.settings.caps.shiftSpeed < p.travel.ground) ∨ p.gov.shift = .settling ∨
      (p.gov.shift = .none ∧ p.gov.requested = none) →
      t.gov.shift = p.gov.shift ∧ t.gov.setRange = p.gov.setRange ∧ t.gov.settle = p.gov.settle ∧
      t.gov.requested = p.gov.requested ∧ t.output.channels[(2 : Channel)] = p.output.channels[(2 : Channel)]) := by
  have left := run.left.1
  have whole := run.left.2.2.2.2.2.2.2.2
  obtain ⟨-, -, -, requested, shift, settle, range, -⟩ := run.found
  have two : t.output.channels[(2 : Channel)] = a.output.channels[(2 : Channel)] := run.coils.2.2.2.1 2 (by decide)
  have tShift : t.gov.shift = a.gov.shift := by rw [left]; exact shift
  have tRange : t.gov.setRange = a.gov.setRange := by rw [left]; exact range
  have tSettle : t.gov.settle = a.gov.settle := by rw [left]; exact settle
  have tRequested : t.gov.requested = a.gov.requested := by rw [left]; exact requested
  have now : t.now = p.now := by
    unfold State.now
    rw [whole, run.rest, run.turn.rest, run.shift.rest]
  rw [tShift, tRange, tSettle, tRequested, two, now]
  exact ⟨run.shift.switches, fun h => by rw [run.shift.stands h]; exact ⟨rfl, rfl, rfl, rfl, rfl⟩⟩

/-- A request that found its range set completes before the direction is taken up (R77, entry 15). -/
theorem State.DriveRun.completes (run : State.DriveRun p a b c t) (hn : p.gov.shift = .none)
    (hr : p.gov.requested.isSome = true) :
    t.gov.requested = none ∧ t.gov.shift = .none ∧ t.gov.settle = none ∧ t.gov.setRange = p.gov.setRange ∧
    t.output.channels[(2 : Channel)] = p.output.channels[(2 : Channel)] ∧
    (t.ceiling.entry .rangeShift).active = false ∧ State.TakesRangeDone p.gov.setRange p t := by
  have left := run.left.1
  have whole := run.left.2.2.2.2.2.2.2.2
  obtain ⟨-, -, -, requested, shift, settle, range, -⟩ := run.found
  obtain ⟨-, ceiling, notices, -, unit, spray, bank, -⟩ := run.ends
  obtain ⟨-, -, -, others, -⟩ := run.coils
  have arms : t.arms = a.arms := by rw [whole, run.rest, run.turn.rest]
  obtain ⟨gov, inactive, takes, kinds, sub, settles⟩ := State.completeRange_spec p
  rw [← run.shift.completes hn hr] at gov inactive takes settles
  have entries := run.turn.entries
  rw [← ceiling] at entries
  refine ⟨by rw [left]; exact requested.trans (by rw [gov]), by rw [left]; exact shift.trans (by rw [gov]),
    by rw [left]; exact settle.trans (by rw [gov]), by rw [left]; exact range.trans (by rw [gov]),
    (others 2 (by decide)).trans (settles.channels 2 (by decide)), (entries .rangeShift).1.trans inactive, ?_⟩
  exact takes.after unit spray arms (fun ch hc => others ch (hc.trans' (by decide))) (fun src _ => entries src)
    (fun l k hk => by
      rw [notices]
      exact run.turn.events l k (by rcases hk with rfl | rfl <;> decide) (by rcases hk with rfl | rfl <;> decide))
    (by rw [bank])

/-- Beside a completion an expiry moves nothing of the other units, and reports its direction's change (R57, R68). -/
theorem State.DriveRun.beside (run : State.DriveRun p a b c t) (h : p.gov.shift ≠ .none ∨ p.gov.requested = none) :
    (∀ ch : Channel, 3 ≤ ch.val → t.output.channels[ch] = p.output.channels[ch]) ∧ t.unit = p.unit ∧
    t.spray = p.spray ∧ (∀ src, t.ceiling.sameEntry p.ceiling src) ∧ t.bank = p.bank ∧
    (∀ (l : Link) (e : EventKind), e ≠ .alarmGone → e ≠ .ceilingBinding →
      (t.notices.events l).sameKind (p.notices.events l) e) ∧
    (t.gov.held = p.gov.held → t.ceiling = p.ceiling ∧ t.notices = p.notices) ∧
    (t.gov.held ≠ p.gov.held → ∃ r : State, State.CeilingReports p r ∧ t.ceiling = r.ceiling ∧
      ∀ l : Link, (t.notices.events l).sameKind (r.notices.events l) .ceilingBinding) := by
  obtain ⟨heldLeft, ceiling, notices, -, unit, spray, bank, -, heldFound, -⟩ := run.ends
  obtain ⟨whole, posts⟩ := run.shift.within h
  obtain ⟨-, -, -, others, -⟩ := run.coils
  have aCeiling : a.ceiling = p.ceiling := by rw [whole]
  have aNotices : a.notices = p.notices := by rw [whole]
  have aUnit : a.unit = p.unit := by rw [whole]
  have aSpray : a.spray = p.spray := by rw [whole]
  have aBank : a.bank = p.bank := by rw [whole]
  have entries := run.turn.entries
  have events := run.turn.events
  have turns := run.turn.turns
  have stands := run.turn.stands
  rw [aCeiling] at entries
  rw [aNotices] at events
  rw [← heldLeft, heldFound] at turns stands
  rw [ceiling, notices]
  refine ⟨fun ch hc => (others ch (hc.trans' (by decide))).trans (posts ch fun hn => by rw [hn] at hc; exact absurd hc (by decide)), unit.trans aUnit,
    spray.trans aSpray, entries, bank.trans aBank, events, fun hh => ?_, fun hh => ?_⟩
  · rw [stands hh]; exact ⟨aCeiling, aNotices⟩
  · obtain ⟨-, -, r, reports, table, binding⟩ := turns hh
    have vRef : a.gov.vRef = p.gov.vRef := by rw [run.shift.gov]
    exact ⟨r, reports.congr aCeiling.symm aNotices.symm (by rw [aBank]) vRef.symm (by unfold State.now; rw [whole]) rfl rfl rfl,
      table, binding⟩

/-- What an expiry leaves in every case: the events of its own causes aside, the masks, the tallies, and the scan. -/
theorem State.DriveRun.leaves (run : State.DriveRun p a b c t) :
    (∀ (l : Link) (e : EventKind), e ∉ [EventKind.modeChanged, .programSwapped, .alarmGone, .ceilingBinding] →
      (t.notices.events l).sameKind (p.notices.events l) e) ∧
    (∀ l : Link, (t.notices.events l).mask = (p.notices.events l).mask) ∧
    (∀ x : Tally, x ≠ .urgentStops → x ≠ .shortfall → t.bank.tallies[x.index] = p.bank.tallies[x.index]) ∧
    t.scan = { p.scan with input3 := t.scan.input3, comps := t.scan.comps } ∧
    (t.gov.held = p.gov.held → t.scan = p.scan) ∧ (t.gov.held ≠ p.gov.held → t.scan.input3 = t.gov.held) ∧
    (∀ d, t.gov.held.dir? = some d → t.gov.held ≠ p.gov.held → t.ceiling.reportDir = d) := by
  obtain ⟨heldLeft, ceiling, notices, scan, -, -, bank, aScan, heldFound, -⟩ := run.ends
  have turns := run.turn.turns
  have stands := run.turn.stands
  have whole := run.turn.scan
  rw [← heldLeft, heldFound] at turns stands
  rw [aScan] at whole
  rw [notices, bank, scan, ceiling]
  refine ⟨fun l e he => ?_, fun l => (run.turn.masks l).trans (run.shift.masks l), run.shift.tallies, whole,
    fun hh => ?_, fun hh => (turns hh).1, fun d hd hh => (turns hh).2.1 d hd⟩
  · simp only [List.mem_cons, List.not_mem_nil, or_false, not_or] at he
    obtain ⟨mode, swap, gone, binding⟩ := he
    exact EventSet.sameKind_trans (run.shift.events l e (by simp [mode, swap, binding])) (run.turn.events l e gone binding)
  · rw [stands hh]; exact aScan

/-- The stall at an expiry: it ends where a direction change returns comparator 3 to CLEAR (R80, R151). -/
theorem State.DriveRun.stall (run : State.DriveRun p a b c t) :
    (t.gov.held = p.gov.held ∨ (p.HeldLaw ∧ p.scan.comps[(3 : Fin 4)].detected = false) →
      t.gov.stallHold = p.gov.stallHold ∧ t.gov.stallTimer = p.gov.stallTimer ∧ t.gov.stallRaised = p.gov.stallRaised ∧
      t.notices.alarms = p.notices.alarms ∧
      ∀ l : Link, (t.notices.events l).sameKind (p.notices.events l) .alarmGone) ∧
    (t.gov.held ≠ p.gov.held → p.HeldLaw → t.scan.comps = p.scan.comps.set 3 {} ∧
      (p.scan.comps[(3 : Fin 4)].detected = true →
        t.gov.stallHold = false ∧ t.gov.stallTimer = none ∧ t.gov.stallRaised = false ∧
        (p.gov.stallRaised = true → State.GoesAbsent .driveStall (Dir.detail p.gov.stallDir) p t) ∧
        (p.gov.stallRaised = false → t.notices.alarms = p.notices.alarms ∧
          ∀ l : Link, (t.notices.events l).sameKind (p.notices.events l) .alarmGone))) := by
  obtain ⟨heldLeft, -, notices, scan, -, -, -, aScan, heldFound, hold, timer, raised⟩ := run.ends
  obtain ⟨turns, stands, clear, restarts⟩ :=
    And.intro run.turn.turns (And.intro run.turn.stands (And.intro run.turn.clear run.turn.restarts))
  have aHold : a.gov.stallHold = p.gov.stallHold := by rw [run.shift.gov]
  have aTimer : a.gov.stallTimer = p.gov.stallTimer := by rw [run.shift.gov]
  have aRaised : a.gov.stallRaised = p.gov.stallRaised := by rw [run.shift.gov]
  have aDir : a.gov.stallDir = p.gov.stallDir := by rw [run.shift.gov]
  have alarms := run.shift.alarms
  have gone : ∀ l : Link, (a.notices.events l).sameKind (p.notices.events l) .alarmGone :=
    fun l => run.shift.events l _ (by decide)
  rw [← heldLeft, heldFound] at stands restarts
  rw [aScan] at clear restarts
  rw [aHold, aTimer, aRaised, alarms] at clear
  rw [aRaised, aDir, alarms] at restarts
  rw [hold, timer, raised, notices, scan]
  refine ⟨fun h => ?_, fun hh law => ?_⟩
  · by_cases hh : t.gov.held = p.gov.held
    · rw [stands hh]
      exact ⟨aHold, aTimer, aRaised, alarms, gone⟩
    · obtain ⟨h1, h2, h3, h4, quiet⟩ := clear (h.resolve_left hh).2
      exact ⟨h1, h2, h3, h4, fun l => EventSet.sameKind_trans (gone l) (quiet l)⟩
  · obtain ⟨comps, ends⟩ := restarts hh law
    refine ⟨comps, fun hd => ?_⟩
    obtain ⟨h1, h2, h3, absent, quiet⟩ := ends hd
    refine ⟨h1, h2, h3, fun hr => ?_, fun hr => ⟨(quiet hr).1, fun l => EventSet.sameKind_trans (gone l) ((quiet hr).2 l)⟩⟩
    have went := absent hr
    unfold State.GoesAbsent State.told at went ⊢
    rw [alarms] at went
    rw [notices]
    exact went

/-- What an expiry may move at all. -/
theorem State.DriveRun.frame (run : State.DriveRun p a b c t) : t = { p with
    unit := t.unit, gov := t.gov, ceiling := t.ceiling, output := t.output, spray := t.spray, notices := t.notices
    scan := t.scan, bank := { p.bank with tallies := t.bank.tallies }, freeCount := t.freeCount } := by
  have whole := run.left.2.2.2.2.2.2.2.2
  have rest := run.rest
  have turned := run.turn.rest
  have tested := run.shift.rest
  obtain ⟨-, ceiling, notices, scan, unit, spray, bank, -⟩ := run.ends
  have free : t.freeCount = c.freeCount := by rw [whole]
  rw [ceiling, notices, scan, unit, spray, bank, free]
  rw [rest, turned, tested] at whole
  exact whole

end Run

/-- A range-done taken is judged by nothing that the next period's time is part of. -/
theorem State.TakesRangeDone.periods {r : Range} {u t : State} {f : Periods → Periods}
    (h : State.TakesRangeDone r (u.modPeriods f) t) : State.TakesRangeDone r u t :=
  ⟨h.discards, h.starts, h.waits, h.returns, h.changes, h.stands, h.swaps, h.channels, h.entries⟩

/-- Settles O32: each clause is the rule of its step, over the state that the expiry finds with its next period set. -/
theorem drivePeriodRuns : Obligations.DrivePeriodRuns := fun after s hr => by
  obtain ⟨p, hp⟩ : ∃ p, p = (s.elapse after).modPeriods fun q => { q with drive := later q.drive 10 } := ⟨_, rfl⟩
  obtain ⟨a, b, c, run⟩ := State.drivePeriod_runs p
  have taken : exec (.drivePeriodExpiry after) s = .next p.drivePeriod := by rw [hp]; exact if_pos hr
  refine ⟨_, taken, ?_⟩
  generalize p.drivePeriod = t at *
  intro u g k set q dirOf
  have dir : dirOf = DriveDir.dir? := funext fun d => by cases d <;> rfl
  clear_value dirOf
  subst dir
  obtain ⟨demandDir, demandMag, stallDir, held⟩ := run.direction
  obtain ⟨target, falls, rises⟩ := run.ramps
  obtain ⟨trim, coil⟩ := run.currents
  obtain ⟨forward, reverse, read, -, owners, broom⟩ := run.coils
  obtain ⟨releases, stays, uncut⟩ := run.release
  obtain ⟨switches, stands⟩ := run.shifts
  have completes := run.completes
  have beside := run.beside
  obtain ⟨events, masks, tallies, scan, same, input, report⟩ := run.leaves
  obtain ⟨clear, restarts⟩ := run.stall
  have frame := run.frame
  subst hp
  exact ⟨congrArg State.periods frame, demandDir, demandMag, held, target, falls, rises, trim, coil, forward, reverse,
    read, releases, stays, switches, stands, fun h1 h2 => by
      obtain ⟨r1, r2, r3, r4, r5, r6, takes⟩ := completes h1 h2
      exact ⟨r1, r2, r3, r4, r5, r6, takes.periods⟩,
    beside, events, masks, tallies, scan, same, input, report, clear, restarts, stallDir, uncut, broom, owners,
    by rw [congrArg State.periods frame]; exact frame⟩

end Sys2Proof.Machine
end

section
/-! The governor over every step: held direction and speed reference move at a drive period expiry alone (R68, R71, R80). -/

namespace Sys2Proof.Machine

/-- The direction of `g` is held in `s`, with a speed reference not above that of `g`. -/
def Governor.SlowsTo (g : Governor) (s : State) : Prop := s.gov.held = g.held ∧ s.gov.vRef ≤ g.vRef

section
variable {g : Governor} {s t : State}

theorem Governor.SlowsTo.same (h : g.SlowsTo s) (hg : t.gov = s.gov) : g.SlowsTo t := by
  unfold Governor.SlowsTo; rw [hg]; exact h

theorem Governor.slowsTo_keptCore (g : Governor) : State.KeptCore g.SlowsTo where
  elapse h := h.same (by simp)
  periods h := h
  links h := h
  freeCount h := h
  post h := h
  quiet _ h := h
  raiseAlarm h := h.same (by simp)
  alarmGone h := h.same (by simp)
  bumpBy h := h
  bank _ h := h
  activate _ h := h.same (by simp)
  deactivate _ h := h.same (by simp)
  updateCap _ h := h.same (by simp)
  travel _ h := h
  addDistance h := h.same (by simp)
  scan _ h := h
  gov hf h := ⟨(hf _).1.trans h.1, (hf _).2.trans h.2⟩
  setpoint _ h := h
  trim _ h := h
  endDirect h := h
  faultChannel _ h := h
  mendChannel _ _ h := h
  takeDirect _ _ _ _ h := h
  setDriveCut h := h
  broomCut h := h.same (by simp)
  releaseBroom h := h.same (by simp)
  unit _ h := h
  setMode _ h := h.same (by simp)
  leaveService _ h := h.same (by simp)
  turn {f _ _ s} _ _ h := Governor.SlowsTo.same (s := s.modUnit f) h (by simp)
  store _ _ h := h
  pend _ h := h
  armFlags _ h := h
  armMarks _ h := h
  rephase _ _ h := h.same (by simp)
  postRotation h := h
  postForce h := h.same (by simp)
  judgeBars h := h.same (by simp)
  settleBars {f s} _ h := Governor.SlowsTo.same (s := s.modSpray f) h (by simp)
  pump _ h := h
  cycleStart h := h.same (by simp)
  closeValve h := h
  settings _ _ _ h := h
  transportMax _ h := h.same (by simp)

/-- Every command but the resets and the drive period keeps the held direction and raises no reference. -/
theorem Governor.slowsTo_exec {c : Instr} (hp : ∀ x, c ≠ .powerOnReset x) (hj : ∀ h, c ≠ .restart h)
    (hd : ∀ n, c ≠ .drivePeriodExpiry n) (h : g.SlowsTo s) (he : exec c s = .next t) : g.SlowsTo t :=
  ((Governor.slowsTo_keptCore g).kept fun _ h => h.same (by simp)).exec {
    lower := fun _ _ _ _ _ h => (Governor.slowsTo_keptCore g).moved (h.same (by simp))
    drive := fun ⟨n, hn⟩ => absurd hn (hd n)
    powerOn := fun x hx => absurd hx (hp x)
    joint := fun ⟨h, hn⟩ => absurd hn (hj h) } h he

end

/-- What O52 says of one step from `s` to `t`. -/
def State.TurnsAtZero (s t : State) : Prop :=
  (t.gov.held ≠ s.gov.held → s.gov.vRef = 0 ∧ s.gov.cutSeen = false ∧ t.gov.held = s.gov.demandDir) ∧
  (s.gov.vRef < t.gov.vRef → ∃ d : Dir, t.gov.held = (match d with | .forward => .forward | .reverse => .reverse) ∧
    s.gov.vRef < s.ceiling.effective d ∧ t.gov.vRef ≤ s.ceiling.effective d ∧ s.gov.stallHold = false ∧
    t.gov.stallHold = false ∧ t.gov.settle = none)

theorem Governor.SlowsTo.turnsAtZero {s t : State} (h : s.gov.SlowsTo t) : s.TurnsAtZero t :=
  ⟨fun hn => absurd h.1 hn, fun hn => absurd hn (Nat.not_lt.2 h.2)⟩

/-- A held direction has a ceiling, which is that of the direction named. -/
theorem DriveDir.limit_eq_some {d : DriveDir} {f : Dir → Nat} {c : Nat} (h : d.dir?.map f = some c) :
    ∃ x : Dir, d = (match x with | .forward => .forward | .reverse => .reverse) ∧ f x = c := by
  cases d with
  | neutral => cases h
  | forward => exact ⟨.forward, rfl, Option.some.inj h⟩
  | reverse => exact ⟨.reverse, rfl, Option.some.inj h⟩

/-- A drive period expiry turns at a reference of 0, and raises the reference where nothing bars the rise (R68, R71). -/
theorem State.DriveRun.turnsAtZero {p a b c t : State} (run : State.DriveRun p a b c t) : p.TurnsAtZero t := by
  obtain ⟨-, -, -, held⟩ := run.direction
  obtain ⟨target, falls, rises⟩ := run.ramps
  refine ⟨fun hn => ?_, fun hn => ?_⟩
  · by_cases hz : p.gov.vRef = 0 ∧ p.gov.cutSeen = false
    · exact ⟨hz.1, hz.2, held.trans (if_pos hz)⟩
    · exact absurd (held.trans (if_neg hz)) hn
  · have higher : p.gov.vRef < t.gov.target := by
      by_contra hf
      have := falls (Nat.le_of_not_lt hf)
      omega
    have rise := rises higher
    split at rise
    · omega
    next barred =>
    simp only [not_or, Bool.not_eq_true, Option.isSome_eq_false_iff, Option.isNone_iff_eq_none, Nat.not_le] at barred
    obtain ⟨stall, settle, below⟩ := barred
    have within : t.gov.target ≤ (t.gov.held.dir?.map p.ceiling.effective).getD 0 := by
      rw [target]
      split
      · exact Nat.zero_le _
      · exact Nat.min_le_right _ _
    cases limit : t.gov.held.dir?.map p.ceiling.effective with
    | none => rw [limit] at below; exact absurd below (Nat.not_lt_zero _)
    | some x =>
      rw [limit, Option.getD_some] at below within
      obtain ⟨d, dir, cap⟩ := DriveDir.limit_eq_some limit
      obtain ⟨-, -, -, -, -, -, -, -, -, hold, -⟩ := run.ends
      refine ⟨d, dir, by rw [cap]; exact below, by rw [cap]; omega, stall, ?_, settle⟩
      by_contra hh
      have was := run.turn.hold (hold ▸ Bool.eq_true_of_not_eq_false hh)
      rw [run.shift.gov, stall] at was
      cases was

/-- Settles O52: at a drive period expiry by the rules of its run, at any other command as one of the acts that slow. -/
theorem governorTurnsAtZero : Obligations.GovernorTurnsAtZero := fun s t c rest hs hp hj he => by
  have run : exec c (s.modPending fun _ => rest) = .next t := by
    unfold step at he
    rw [hs] at he
    exact he
  by_cases hd : ∃ n, c = .drivePeriodExpiry n
  · obtain ⟨n, rfl⟩ := hd
    obtain ⟨u, hu⟩ : ∃ u, u = (s.modPending fun _ => rest).elapse n := ⟨_, rfl⟩
    by_cases due : reached u.now u.periods.drive = true
    · obtain ⟨a, b, c, period⟩ := State.drivePeriod_runs (u.modPeriods fun q => { q with drive := later q.drive 10 })
      have taken : exec (.drivePeriodExpiry n) (s.modPending fun _ => rest) =
          .next (u.modPeriods fun q => { q with drive := later q.drive 10 }).drivePeriod := by
        subst hu; exact if_pos due
      obtain rfl : _ = t := Host.Outcome.next.inj (taken.symm.trans run)
      have turned := period.turnsAtZero
      subst hu
      exact turned
    · have idle : exec (.drivePeriodExpiry n) (s.modPending fun _ => rest) = .next u := by subst hu; exact if_neg due
      obtain rfl : u = t := Host.Outcome.next.inj (idle.symm.trans run)
      subst hu
      exact Governor.SlowsTo.turnsAtZero ⟨rfl, le_rfl⟩
  · exact (Governor.slowsTo_exec hp hj (fun n hn => hd ⟨n, hn⟩)
      (s := s.modPending fun _ => rest) ⟨rfl, le_rfl⟩ run).turnsAtZero

end Sys2Proof.Machine
end

section
/-! What the Mode and Program Unit answers to SERVICE_ENTER, SERVICE_LEAVE, WRITE_FIELD, COMMIT_EDIT and SELECT_PROGRAM (R12,
R13, R19 to R26): one equation for each answer of its acts, on any state, and from them the statements about these requests. -/

namespace Sys2Proof.Machine

/-! ### SERVICE_ENTER and SERVICE_LEAVE (R12, R13) -/

section Service
variable {s : State}

theorem State.serviceEnter_state (hm : s.unit.mode = .entering ∨ s.unit.mode = .sweep ∨ s.unit.mode = .leaving) :
    s.serviceEnter = answer .state s := by
  rcases hm with hm | hm | hm <;> simp only [State.serviceEnter, hm]

theorem State.serviceEnter_service (hm : s.unit.mode = .service) : s.serviceEnter = answer .done s := by
  simp only [State.serviceEnter, hm]

theorem State.standsForService_iff : s.standsForService = true ↔
    s.travel.ground = 0 ∧ s.gov.vRef = 0 ∧ s.gov.demandMag = 0 := by
  simp [State.standsForService, and_assoc]

theorem State.serviceEnter_moving (hm : s.unit.mode = .transport)
    (hv : 0 < s.travel.ground ∨ 0 < s.gov.vRef ∨ 0 < s.gov.demandMag) : s.serviceEnter = answer .state s := by
  simp only [State.serviceEnter, hm]
  exact if_neg fun h => by
    obtain ⟨h1, h2, h3⟩ := State.standsForService_iff.1 h
    omega

theorem State.serviceEnter_taken (hm : s.unit.mode = .transport) (hg : s.travel.ground = 0) (hv : s.gov.vRef = 0)
    (hd : s.gov.demandMag = 0) : s.serviceEnter = answer .done (s.setMode .service) := by
  simp only [State.serviceEnter, hm]
  exact if_pos (State.standsForService_iff.2 ⟨hg, hv, hd⟩)

end Service

/-- Settles O21: the taken enter is a change of the mode, the taken leave the unit's leaving of SERVICE. -/
theorem serviceEnteredAndLeft : Obligations.ServiceEnteredAndLeft := by
  intro h s
  rw [← State.taken_unit h s]
  refine ⟨fun hp => ⟨⟨fun hm => ?service, fun hm => ?working, fun hm hv => ?moving⟩, fun hm hg hv hd => ?taken⟩,
    fun hp => ⟨fun hm => ?out, fun hm => ?left⟩⟩
  case service => exact congrArg Host.Outcome.next (State.serve_eq_answered hp (State.serviceEnter_service hm))
  case working => exact congrArg Host.Outcome.next (State.serve_eq_answered hp (State.serviceEnter_state hm))
  case moving =>
    refine congrArg Host.Outcome.next (State.serve_eq_answered hp (State.serviceEnter_moving hm ?_))
    rw [State.taken_travel, State.taken_gov]
    exact hv
  case taken =>
    have stands := State.serviceEnter_taken hm (by rw [State.taken_travel]; exact hg) (by rw [State.taken_gov]; exact hv)
      (by rw [State.taken_gov]; exact hd)
    exact ⟨_, congrArg Host.Outcome.next (State.serve_eq_answered hp stands), State.setMode_spec .service (s.taken h)⟩
  case out => exact congrArg Host.Outcome.next (State.serve_eq_answered hp (if_neg hm))
  case left =>
    exact ⟨_, congrArg Host.Outcome.next (State.serve_eq_answered hp (if_pos hm)), State.leaveService_spec _⟩

/-! ### WRITE_FIELD (R15, R19, R20) -/

section WriteField
variable {l : Link} {field place : Byte} {value : FieldValue} {g : Staging} {s : State}

/-- The fields that exist are those from 1 to 21 (R15). -/
theorem fieldOwner_eq {n : Nat} : fieldOwner n =
    if 1 ≤ n ∧ n ≤ 21 then some (if 2 ≤ n ∧ n ≤ 6 then .drive else .body) else none := by
  unfold fieldOwner
  split
  · rw [if_pos (by omega)]
  · split
    · rw [if_pos (by omega)]
    · rw [if_neg (by omega)]

theorem placeOk_iff : placeOk field place = true ↔ (field.toNat = 14 ∨ field.toNat = 16 → place.toNat ≤ 5) := by
  simp only [placeOk, Bool.or_eq_true, Bool.not_eq_true', Bool.or_eq_false_iff, beq_eq_false_iff_ne, decide_eq_true_eq]
  tauto

theorem State.writeField_unclaimed (hg : s.unit.staging = none) : s.writeField l field place value = answer .state s := by
  simp only [State.writeField, hg]

theorem State.writeField_held (hg : s.unit.staging = some g) (hl : g.holder ≠ l) :
    s.writeField l field place value = answer .held s := by
  simp only [State.writeField, hg, if_pos hl]

theorem State.writeField_unknown (hg : s.unit.staging = some g) (hl : g.holder = l)
    (hk : ¬(1 ≤ field.toNat ∧ field.toNat ≤ 21 ∧ (field.toNat = 14 ∨ field.toNat = 16 → place.toNat ≤ 5))) :
    s.writeField l field place value = answer .unknown s := by
  simp only [State.writeField, hg, if_neg (not_not_intro hl), fieldOwner_eq]
  by_cases hf : 1 ≤ field.toNat ∧ field.toNat ≤ 21
  · have hp : placeOk field place = false :=
      Bool.eq_false_of_not_eq_true fun hp => hk ⟨hf.1, hf.2, placeOk_iff.1 hp⟩
    simp only [if_pos hf, hp, Bool.not_false, if_true]
  · simp only [if_neg hf]

variable (hk : 1 ≤ field.toNat ∧ field.toNat ≤ 21 ∧ (field.toNat = 14 ∨ field.toNat = 16 → place.toNat ≤ 5))
include hk

/-- A write of an existing field by the holder of the claim: its link, then its value, is asked for. -/
theorem State.writeField_known (hg : s.unit.staging = some g) (hl : g.holder = l) :
    s.writeField l field place value =
      if l ≠ (if 2 ≤ field.toNat ∧ field.toNat ≤ 6 then .drive else .body) then answer .denied s
      else if fieldAccepts field.toNat value = false then answer .range s
      else answer .done { s with unit := { s.unit with staging := some { g with
        record := g.record.setField field.toNat place.toNat value, idle := later s.now 2000 } } } := by
  obtain ⟨h1, h2, hp⟩ := hk
  simp only [State.writeField, hg, if_neg (not_not_intro hl), fieldOwner_eq, if_pos (And.intro h1 h2), placeOk_iff.2 hp,
    Bool.not_true, Bool.false_eq_true, if_false, Bool.not_eq_true', ne_comm (a := l)]
  rfl

end WriteField

/-- A posting to one link, by the bits of its event set (R195). -/
theorem State.lapseClaim_spec {g : Staging} {s : State} (hg : s.unit.staging = some g) :
    let t := s.lapseClaim
    t.unit = { s.unit with staging := none } ∧
    (t.notices.events g.holder).pending = (s.notices.events g.holder).pending ||| 512#16 ∧
    (t.notices.events g.holder).counts[9] = min 15 ((s.notices.events g.holder).counts[9] + 1) ∧
    t.notices.events g.holder.other = s.notices.events g.holder.other ∧ t.notices.alarms = s.notices.alarms ∧
    t = { s with unit := t.unit, notices := t.notices } := by
  have lapse : s.lapseClaim = (s.modUnit fun u => { u with staging := none }).post .claimLapsed g.holder := by
    simp only [State.lapseClaim, hg]
  rw [lapse]
  have own := State.post_events .claimLapsed g.holder g.holder (s.modUnit fun u => { u with staging := none })
  have other := State.post_events .claimLapsed g.holder g.holder.other (s.modUnit fun u => { u with staging := none })
  rw [if_pos rfl] at own
  rw [if_neg (by cases g.holder <;> decide)] at other
  refine ⟨rfl, by rw [own]; rfl, ?_, other, State.post_alarms _ _ _, rfl⟩
  rw [own]
  exact (EventSet.post_spec .claimLapsed (s.notices.events g.holder)).2.1

theorem Half.eq_zero_iff (v : Half) : v = 0 ↔ v.toNat = 0 := by
  rw [← BitVec.toNat_inj]; rfl

theorem within_iff {lo hi v : Nat} : within lo hi v = true ↔ lo ≤ v ∧ v ≤ hi := by simp [within]

/-- Settles O23: the answers are the equations of the unit's act; the accepted values and the stored ones are the model's. -/
theorem fieldWritesAndLapse : Obligations.FieldWritesAndLapse := by
  refine ⟨fun h field place value s hp => ?answers, fun v => ?words, fun sp rot => ?point, fun cs => ?label,
    fun p v => ?stored, fun p k sp rot => ?stores, fun after s g hg hr => ?lapse⟩
  case answers =>
    rw [← State.taken_unit h s]
    refine ⟨fun hg => ?_, fun g hg => ⟨fun hl => ?_, fun hl hk => ?_, fun hl hk ho => ?_, fun hl hk ho hv => ?_,
      fun hl hk ho hv => ?_⟩⟩ <;> refine congrArg Host.Outcome.next (State.serve_eq_answered hp ?_)
    · exact State.writeField_unclaimed hg
    · exact State.writeField_held hg hl
    · exact State.writeField_unknown hg hl hk
    · rw [State.writeField_known hk hg hl, if_pos ho]
    · rw [State.writeField_known hk hg hl, if_neg (not_not_intro ho), if_pos hv]
    · rw [State.writeField_known hk hg hl, if_neg (not_not_intro ho), if_neg (by rw [hv]; decide)]
  case words =>
    refine ⟨within_iff, ?_, ?_⟩
    · simp [fieldAccepts, fieldWord, within_iff, and_assoc]
    · rw [Half.eq_zero_iff]
      simp [fieldAccepts, fieldWord, doseOk, within_iff]
  case point => simp [fieldAccepts, fieldPoint, pointOk, within_iff]
  case label =>
    simp only [fieldAccepts, fieldLabel, List.all_eq_true, printable, within_iff]
    constructor
    · exact fun hall i => hall _ (by simp)
    · intro hall c hc
      obtain ⟨i, hi, rfl⟩ := List.getElem_of_mem hc
      exact hall ⟨i, by simpa using hi⟩
  case stored =>
    exact ⟨rfl, congrArg (fun d => { p with doseRight := d }) (if_congr (Half.eq_zero_iff v).symm rfl rfl)⟩
  case stores =>
    simp only [Program.setField, fieldPoint, Curve.setPoint, Vector.setIfInBounds, Vector.set, Array.setIfInBounds]
    simp
  case lapse =>
    have run : exec (.claimIdleTimerExpiry after) s = .next (s.elapse after).lapseClaim :=
      congrArg Host.Outcome.next (if_pos (by
        show due (s.elapse after).now (s.unit.staging.map (·.idle)) = true
        rw [hg]; exact hr))
    exact ⟨_, run, State.lapseClaim_spec (s := s.elapse after) hg⟩

/-! ### COMMIT_EDIT (R22, R23) -/

theorem strictlyRising_iff (l : List Point) :
    strictlyRising l = true ↔ ∀ (k : Nat) (h : k + 1 < l.length), l[k].speed < l[k + 1].speed := by
  induction l with
  | nil => exact ⟨fun _ _ h => absurd h (Nat.not_lt_zero _), fun _ => rfl⟩
  | cons p rest ih =>
    cases rest with
    | nil => exact ⟨fun _ k h => absurd h (by simp), fun _ => rfl⟩
    | cons q rest =>
      rw [strictlyRising, Bool.and_eq_true, decide_eq_true_eq, ih]
      constructor
      · rintro ⟨first, later⟩ (_ | k) h
        · exact first
        · exact later k (by simpa using h)
      · exact fun all => ⟨all 0 (by simp), fun k h => all (k + 1) (by simpa using h)⟩

theorem Curve.rising_iff (c : Curve) : strictlyRising c.used = true ↔ c.Rising := by
  have length : c.used.length = min c.count 6 := by simp [Curve.used]
  have used (k : Nat) (h : k < c.used.length) : c.used[k] = c.points[k]'(by omega) := by simp [Curve.used]
  rw [strictlyRising_iff, Curve.Rising]
  constructor
  · intro all k h6 hc
    have := all k (by omega)
    rwa [used, used] at this
  · intro all k h
    rw [used, used]
    exact all k (by omega) (by omega)

theorem Program.valid_iff (p : Program) : p.valid = true ↔ p.side.Rising ∧ p.main.Rising := by
  rw [Program.valid, Bool.and_eq_true, Curve.rising_iff, Curve.rising_iff]

section Commit
variable {l : Link} {g : Staging} {s : State}

theorem State.commitEdit_unclaimed (hg : s.unit.staging = none) : s.commitEdit l = answer .notActive s := by
  simp only [State.commitEdit, hg]

theorem State.commitEdit_held (hg : s.unit.staging = some g) (hl : g.holder ≠ l) : s.commitEdit l = answer .held s := by
  simp only [State.commitEdit, hg, if_pos hl]

theorem State.commitEdit_busy (hg : s.unit.staging = some g) (hl : g.holder = l) (hw : s.unit.swap.isSome = true) :
    s.commitEdit l = answer .busy s := by
  simp only [State.commitEdit, hg, if_neg (not_not_intro hl), if_pos hw]

theorem State.commitEdit_invalid (hg : s.unit.staging = some g) (hl : g.holder = l) (hw : s.unit.swap = none)
    (hv : ¬(g.record.side.Rising ∧ g.record.main.Rising)) : s.commitEdit l = answer .invalid s := by
  have invalid : g.record.valid = false := Bool.eq_false_of_not_eq_true fun h => hv ((Program.valid_iff _).1 h)
  simp [State.commitEdit, hg, hl, hw, invalid]

theorem State.commitEdit_valid (hg : s.unit.staging = some g) (hl : g.holder = l) (hw : s.unit.swap = none)
    (hv : g.record.side.Rising ∧ g.record.main.Rising) : s.commitEdit l = s.commitRecord g := by
  simp [State.commitEdit, hg, hl, hw, (Program.valid_iff _).2 hv]

theorem State.commitRecord_pends (ha : s.unit.active = some g.slot) (hm : s.unit.mode.working = true) :
    s.commitRecord g = answer .accepted { s with unit := { s.unit with
      staging := none, swap := some ⟨g.slot, g.record⟩ } } :=
  (if_pos ha).trans (if_pos hm)

theorem State.commitRecord_stores (ha : s.unit.active ≠ some g.slot) :
    s.commitRecord g = answer .done { s with unit := { s.unit with
      staging := none, slots := s.unit.slots.set g.slot (some g.record) } } :=
  if_neg ha

theorem State.commitRecord_turns (ha : s.unit.active = some g.slot) (hm : s.unit.mode.working = false) :
    s.commitRecord g = answer .done (State.programChanged { s with unit := { s.unit with
      staging := none, slots := s.unit.slots.set g.slot (some g.record) } }) :=
  (if_pos ha).trans (if_neg (by
    rw [show (s.modUnit fun u => { u with staging := none }).unit.mode = s.unit.mode from rfl, hm]
    exact Bool.false_ne_true))

end Commit

/-- Outside the working modes the MODE cap is the transport max speed, or 0 in SERVICE (R5). -/
theorem State.modeCap_resting {s : State} (hm : s.unit.mode.working = false) :
    s.modeCap = if s.unit.mode = .service then 0 else s.settings.caps.transportMax := by
  unfold State.modeCap
  cases mode : s.unit.mode with
  | transport | service => rfl
  | entering | sweep | leaving => rw [mode] at hm; cases hm

/-- A program that comes into force outside the working modes: the caps that are its own (R5, R51, R110, R137). -/
theorem State.programChanged_resting {s : State} {p : Program} (hp : s.inForce = some p)
    (hm : s.unit.mode.working = false) :
    let t := s.programChanged
    State.SettlesTo [.mode, .reverseArms] [] [.shortfall] s t ∧ (t.ceiling.entry .reverseArms).cap = p.reverseCap ∧
    (t.ceiling.entry .drySweep).cap = p.dryCap ∧
    (t.ceiling.entry .mode).cap = (if s.unit.mode = .service then 0 else s.settings.caps.transportMax) := by
  obtain ⟨settles, mode, reverse, dry, -⟩ := State.programChanged_spec s
  refine ⟨settles, reverse.trans ?_, dry.trans ?_, mode.trans (State.modeCap_resting hm)⟩
  · rw [State.reverseCap, hp]
  · rw [State.program, hp]; rfl

/-- Settles O24: the checks in their order, then the three ways of a valid record. -/
theorem editIsCommitted : Obligations.EditIsCommitted := by
  intro h s hp
  rw [← State.taken_unit h s]
  have run {c : Code} {t : State} (ha : (s.taken h).commitEdit h.link = answer c t) :
      exec (.commitEdit h) s = .next (t.answered h 14 c []) :=
    congrArg Host.Outcome.next (State.serve_eq_answered hp ha)
  refine ⟨⟨fun hg => run (State.commitEdit_unclaimed hg), fun g hg => ⟨fun hl => run (State.commitEdit_held hg hl),
    fun hl hw => run (State.commitEdit_busy hg hl hw), fun hl hw hv => run (State.commitEdit_invalid hg hl hw hv)⟩⟩,
    fun g hg hl hw side main => ?_⟩
  have valid := State.commitEdit_valid hg hl hw ⟨side, main⟩
  refine ⟨fun ha hm => run (valid.trans (State.commitRecord_pends ha hm)),
    fun ha => run (valid.trans (State.commitRecord_stores ha)), fun ha hm =>
    ⟨_, run (valid.trans (State.commitRecord_turns ha hm)), ?_⟩⟩
  obtain ⟨u, hu⟩ : ∃ u : State, u = { s.taken h with unit := { (s.taken h).unit with
      staging := none, slots := (s.taken h).unit.slots.set g.slot (some g.record) } } := ⟨_, rfl⟩
  have force : u.inForce = some g.record := by
    rw [hu]
    show (s.taken h).unit.active.bind _ = _
    rw [ha, Option.bind_some]
    simp
  have settings : u.settings = s.settings := by rw [hu]; exact State.taken_settings h s
  have resting := State.programChanged_resting force (by rw [hu]; exact hm)
  rw [settings] at resting
  subst hu
  exact resting

/-! ### SELECT_PROGRAM (R25, R26) -/

section Select
variable {slot : Byte} {i : Fin 8} {p : Program} {s : State}

theorem State.selectProgram_unknown (hs : slotOf slot.toNat = none) : s.selectProgram slot = answer .unknown s := by
  simp only [State.selectProgram, hs]

theorem State.selectProgram_empty (hs : slotOf slot.toNat = some i) (hp : s.unit.slots[i] = none) :
    s.selectProgram slot = answer .empty s := by
  simp only [State.selectProgram, hs, hp]

theorem State.selectProgram_held (hs : slotOf slot.toNat = some i) (hp : s.unit.slots[i] = some p) :
    s.selectProgram slot = if s.unit.swap.isSome = true then answer .busy s
      else if s.unit.active = some i then answer .done s
      else if s.unit.mode.working = true then
        answer .accepted { s with unit := { s.unit with swap := some ⟨i, p⟩ } }
      else answer .done (s.makeActive i) := by
  simp only [State.selectProgram, hs, hp]
  rfl

/-- A slot made active outside the working modes, and the cycle that starts with the first (R25, R26). -/
theorem State.makeActive_resting (hp : s.unit.slots[i] = some p) (hm : s.unit.mode.working = false) :
    let t := s.makeActive i
    State.SettlesTo [.mode, .reverseArms] [] [.shortfall]
      { s with unit := { s.unit with
          active := some i
          boundary := if s.unit.active = none then some (later s.now p.period) else s.unit.boundary
          halfMark := if s.unit.active = none then none else s.unit.halfMark } } t ∧
    (t.ceiling.entry .reverseArms).cap = p.reverseCap ∧ (t.ceiling.entry .drySweep).cap = p.dryCap ∧
    (t.ceiling.entry .mode).cap = (if s.unit.mode = .service then 0 else s.settings.caps.transportMax) := by
  obtain ⟨u, hu⟩ : ∃ u : State, u = { s with unit := { s.unit with active := some i } } := ⟨_, rfl⟩
  have force : u.inForce = some p := by rw [hu]; exact hp
  have e : s.makeActive i = if s.unit.active.isNone = true then u.programChanged.startCycle else u.programChanged := by
    rw [hu]; rfl
  obtain ⟨settles, reverse, dry, mode⟩ := State.programChanged_resting force (by rw [hu]; exact hm)
  rw [e]
  generalize u.programChanged = v at *
  have unit : v.unit = { s.unit with active := some i } := by rw [settles.rest, hu]
  have program : v.program = p := by
    have force' : v.inForce = some p := by
      show v.unit.active.bind _ = _
      rw [unit]; exact hp
    rw [State.program, force']; rfl
  have now : v.now = s.now := by unfold State.now; rw [settles.rest, hu]
  have gov : v.gov = s.gov := by rw [settles.rest, hu]
  cases ha : s.unit.active with
  | some j =>
    subst hu
    exact ⟨settles, reverse, dry, mode⟩
  | none =>
    have cycle : v.startCycle = { v with
        unit := { s.unit with active := some i, boundary := some (later s.now p.period), halfMark := none }
        gov := s.gov } := by
      rw [State.startCycle, program, now, ← gov]
      show { v with unit := { v.unit with boundary := _, halfMark := _ } } = _
      rw [unit]
    have turned := settles.withUnitGov
      { s.unit with active := some i, boundary := some (later s.now p.period), halfMark := none } s.gov
    subst hu
    simp only [Option.isNone_none, if_true]
    rw [cycle]
    exact ⟨turned, reverse, dry, mode⟩

end Select

/-- Settles O26: the answers in the order of R25; a slot made active turns the program in force and starts the cycle. -/
theorem programIsSelected : Obligations.ProgramIsSelected := by
  intro h slot s hp
  rw [← State.taken_unit h s]
  have run {c : Code} {t : State} (ha : (s.taken h).selectProgram slot = answer c t) :
      exec (.selectProgram h slot) s = .next (t.answered h 17 c []) :=
    congrArg Host.Outcome.next (State.serve_eq_answered hp ha)
  refine ⟨fun hs => run (State.selectProgram_unknown (slotOf_eq_none hs)), fun i hi => ?_⟩
  have place : slotOf slot.toNat = some i := by rw [hi, slotOf_val]
  refine ⟨fun he => run (State.selectProgram_empty place he), fun p hs => ?_⟩
  have held := State.selectProgram_held place hs
  refine ⟨fun hw => run (held.trans (if_pos hw)), fun hw ha => ?_, fun hw ha hm => ?_, fun hw ha hm => ?_⟩ <;>
    rw [if_neg (by rw [hw]; decide)] at held
  · exact run (held.trans (if_pos ha))
  · exact run ((held.trans (if_neg ha)).trans (if_pos hm))
  · refine ⟨_, run ((held.trans (if_neg ha)).trans (if_neg (by rw [hm]; decide))), ?_⟩
    rw [← State.taken_settings h s]
    exact State.makeActive_resting hs hm

end Sys2Proof.Machine
end

section
/-! The cycle boundary (R26, R27, R125 to R128): the owed water held to a new program's caps, the swap, and the cycle starts. -/

namespace Sys2Proof.Machine

/-! ### Owed water held to its cap (R122, R123, R128) -/

/-- What an active bar owes beyond its cap (R128). -/
def State.overCap (b : Bar) (s : State) : Nat :=
  if (s.spray.bar b).active = true then (s.spray.bar b).owed - owedCap s.program (s.settings.spray.flow b) else 0

section Hold
variable (b : Bar) (s : State)

/-- The record of a bar that is held, but for its shortfall remainder. -/
theorem State.holdOwed_record : (s.holdOwed b).spray.bar b = { s.spray.bar b with
    owed := if (s.spray.bar b).active = true then min (owedCap s.program (s.settings.spray.flow b)) (s.spray.bar b).owed
      else (s.spray.bar b).owed
    shortfallRem := ((s.holdOwed b).spray.bar b).shortfallRem } := by
  obtain ⟨active, pulse, -, owed, -⟩ := State.holdOwed_bar b b s
  obtain ⟨enable, fault, rem, -⟩ := (State.holdOwed_spec b s).2.2.bars b
  have stands : ((s.holdOwed b).spray.bar b).saturated = (s.spray.bar b).saturated ∧
      ((s.holdOwed b).spray.bar b).lastPulse = (s.spray.bar b).lastPulse := by
    unfold State.holdOwed State.addShortfall
    dsimp only
    split
    · simp [State.modBar]
    · exact ⟨rfl, rfl⟩
  obtain ⟨saturated, last⟩ := stands
  generalize (s.holdOwed b).spray.bar b = y at *
  generalize s.spray.bar b = x at *
  obtain ⟨⟩ := x
  obtain ⟨⟩ := y
  simp_all

/-- What lies beyond the cap is counted whole by whole, and its rest kept (R123). -/
theorem State.holdOwed_shortfall (hr : (s.spray.bar b).shortfallRem < 1000)
    (ht : s.bank.tallies[Tally.index .shortfall] ≤ 16777215) :
    ((s.holdOwed b).spray.bar b).shortfallRem = ((s.spray.bar b).shortfallRem + s.overCap b) % 1000 ∧
    (s.holdOwed b).bank.tallies[Tally.index .shortfall] =
      min 16777215 (s.bank.tallies[Tally.index .shortfall] + ((s.spray.bar b).shortfallRem + s.overCap b) / 1000) := by
  unfold State.holdOwed State.overCap
  dsimp only
  split
  · next h =>
    obtain ⟨active, -⟩ := Bool.and_eq_true_iff.1 h
    rw [if_pos active]
    refine ⟨by simp [State.modBar, State.addShortfall], ?_⟩
    exact (State.bumpBy_tallies .shortfall _ (s.modBar b fun x => { x with shortfallRem := _ })).1
  · next h =>
    have none : (if (s.spray.bar b).active = true then
        (s.spray.bar b).owed - owedCap s.program (s.settings.spray.flow b) else 0) = 0 := by
      split
      · next ha =>
        rw [ha, Bool.true_and, decide_eq_true_eq] at h
        omega
      · rfl
    rw [none]
    omega

end Hold

/-- The owed water of the three bars is held (R128). -/
theorem State.holdAll_spec (s : State) :
    let t := Bar.all.foldl State.holdOwed s
    (∀ b, t.spray.bar b = { s.spray.bar b with
      owed := if (s.spray.bar b).active = true then min (owedCap s.program (s.settings.spray.flow b)) (s.spray.bar b).owed
        else (s.spray.bar b).owed
      shortfallRem := (t.spray.bar b).shortfallRem }) ∧
    (∀ b, (s.spray.bar b).active = false → t.spray.bar b = s.spray.bar b) ∧
    ((∀ b, (s.spray.bar b).shortfallRem < 1000) → s.bank.tallies[Tally.index .shortfall] ≤ 16777215 →
      (∀ b, (t.spray.bar b).shortfallRem = ((s.spray.bar b).shortfallRem + s.overCap b) % 1000) ∧
      t.bank.tallies[Tally.index .shortfall] = min 16777215 (s.bank.tallies[Tally.index .shortfall] +
        (((s.spray.bar .left).shortfallRem + s.overCap .left) / 1000 +
          ((s.spray.bar .right).shortfallRem + s.overCap .right) / 1000 +
          ((s.spray.bar .main).shortfallRem + s.overCap .main) / 1000))) := by
  intro t
  obtain ⟨x, hx⟩ : ∃ x, x = s.holdOwed .left := ⟨_, rfl⟩
  obtain ⟨y, hy⟩ : ∃ y, y = x.holdOwed .right := ⟨_, rfl⟩
  have ht : t = y.holdOwed .main := by rw [hy, hx]; rfl
  have xOthers := fun k (h : k ≠ .left) => (State.holdOwed_bar .left k s).2.2.1 h
  have yOthers := fun k (h : k ≠ .right) => (State.holdOwed_bar .right k x).2.2.1 h
  have tOthers := fun k (h : k ≠ .main) => (State.holdOwed_bar .main k y).2.2.1 h
  have xRecord := State.holdOwed_record .left s
  have yRecord := State.holdOwed_record .right x
  have tRecord := State.holdOwed_record .main y
  have xShort := State.holdOwed_shortfall .left s
  have yShort := State.holdOwed_shortfall .right x
  have tShort := State.holdOwed_shortfall .main y
  have xProgram : x.program = s.program := State.program_congr (by rw [hx]; simp)
  have yProgram : y.program = s.program := (State.program_congr (by rw [hy]; simp)).trans xProgram
  have xSettings : x.settings = s.settings := by rw [hx]; simp
  have ySettings : y.settings = s.settings := by rw [hy, ← xSettings]; simp
  rw [← hx] at xOthers xRecord xShort
  rw [← hy] at yOthers yRecord yShort
  rw [← ht] at tOthers tRecord tShort
  have right : x.spray.bar .right = s.spray.bar .right := xOthers .right (by decide)
  have main : y.spray.bar .main = s.spray.bar .main := (yOthers .main (by decide)).trans (xOthers .main (by decide))
  have tRight : t.spray.bar .right = y.spray.bar .right := tOthers .right (by decide)
  have tLeft : t.spray.bar .left = x.spray.bar .left := (tOthers .left (by decide)).trans (yOthers .left (by decide))
  unfold State.overCap at yShort tShort
  rw [right, xProgram, xSettings] at yRecord yShort
  rw [main, yProgram, ySettings] at tRecord tShort
  rw [← tRight] at yRecord yShort
  rw [← tLeft] at xRecord xShort
  refine ⟨fun b => ?_, fun b hb => ?_, fun hr hs => ?_⟩
  · cases b
    · exact xRecord
    · exact yRecord
    · exact tRecord
  · cases b
    · rw [tLeft, hx, State.holdOwed_idle hb]
    · rw [tRight, hy, State.holdOwed_idle (by rw [right]; exact hb), right]
    · rw [ht, State.holdOwed_idle (by rw [main]; exact hb), main]
  · obtain ⟨xRem, xTally⟩ := xShort (hr .left) hs
    obtain ⟨yRem, yTally⟩ := yShort (hr .right) (by omega)
    obtain ⟨tRem, tTally⟩ := tShort (hr .main) (by omega)
    refine ⟨fun b => ?_, ?_⟩
    · cases b
      · exact xRem
      · exact yRem
      · exact tRem
    · rw [tTally, yTally, xTally]
      unfold State.overCap
      omega

/-! ### The water at a change of the program in force -/

/-- What a change of the program in force leaves of a bar's record, from `x` to `y`, under the new cap (R119, R128). -/
structure BarRec.TurnsTo (cap : Nat) (x y : BarRec) : Prop where
  active : y.active = true → y = { x with active := true, owed := min cap x.owed, shortfallRem := y.shortfallRem }
  closes : y.active = false → x.active = true →
    y = { x with active := false, pulseEnd := none, owed := 0, saturated := false, lastPulse := 0 }
  rests : y.active = false → x.active = false → y = x

/-- The bars judged and held under the program now in force, with the shortfall counted (R117, R123, R128). -/
theorem State.programChanged_water (s : State) :
    let t := s.programChanged
    let rem := fun (b : Bar) => (s.spray.bar b).shortfallRem +
      if (t.spray.bar b).active = true then (s.spray.bar b).owed - owedCap s.program (s.settings.spray.flow b) else 0
    (∀ b, (s.spray.bar b).TurnsTo (owedCap s.program (s.settings.spray.flow b)) (t.spray.bar b)) ∧
    ((∀ b, (s.spray.bar b).shortfallRem < 1000) → s.bank.tallies[Tally.index .shortfall] ≤ 16777215 →
      (∀ b, (t.spray.bar b).shortfallRem = rem b % 1000) ∧
      t.bank.tallies[Tally.index .shortfall] = min 16777215 (s.bank.tallies[Tally.index .shortfall] +
        (rem .left / 1000 + rem .right / 1000 + rem .main / 1000))) := by
  obtain ⟨u, hu⟩ : ∃ u, u = s.writeModeCap.updateCap .reverseArms s.writeModeCap.reverseCap := ⟨_, rfl⟩
  obtain ⟨-, -, -, posted⟩ := State.updateCap_spec .mode s.modeCap s
  obtain ⟨-, -, -, posted'⟩ := State.updateCap_spec .reverseArms s.writeModeCap.reverseCap s.writeModeCap
  have spray : u.spray = s.spray := by rw [hu]; simp [State.writeModeCap]
  have program : u.program = s.program := State.program_congr (by rw [hu]; simp [State.writeModeCap])
  have settings : u.settings = s.settings := by rw [hu]; simp [State.writeModeCap]
  have counted : u.bank.tallies[Tally.index .shortfall] = s.bank.tallies[Tally.index .shortfall] := by
    rw [hu]
    exact (posted'.tallies .shortfall (by simp) (by decide)).trans (posted.tallies .shortfall (by simp) (by decide))
  have e : s.programChanged = (Bar.all.foldl State.holdOwed u.judgeBars).updateCap .drySweep u.program.dryCap := by
    rw [hu]; rfl
  obtain ⟨settles, -, settled⟩ := State.judgeBars_spec u
  obtain ⟨records, rests, counts⟩ := State.holdAll_spec u.judgeBars
  have judgedProgram : u.judgeBars.program = s.program := (State.program_congr (by simp)).trans program
  have judgedSettings : u.judgeBars.settings = s.settings := (by simp : u.judgeBars.settings = u.settings).trans settings
  have rems := fun b => (settles.bars b).2.2.2 (by decide)
  have tally := settles.tallies .shortfall (by simp) (by decide)
  obtain ⟨-, -, -, capped⟩ := State.updateCap_spec .drySweep u.program.dryCap (Bar.all.foldl State.holdOwed u.judgeBars)
  have last := capped.tallies .shortfall (by simp) (by decide)
  have tSpray : s.programChanged.spray = (Bar.all.foldl State.holdOwed u.judgeBars).spray := by rw [e]; simp
  rw [← e] at last
  rw [counted] at tally
  unfold State.overCap at counts
  generalize Bar.all.foldl State.holdOwed u.judgeBars = w at *
  generalize u.judgeBars = v at *
  generalize s.programChanged = t at *
  have bars := settled.1
  rw [judgedProgram, judgedSettings] at records counts
  rw [spray] at bars rems
  dsimp only
  rw [tSpray]
  have stands : ∀ b, (w.spray.bar b).active = (v.spray.bar b).active := fun b => by rw [records b]
  have owed : ∀ b, (v.spray.bar b).active = true → v.spray.bar b = { s.spray.bar b with active := true } := fun b hb => by
    cases ha : (s.spray.bar b).active with
    | true => rw [(bars b).1 (hb.trans ha.symm), ← ha]
    | false => exact (bars b).2.1 ha hb
  refine ⟨fun b => ⟨fun hb => ?_, fun hb ha => ?_, fun hb ha => ?_⟩, fun hr hs => ?_⟩
  · have vb := (stands b).symm.trans hb
    have water : (v.spray.bar b).owed = (s.spray.bar b).owed := by rw [owed b vb]
    have record := records b
    rw [if_pos vb, water] at record
    rw [owed b vb] at record
    exact record
  · rw [stands] at hb
    rw [rests b hb]
    exact ((bars b).2.2 ha hb).1
  · rw [stands] at hb
    rw [rests b hb]
    exact (bars b).1 (hb.trans ha.symm)
  · obtain ⟨left, total⟩ := counts (fun b => by rw [rems]; exact hr b) (by rw [tally]; exact hs)
    have lost : ∀ b, (v.spray.bar b).shortfallRem + (if (v.spray.bar b).active = true then
          (v.spray.bar b).owed - owedCap s.program (s.settings.spray.flow b) else 0) =
        (s.spray.bar b).shortfallRem + if (w.spray.bar b).active = true then
          (s.spray.bar b).owed - owedCap s.program (s.settings.spray.flow b) else 0 := fun b => by
      rw [rems, stands]
      split
      · next hb => rw [owed b hb]
      · rfl
    simp only [lost] at left total
    refine ⟨left, ?_⟩
    rw [last, total, tally]

/-! ### The swap at a cycle boundary (R27) -/

theorem State.withSwap_program (w : Swap) (s : State) : (s.withSwap w).program = w.record := by
  simp [State.program, State.inForce, State.withSwap]

/-- The MODE cap and the bars after a swap (R5, R27, R128). -/
theorem State.applySwap_turns {s : State} {w : Swap} (hw : s.unit.swap = some w) :
    let t := s.applySwap
    let cap := fun (b : Bar) => owedCap w.record (s.settings.spray.flow b)
    let rem := fun (b : Bar) => (s.spray.bar b).shortfallRem +
      if (t.spray.bar b).active = true then (s.spray.bar b).owed - cap b else 0
    (t.ceiling.entry .mode).cap = (match s.unit.mode with
      | .transport | .entering => s.settings.caps.transportMax | .service => 0
      | .sweep | .leaving => min w.record.workMax s.settings.caps.transportMax) ∧
    (∀ b, (s.spray.bar b).TurnsTo (cap b) (t.spray.bar b)) ∧
    (s.CountLaw → (∀ b, (t.spray.bar b).shortfallRem = rem b % 1000) ∧
      t.bank.tallies[Tally.index .shortfall] = min 16777215 (s.bank.tallies[Tally.index .shortfall] +
        (rem .left / 1000 + rem .right / 1000 + rem .main / 1000))) := by
  obtain ⟨u, hu⟩ : ∃ u, u = (s.withSwap w).postBoth .programSwapped := ⟨_, rfl⟩
  have program : u.program = w.record := (State.program_congr (by rw [hu]; rfl)).trans (State.withSwap_program w s)
  have e : s.applySwap = u.programChanged := (State.applySwap_some hw).trans (congrArg State.programChanged hu.symm)
  obtain ⟨-, mode, -⟩ := State.programChanged_spec u
  obtain ⟨turns, counts⟩ := State.programChanged_water u
  rw [e]
  rw [State.modeCap, program] at mode
  rw [program] at turns counts
  generalize u.programChanged = t at *
  have unitMode : u.unit.mode = s.unit.mode := by rw [hu]; rfl
  rw [unitMode] at mode
  subst hu
  refine ⟨mode.trans (by cases s.unit.mode <;> rfl), turns, fun law => ?_⟩
  obtain ⟨-, -, -, rems, limits, -⟩ := law
  exact counts (fun b => (rems b).1) (limits .shortfall)

/-- A boundary is due: the swap, the next period and the mark, and the two cycle starts (R26, R27, R125). -/
theorem State.boundaryAt_starts (e : Time) (s : State) :
    ∃ v w, v = { s.applySwap with unit := { s.applySwap.unit with
        boundary := some (later e s.applySwap.program.period)
        halfMark := some (later e (s.applySwap.program.period / 2)) } } ∧
      v.StartsCycle .left w ∧ w.StartsCycle .main (s.boundaryAt e) :=
  ⟨_, _, rfl, State.cycleStart_spec .left _, State.cycleStart_spec .main _⟩

/-- A cycle start moves none of the channels below the pump's, nor the unit or the settings. -/
theorem State.StartsCycle.beside {b : Bar} {u t : State} (h : State.StartsCycle b u t) :
    (∀ ch : Channel, ch.val < 14 → t.output.channels[ch] = u.output.channels[ch]) ∧ t.unit = u.unit :=
  ⟨fun ch hc => h.channels ch fun hn => by have := Bar.valve_ge b; rw [hn] at hc; omega, by rw [h.rest]⟩

/-- Settles O27: the swap is the change of the program in force, the starts are those of the Spray Metering. -/
theorem cyclesBegin : Obligations.CyclesBegin := fun after s e => by
  refine ⟨fun hb hr => ?_, fun hm hr => ?_⟩
  · obtain ⟨u, hu⟩ : ∃ u, u = s.elapse after := ⟨_, rfl⟩
    have run : exec (.cycleBoundary after) s = .next (u.boundaryAt e) := by
      rw [hu]
      have boundary : (s.elapse after).cycleBoundary = (s.elapse after).boundaryAt e := by
        unfold State.cycleBoundary
        rw [show (s.elapse after).unit.boundary = some e from hb]
        exact if_pos hr
      exact congrArg Host.Outcome.next boundary
    obtain ⟨v, w, hv, left, main⟩ := State.boundaryAt_starts e u
    refine ⟨v, w, _, run, ?_⟩
    obtain ⟨wChannels, wUnit⟩ := left.beside
    obtain ⟨tChannels, tUnit⟩ := main.beside
    have wRest := left.rest
    have tRest := main.rest
    generalize u.boundaryAt e = t at *
    have unit : t.unit = v.unit := tUnit.trans wUnit
    have program : t.program = u.applySwap.program := by
      show (t.unit.active.bind fun i => t.unit.slots[i]).getD .default = _
      rw [unit, hv]; rfl
    have channels := fun ch hc => (tChannels ch hc).trans (wChannels ch hc)
    have frame : t = { v with
        unit := t.unit, notices := t.notices, spray := t.spray, output := t.output
        bank := { v.bank with tallies := t.bank.tallies } } := by
      rw [unit, tRest, wRest]
    rw [← program] at hv
    cases hs : s.unit.swap with
    | none =>
      have same : u.applySwap = u := (State.applySwap_spec u).1 (by rw [hu]; exact hs)
      rw [same] at hv
      have ceiling : t.ceiling = u.ceiling := by rw [frame, hv]
      subst hv
      subst hu
      refine ⟨fun _ => rfl, (fun _ h => nomatch h), left, main, unit, channels, ?_⟩
      rw [ceiling]
      exact frame
    | some x =>
      have swap : u.unit.swap = some x := by rw [hu]; exact hs
      obtain ⟨settles, reverse, dry, -, judged⟩ := (State.applySwap_spec u).2 x swap
      obtain ⟨mode, turns, counts⟩ := State.applySwap_turns swap
      generalize u.applySwap = a at *
      have aUnit : a.unit = { u.unit with
          slots := u.unit.slots.set x.target (some x.record), active := some x.target, swap := none } := by
        rw [settles.rest]
      have aGov : a.gov = u.gov := by rw [settles.rest]
      have vUnit : v.unit = { u.unit with
          slots := u.unit.slots.set x.target (some x.record), active := some x.target, swap := none
          boundary := some (later e t.program.period), halfMark := some (later e (t.program.period / 2)) } := by
        rw [hv]
        exact congrArg (fun y : ModeUnit => { y with
          boundary := some (later e t.program.period), halfMark := some (later e (t.program.period / 2)) }) aUnit
      have whole : v = { a with unit := v.unit, gov := u.gov } := by rw [← aGov, hv]
      have turned := settles.withUnitGov v.unit u.gov
      rw [← whole, vUnit] at turned
      have vRest := turned.rest
      have vSpray : v.spray = a.spray := by rw [hv]
      have vBank : v.bank = a.bank := by rw [hv]
      have vMode : (v.ceiling.entry .mode).cap = (a.ceiling.entry .mode).cap := by rw [hv]
      rw [← vMode] at mode
      rw [← vSpray] at turns counts
      rw [← vBank] at counts
      have vJudged : v.barsJudged := by rw [hv]; exact judged
      have vReverse : (v.ceiling.entry .reverseArms).cap = x.record.reverseCap := by rw [hv]; exact reverse
      have vDry : (v.ceiling.entry .drySweep).cap = x.record.dryCap := by rw [hv]; exact dry
      have vChannels := turned.channels
      have ceiling : t.ceiling = v.ceiling := by rw [frame]
      have last : t = { u with
          unit := t.unit, ceiling := t.ceiling, notices := t.notices, spray := t.spray, output := t.output
          bank := { u.bank with tallies := t.bank.tallies } } := by
        rw [ceiling]
        rw [vRest] at frame
        exact frame.trans (by rw [vRest])
      subst hu
      refine ⟨(fun h => nomatch h), fun y hy => ?_, left, main, unit, fun ch hc => (channels ch hc).trans (vChannels ch hc),
        last⟩
      obtain rfl : x = y := Option.some.inj hy
      exact ⟨turned, vJudged, vReverse, vDry, mode, fun b => ⟨(turns b).active, (turns b).closes, (turns b).rests⟩,
        fun law => by
          have counted := counts (countLaw_keptCore.elapse law)
          rw [State.elapse_tallies] at counted
          exact counted⟩
  · have run : exec (.halfCycleMark after) s =
        .next (State.cycleStart .right { s.elapse after with unit := { s.unit with halfMark := none } }) :=
      congrArg Host.Outcome.next (if_pos (by
        show due (s.elapse after).now s.unit.halfMark = true
        rw [hm]; exact hr))
    exact ⟨_, run, State.cycleStart_spec .right _⟩

end Sys2Proof.Machine
end

section
/-! The Arm Controller's requests and timers (R93 to R99, R103, R107, R109): one equation for each answer of an arm request, what
each taken one and each timer moves, and from them the statements. -/

namespace Sys2Proof.Machine

/-! ### Requests that name an arm -/

@[simp] theorem State.taken_arm (h : Head) (s : State) (a : Arm) : (s.taken h).arm a = s.arm a :=
  congrArg (fun x : Arms => x.get a) (State.taken_arms h s)

@[simp] theorem State.taken_scan (h : Head) (s : State) : (s.taken h).scan = s.scan := by
  rw [(State.taken_rest h s).1]
  simp

theorem Arm.ofNumber_eq_none {n : Nat} (h : 2 < n) : Arm.ofNumber n = none := by
  match n, h with
  | n + 3, _ => rfl

@[simp] theorem Arm.ofNumber_number (a : Arm) : Arm.ofNumber a.number = some a := by cases a <;> rfl

/-- The body link's alone: the drive link is told so (R93, R96, R99). -/
theorem armRequest_drive {l : Link} {n : Byte} {act : Arm → State → State × Reply} {s : State} (hl : l = .drive) :
    armRequest l n act s = answer .denied s := by
  subst hl; rfl

theorem armRequest_unknown {l : Link} {n : Byte} {act : Arm → State → State × Reply} {s : State} (hl : l = .body)
    (hn : 2 < n.toNat) : armRequest l n act s = answer .unknown s := by
  subst hl
  simp only [armRequest, Arm.ofNumber_eq_none hn]

theorem armRequest_body {l : Link} {n : Byte} {act : Arm → State → State × Reply} {s : State} {a : Arm} (hl : l = .body)
    (hn : n.toNat = a.number) : armRequest l n act s = act a s := by
  subst hl
  simp only [armRequest, hn, Arm.ofNumber_number]

/-! ### The lower-pending mark (R93, R96, R110, R111) -/

/-- Only the mark of the arm has changed in the arms' records. -/
theorem State.markPending_arms (a : Arm) (v : Bool) (s : State) :
    (s.markPending a v).arms = (s.modArm a fun r => { r with pending := v }).arms := by
  unfold State.markPending State.announceArms
  simp

theorem State.markPending_arm (a : Arm) (v : Bool) (s : State) :
    (s.markPending a v).arm a = { s.arm a with pending := v } ∧ ∀ b, b ≠ a → (s.markPending a v).arm b = s.arm b := by
  have arms := State.markPending_arms a v s
  refine ⟨(congrArg (fun x : Arms => x.get a) arms).trans (State.modArm_arm_same a _ s), fun b hb => ?_⟩
  exact (congrArg (fun x : Arms => x.get b) arms).trans (State.modArm_arm_other hb _ s)

/-- The entries of the arms stand judged through changes that leave the arms and the activity of the three. -/
theorem State.armEntriesJudged_congr {u t : State} (h : u.armEntriesJudged) (arms : t.arms = u.arms)
    (entries : ∀ src ∈ [Source.armTransition, .armYield, .reverseArms],
      (t.ceiling.entry src).active = (u.ceiling.entry src).active) : t.armEntriesJudged := by
  have arm : ∀ b, t.arm b = u.arm b := fun b => congrArg (fun x : Arms => x.get b) arms
  unfold State.armEntriesJudged at *
  rw [entries _ (by simp), entries .armYield (by simp), entries .reverseArms (by simp)]
  simp only [arm]
  exact h

/-- A report of the arms: posted once, the bars judged, and the unit's watch between (R110, R111). -/
theorem State.announceArms_spec {s : State} (judged : s.armEntriesJudged) :
    s.postedOnce .armState s.announceArms ∧ s.announceArms.armEntriesJudged ∧
    (¬(s.unit.mode = .leaving ∧ s.arms.allDown = true) → State.SettlesTo [] [.armState] [] s s.announceArms) := by
  have posts := State.postBoth_settlesTo .armState s
  have once := State.postBoth_once .armState s
  have e : s.announceArms = ((s.postBoth .armState).leavingCheck).judgeBars := rfl
  rw [e]
  have arms : (s.postBoth .armState).arms = s.arms := rfl
  have unit : (s.postBoth .armState).unit = s.unit := rfl
  have spostEntries : ∀ src, ((s.postBoth .armState).ceiling.entry src).active = (s.ceiling.entry src).active := fun _ => rfl
  generalize s.postBoth .armState = v at *
  obtain ⟨idle, ⟨kinds, sub, settles⟩, -, reverse, -⟩ := State.leavingCheck_spec v
  have xArms : v.leavingCheck.arms = s.arms := by rw [settles.rest]; exact arms
  have xEvents : ∀ l : Link, (v.leavingCheck.notices.events l).sameKind (v.notices.events l) .armState := fun l =>
    settles.events l .armState (fun hm => by have := sub hm; simp at this) (by decide)
  have xEntries : ∀ src ∈ [Source.armTransition, .armYield, .reverseArms],
      (v.leavingCheck.ceiling.entry src).active = (s.ceiling.entry src).active := fun src hs => by
    simp only [List.mem_cons, List.not_mem_nil, or_false] at hs
    rcases hs with rfl | rfl | rfl
    · exact (settles.entries .armTransition (by decide) (by decide) (by decide)).1.trans (spostEntries _)
    · exact (settles.entries .armYield (by decide) (by decide) (by decide)).1.trans (spostEntries _)
    · exact reverse.trans (spostEntries _)
  rw [unit, arms] at idle
  generalize v.leavingCheck = x at *
  obtain ⟨bars, -, -⟩ := State.judgeBars_spec x
  refine ⟨State.postedOnce_of_same once fun l => EventSet.sameKind_trans (xEvents l) (bars.events l _ (by decide) (by decide)),
    State.armEntriesJudged_congr judged (by rw [bars.rest]; exact xArms) fun src hs => ?_, fun hi => ?_⟩
  · simp only [List.mem_cons, List.not_mem_nil, or_false] at hs
    rcases hs with rfl | rfl | rfl
    · exact (bars.entries .armTransition (by decide) (by decide) (by decide)).1.trans (xEntries _ (by simp))
    · exact (bars.entries .armYield (by decide) (by decide) (by decide)).1.trans (xEntries _ (by simp))
    · exact (bars.entries .reverseArms (by decide) (by decide) (by decide)).1.trans (xEntries _ (by simp))
  · rw [idle hi] at bars ⊢
    exact posts.trans bars (by decide)

/-- What a change of the mark reports (R93, R96, R110, R111). -/
theorem State.markPending_spec (a : Arm) (v : Bool) (s : State) :
    s.postedOnce .armState (s.markPending a v) ∧ (s.markPending a v).armEntriesJudged ∧
    (s.unit.mode ≠ .leaving → State.SettlesTo [.armTransition, .armYield, .reverseArms] [.armState] []
      { s with arms := (s.markPending a v).arms } (s.markPending a v)) := by
  have arms := State.markPending_arms a v s
  have e : s.markPending a v = (s.modArm a fun r => { r with pending := v }).judgeArmEntries.announceArms := rfl
  rw [arms, e]
  obtain ⟨judged, entries⟩ := State.judgeArmEntries_spec (s.modArm a fun r => { r with pending := v })
  have unit : (s.modArm a fun r => { r with pending := v }).judgeArmEntries.unit = s.unit := by rw [entries.rest]; rfl
  generalize (s.modArm a fun r => { r with pending := v }).judgeArmEntries = x at *
  obtain ⟨once, judged', settles⟩ := State.announceArms_spec judged
  refine ⟨State.postedOnce_after_same once fun l => entries.events l .armState (by decide) (by decide), judged', fun hm => ?_⟩
  exact entries.trans (settles fun h => hm (unit ▸ h.1)) (by decide)

/-! ### ARM_LOWER and the end of a lowering (R93, R95) -/

section Lower
variable {a : Arm} {s : State}

theorem State.armLower_resting (hm : s.unit.mode ≠ .sweep) : s.armLower a = answer .state s := if_pos hm

variable (hm : s.unit.mode = .sweep)
include hm

theorem State.armLower_locked (ha : a = .main) (hl : s.arms.lock = true) : s.armLower a = answer .state s :=
  (if_neg (not_not_intro hm)).trans (if_pos ⟨ha, hl⟩)

/-- ARM_LOWER of an arm that may lower, by the arm's state (R93). -/
theorem State.armLower_free (hl : ¬(a = .main ∧ s.arms.lock = true)) : s.armLower a =
    match (s.arm a).state with
    | .stowed =>
      if (s.arm a).pending then answer .accepted s
      else if s.travel.ground ≤ s.settings.caps.armMove then answer .accepted (s.startLower a)
      else answer .accepted (s.markPending a true)
    | .lowering | .working | .yielding | .jammed => answer .done s
    | .raising | .fault => answer .state s :=
  (if_neg (not_not_intro hm)).trans (if_neg hl)

end Lower

/-- The start of a lowering (R93). -/
theorem State.startLower_spec (a : Arm) (s : State) :
    State.MovesArm a s (s.startLower a) ∧ (s.startLower a).arm a = { s.arm a with
      state := .lowering, phase := none, pending := false, timer := some (later s.now s.program.lowerTime)
      rot := ((s.startLower a).arm a).rot, force := ((s.startLower a).arm a).force } :=
  State.moveArm_spec a (fun r =>
    { r with state := .lowering, phase := none, pending := false, timer := some (later s.now s.program.lowerTime) }) s

theorem State.MovesArm.now {a : Arm} {s t : State} (h : State.MovesArm a s t) : t.now = s.now := by
  have leaving := h.leaving
  unfold State.now
  rw [leaving]

theorem State.taken_program (h : Head) (s : State) : (s.taken h).program = s.program := State.program_congr (by simp)

/-- An arm's timer of a movement is due (R95, R97, R103, R107). -/
theorem State.armDue_of {a : Arm} {st : ArmState} {ph : Option Phase} {s : State} {e : Time} (hs : (s.arm a).state = st)
    (hp : (s.arm a).phase = ph) (ht : (s.arm a).timer = some e) (hr : reached s.now e = true) :
    s.armDue a st ph = true := by
  unfold State.armDue
  rw [hs, hp, due_some ht hr]
  simp

theorem State.moveArm_scan (a : Arm) (f : ArmRec → ArmRec) (s : State) : (s.moveArm a f).scan = s.scan := by simp

/-- The end of a lowering: the arm works, and a side arm over a detection takes a strike (R95). -/
theorem State.lowerEnd_spec (a : Arm) (s : State) :
    (a = .main ∨ s.detects a = false → s.lowerEnd a = s.moveArm a fun r => { r with state := .working, timer := none }) ∧
    (∀ b : SideArm, a = b.arm → s.detects a = true →
      s.lowerEnd a = (s.moveArm a fun r => { r with state := .working, timer := none }).strike b) := by
  have detects : ∀ c : Arm, (s.moveArm a fun r => { r with state := .working, timer := none }).detects c = s.detects c :=
    fun c => by simp only [State.detects, State.moveArm_scan]
  unfold State.lowerEnd
  refine ⟨fun h => ?_, fun b hb hd => ?_⟩
  · cases a with
    | main => rfl
    | left | right =>
      simp only [detects, h.resolve_left (by decide), Bool.false_eq_true, if_false]
  · subst hb
    cases b <;> simp only [SideArm.arm] at * <;> simp only [detects, hd, if_true]

/-- Settles O36: the answers by the table of R93, the moves as `MovesArm` has them, and the end of a lowering. -/
theorem armsAreLowered : Obligations.ArmsAreLowered := by
  refine ⟨fun h n s hp => ?_, fun after a s e hs hph ht hr => ?_⟩
  · rw [← State.taken_unit h s, ← State.taken_program h s, ← State.taken_settings h s, ← State.taken_travel h s,
      ← State.taken_arms h s]
    simp only [← State.taken_arm h s]
    have run {c : Code} {t : State} (ha : armRequest h.link n State.armLower (s.taken h) = answer c t) :
        exec (.armLower h n) s = .next (t.answered h 19 c []) :=
      congrArg Host.Outcome.next (State.serve_eq_answered hp ha)
    refine ⟨fun hl => run (armRequest_drive hl), fun hl hn => run (armRequest_unknown hl hn), fun a hl hn => ?_⟩
    have body := armRequest_body (act := State.armLower) (s := s.taken h) hl hn
    generalize s.taken h = u at *
    refine ⟨fun hm => run (body.trans (State.armLower_resting hm)),
      fun hm ha hk => run (body.trans (State.armLower_locked hm ha hk)), fun hm hk => ?_⟩
    have free := body.trans (State.armLower_free hm hk)
    refine ⟨fun hs hpend => ?_, fun hs => ?_, fun hs => ?_, fun hs hpend hg => ?_, fun hs hpend hg => ?_⟩
    · rw [hs] at free; exact run (free.trans (if_pos hpend))
    · rcases hs with hs | hs | hs | hs <;> rw [hs] at free <;> exact run free
    · rcases hs with hs | hs <;> rw [hs] at free <;> exact run free
    · rw [hs] at free
      obtain ⟨moves, record⟩ := State.startLower_spec a u
      exact ⟨_, run ((free.trans (if_neg (by rw [hpend]; decide))).trans (if_pos hg)), moves, by rw [moves.now]; exact record⟩
    · rw [hs] at free
      obtain ⟨own, others⟩ := State.markPending_arm a true u
      obtain ⟨-, judged, settles⟩ := State.markPending_spec a true u
      exact ⟨_, run ((free.trans (if_neg (by rw [hpend]; decide))).trans (if_neg (Nat.not_le.2 hg))), own, others, judged,
        settles (by rw [hm]; decide)⟩
  · have run : exec (.lowerExpiry after a) s = .next ((s.elapse after).lowerEnd a) :=
      if_pos (State.armDue_of (s := s.elapse after) hs hph ht hr)
    refine ⟨_, run, ?_⟩
    obtain ⟨works, strikes⟩ := State.lowerEnd_spec a (s.elapse after)
    obtain ⟨moves, record⟩ := State.moveArm_spec a (fun r => { r with state := .working, timer := none }) (s.elapse after)
    refine ⟨fun hd => ?_, fun b hb hd => ⟨_, ⟨moves, record⟩, ?_⟩⟩
    · rw [works hd]; exact ⟨moves, record⟩
    · rw [strikes b hb hd]; exact State.strike_spec b _

/-! ### The unit's watch in LEAVING (R10, R11) -/

/-- A report with every arm down in LEAVING: the return to TRANSPORT, or the range request (R10, R11). -/
theorem State.announceArms_leaving {s : State} (hm : s.unit.mode = .leaving) (hd : s.arms.allDown = true) :
    let t := s.announceArms
    (s.unit.reached = true → t.unit.mode = .transport ∧ t.unit.swap = none) ∧
    (s.unit.reached = false → s.unit.requested = false →
      t.unit = { s.unit with requested := true, awaited := some .transport } ∧ t.gov.requested = some .transport ∧
      (t.ceiling.entry .rangeShift).active = true) := by
  intro t
  have e : t = ((s.postBoth .armState).leavingCheck).judgeBars := rfl
  obtain ⟨-, -, -, -, acts⟩ := State.leavingCheck_spec (s.postBoth .armState)
  obtain ⟨reached, asks⟩ := acts hm hd
  generalize (s.postBoth .armState).leavingCheck = x at *
  obtain ⟨settles, -⟩ := State.judgeBars_spec x
  have unit : t.unit = x.unit := by rw [e, settles.rest]
  have gov : t.gov = x.gov := by rw [e, settles.rest]
  have entry : (t.ceiling.entry .rangeShift).active = (x.ceiling.entry .rangeShift).active := by
    rw [e]; exact (settles.entries .rangeShift (by decide) (by decide) (by decide)).1
  rw [unit, gov, entry]
  exact ⟨reached, asks⟩

theorem State.moveArm_leaving {a : Arm} {f : ArmRec → ArmRec} {s : State} (hm : s.unit.mode = .leaving)
    (hd : ∀ b, ((s.moveArm a f).arm b).state = .stowed ∨ ((s.moveArm a f).arm b).state = .fault) :
    let t := s.moveArm a f
    (s.unit.reached = true → t.unit.mode = .transport ∧ t.unit.swap = none) ∧
    (s.unit.reached = false → s.unit.requested = false →
      t.unit = { s.unit with requested := true, awaited := some .transport } ∧ t.gov.requested = some .transport ∧
      (t.ceiling.entry .rangeShift).active = true) := by
  have arms : (s.moveArm a f).arms = ((s.modArm a f).postCoils a).judgeArmEntries.arms := by
    unfold State.moveArm State.announceArms; simp
  have unit : ((s.modArm a f).postCoils a).judgeArmEntries.unit = s.unit := by simp
  have acts := State.announceArms_leaving (s := ((s.modArm a f).postCoils a).judgeArmEntries) (by rw [unit]; exact hm)
    (by rw [← arms]; exact (Arms.allDown_iff _).2 hd)
  rw [unit] at acts
  exact acts

/-! ### ARM_RAISE, ARM_CLEAR and the end of a raising (R96 to R99) -/

theorem State.clearHoldDone_eq (a : Arm) (s : State) : s.clearHoldDone a = { s with arms := { s.arms with
    holdDone := if a = .main then false else s.arms.holdDone } } := by
  unfold State.clearHoldDone
  split <;> rfl

/-- The start of a raise, with the motor at 0 (R88, R96). -/
theorem State.startRaise_moves (a : Arm) (s : State) :
    State.MovesArm a { s with arms := { s.arms with holdDone := if a = .main then false else s.arms.holdDone } }
      (s.startRaise a) ∧
    (s.startRaise a).arm a = { s.arm a with
      state := .raising, phase := none, pending := false, timer := some (later (s.startRaise a).now s.program.raiseTime)
      rot := 0, force := ((s.startRaise a).arm a).force } := by
  obtain ⟨moves, record⟩ := State.startRaise_spec a s
  rw [State.clearHoldDone_eq] at moves
  have now : (s.startRaise a).now = s.now := moves.now
  generalize s.startRaise a = t at *
  have state : (t.arm a).state = .raising := by rw [record]
  have rot : (t.arm a).rot = 0 := (moves.posted.2.2.2.2.2.1 ⟨by rw [state]; decide, by rw [state]; decide⟩).2
  rw [rot] at record
  exact ⟨moves, by rw [now]; exact record⟩

section Raise
variable {a : Arm} {s : State}

theorem State.armRaise_fault (hs : (s.arm a).state = .fault) : s.armRaise a = answer .state s := by
  simp only [State.armRaise, hs]

theorem State.armRaise_down (hs : (s.arm a).state = .raising ∨ ((s.arm a).state = .stowed ∧ (s.arm a).pending = false)) :
    s.armRaise a = answer .done s := by
  rcases hs with hs | ⟨hs, hp⟩
  · simp only [State.armRaise, State.raiseArm, hs]
  · simp only [State.armRaise, State.raiseArm, hs, hp, Bool.false_eq_true, if_false]

theorem State.armRaise_pending (hs : (s.arm a).state = .stowed) (hp : (s.arm a).pending = true) :
    s.armRaise a = answer .done (s.markPending a false) := by
  simp only [State.armRaise, State.raiseArm, hs, hp, if_true]

theorem State.armRaise_out (hs : (s.arm a).state = .lowering ∨ (s.arm a).state = .working ∨ (s.arm a).state = .yielding ∨
    (s.arm a).state = .jammed) : s.armRaise a = answer .accepted (s.startRaise a) := by
  rcases hs with hs | hs | hs | hs <;> simp only [State.armRaise, State.raiseArm, hs]

theorem mem_allChannels (ch : Channel) : ch ∈ allChannels := by
  revert ch; decide

theorem State.armChannelFaulty_iff : s.armChannelFaulty a = true ↔
    ∃ ch : Channel, armOfChannel ch = some a ∧ s.output.channels[ch].fault ≠ .none := by
  simp [State.armChannelFaulty, mem_allChannels, Output.stateOf_eq_fault]

theorem State.armClear_state (h : (s.arm a).state ≠ .fault ∨ s.armChannelFaulty a = true) :
    s.armClear a = answer .state s := by
  unfold State.armClear
  split
  · rfl
  · next hs => exact if_pos (h.resolve_left hs)

theorem State.armClear_clears (hs : (s.arm a).state = .fault) (hf : s.armChannelFaulty a = false) :
    s.armClear a = if s.unit.mode.working = true then answer .accepted ((s.startRaise a).alarmGone .armFault a.number)
      else answer .done ((s.stow a).alarmGone .armFault a.number) := by
  unfold State.armClear
  rw [if_neg (not_not_intro hs), if_neg (by rw [hf]; decide)]

end Raise

/-- An arm reaches STOWED (R97, R99). -/
theorem State.stow_spec (a : Arm) (s : State) :
    State.MovesArm a s (s.stow a) ∧ (s.stow a).arm a = { s.arm a with
      state := .stowed, phase := none, timer := none, rot := 0, force := ((s.stow a).arm a).force } := by
  obtain ⟨moves, record⟩ := State.moveArm_spec a (fun r => { r with state := .stowed, phase := none, timer := none }) s
  have e : s.stow a = s.moveArm a fun r => { r with state := .stowed, phase := none, timer := none } := rfl
  rw [← e] at moves record
  generalize s.stow a = t at *
  have state : (t.arm a).state = .stowed := by rw [record]
  have rot : (t.arm a).rot = 0 := (moves.posted.2.2.2.2.2.1 ⟨by rw [state]; decide, by rw [state]; decide⟩).2
  rw [rot] at record
  exact ⟨moves, record⟩

/-- What ARM_CLEAR leaves after the arm has moved: its alarm's condition is absent (R99). -/
theorem State.alarmGone_after (c : AlarmCode) (d : Nat) (v : State) :
    State.GoesAbsent c d v (v.alarmGone c d) ∧ v.alarmGone c d = { v with notices := (v.alarmGone c d).notices } :=
  ⟨State.alarmGone_goes c d v, State.alarmGone_rest c d v⟩

/-- Settles O37: a raise is the move of R96, a clear the move and the report of the alarm's absence. -/
theorem armsAreRaised : Obligations.ArmsAreRaised := by
  refine ⟨fun h n s => ?_, fun after a s e hs hph ht hr => ?_⟩
  · rw [← State.taken_unit h s, ← State.taken_program h s, ← State.taken_arms h s, ← State.taken_output h s]
    simp only [← State.taken_arm h s]
    refine ⟨fun hp => ?_, fun hp => ?_⟩
    · have run {c : Code} {t : State} (ha : armRequest h.link n State.armRaise (s.taken h) = answer c t) :
          exec (.armRaise h n) s = .next (t.answered h 20 c []) :=
        congrArg Host.Outcome.next (State.serve_eq_answered hp ha)
      refine ⟨fun hl => run (armRequest_drive hl), fun hl hn => run (armRequest_unknown hl hn), fun a hl hn => ?_⟩
      have body := armRequest_body (act := State.armRaise) (s := s.taken h) hl hn
      generalize s.taken h = u at *
      refine ⟨fun hs => run (body.trans (State.armRaise_fault hs)), fun hs => run (body.trans (State.armRaise_down hs)),
        fun hs hpend => ?_, fun hs => ⟨_, run (body.trans (State.armRaise_out hs)), State.startRaise_moves a u⟩⟩
      obtain ⟨own, others⟩ := State.markPending_arm a false u
      obtain ⟨once, judged, settles⟩ := State.markPending_spec a false u
      exact ⟨_, run (body.trans (State.armRaise_pending hs hpend)), fun l => (once l).1, own, others, judged, settles⟩
    · have run {c : Code} {t : State} (ha : armRequest h.link n State.armClear (s.taken h) = answer c t) :
          exec (.armClear h n) s = .next (t.answered h 21 c []) :=
        congrArg Host.Outcome.next (State.serve_eq_answered hp ha)
      refine ⟨fun hl => run (armRequest_drive hl), fun hl hn => run (armRequest_unknown hl hn), fun a hl hn => ?_⟩
      have body := armRequest_body (act := State.armClear) (s := s.taken h) hl hn
      generalize s.taken h = u at *
      refine ⟨fun hs => run (body.trans (State.armClear_state (.inl hs))),
        fun hs hf => run (body.trans (State.armClear_state (.inr (State.armChannelFaulty_iff.2 hf)))), fun hs hf => ?_⟩
      have whole : u.armChannelFaulty a = false := Bool.eq_false_of_not_eq_true fun hn => by
        obtain ⟨ch, own, faulty⟩ := State.armChannelFaulty_iff.1 hn
        exact faulty (hf ch own)
      have clears := body.trans (State.armClear_clears hs whole)
      cases hw : u.unit.mode.working with
      | true =>
        obtain ⟨moves, record⟩ := State.startRaise_moves a u
        rw [if_pos hw] at clears
        obtain ⟨gone, rest⟩ := State.alarmGone_after .armFault a.number (u.startRaise a)
        have now : ((u.startRaise a).alarmGone .armFault a.number).now = (u.startRaise a).now := by
          unfold State.now; rw [rest]
        exact ⟨_, _, run clears, fun _ => ⟨moves, by rw [record], by rw [record, now]⟩, (fun hn => nomatch hn), gone, rest⟩
      | false =>
        obtain ⟨moves, record⟩ := State.stow_spec a u
        rw [if_neg (by rw [hw]; decide)] at clears
        obtain ⟨gone, rest⟩ := State.alarmGone_after .armFault a.number (u.stow a)
        exact ⟨_, _, run clears, (fun hn => nomatch hn), fun _ => ⟨moves, by rw [record], by rw [record]⟩, gone, rest⟩
  · have run : exec (.raiseExpiry after a) s = .next ((s.elapse after).stow a) :=
      if_pos (State.armDue_of (s := s.elapse after) hs hph ht hr)
    refine ⟨_, run, ?_⟩
    obtain ⟨moves, record⟩ := State.stow_spec a (s.elapse after)
    have phase : ((s.elapse after).arm a).phase = none := hph
    have stowed : ((s.elapse after).stow a).arm a = { s.arm a with
        state := .stowed, timer := none, rot := 0, force := (((s.elapse after).stow a).arm a).force } := by
      rw [← phase] at record
      exact record
    refine ⟨moves, stowed, fun hm down => ?_⟩
    refine State.moveArm_leaving (s := s.elapse after) hm fun b => ?_
    by_cases hb : b = a
    · subst hb
      exact .inl (by rw [show ((s.elapse after).moveArm b _).arm b = _ from stowed])
    · have same : (((s.elapse after).stow a).arm b) = s.arm b := moves.others b hb
      rw [show ((s.elapse after).moveArm a _).arm b = s.arm b from same]
      exact down b hb

/-! ### The phases of a yield (R103) -/

/-- The lift phase passes to the settle phase, its coils posted (R88, R103). -/
theorem State.liftEnd_spec (b : SideArm) (s : State) (hs : (s.arm b.arm).state = .yielding) :
    let t := s.liftEnd b
    t.arm b.arm = { s.arm b.arm with
      phase := some .settle, timer := some (later t.now s.settings.arms.yieldSettle), rot := (t.arm b.arm).rot, force := 0 } ∧
    t.armPosted b.arm ∧ (∀ a, a ≠ b.arm → t.arm a = s.arm a) ∧
    (∀ ch : Channel, armOfChannel ch ≠ some b.arm → t.output.channels[ch] = s.output.channels[ch]) ∧
    t = { s with arms := t.arms, output := t.output } := by
  obtain ⟨u, hu⟩ : ∃ u, u = s.modArm b.arm fun r => { r with phase := some .settle, timer := s.settleTimer } := ⟨_, rfl⟩
  have own : u.arm b.arm = { s.arm b.arm with phase := some .settle, timer := s.settleTimer } := by
    rw [hu]; exact State.modArm_arm_same _ _ _
  have others : ∀ a, a ≠ b.arm → u.arm a = s.arm a := fun a ha => by rw [hu]; exact State.modArm_arm_other ha _ _
  have e : s.liftEnd b = u.postCoils b.arm := by rw [hu]; rfl
  obtain ⟨posted, channels, -, record, others', -, rest⟩ := State.postCoils_spec b.arm u
  rw [e]
  generalize u.postCoils b.arm = t at *
  rw [own] at record
  have state : (t.arm b.arm).state = .yielding := by rw [record]; exact hs
  have force : (t.arm b.arm).force = 0 := by
    obtain ⟨ch, hch⟩ : ∃ ch, b.arm.force = some ch := by cases b <;> exact ⟨_, rfl⟩
    exact ((posted.2.2.2.2.2.2 ch hch).2 (by rw [state]; decide)).2
  have now : t.now = s.now := by unfold State.now; rw [rest, hu]; rfl
  rw [force] at record
  subst hu
  exact ⟨by rw [now]; exact record, posted, fun a ha => (others' a ha).trans (others a ha), channels, rest⟩

/-- Settles O38: the two ends of a phase are a posting of coils and, from the settle phase, a return to WORKING. -/
theorem yieldsEnd : Obligations.YieldsEnd := fun after b s e hs ht hr => by
  refine ⟨fun hp => ?_, fun hp => ?_⟩
  · have run : exec (.yieldLiftExpiry after b) s = .next ((s.elapse after).liftEnd b) :=
      if_pos (State.armDue_of (s := s.elapse after) hs hp ht hr)
    exact ⟨_, run, State.liftEnd_spec b (s.elapse after) hs⟩
  · have run : exec (.yieldSettleExpiry after b) s = .next ((s.elapse after).settleEnd b) :=
      if_pos (State.armDue_of (s := s.elapse after) hs hp ht hr)
    refine ⟨fun hd => ?_, fun hd => ?_⟩
    · have again : (s.elapse after).settleEnd b = (s.elapse after).modArm b.arm fun r =>
          { r with timer := (s.elapse after).settleTimer } := if_pos hd
      exact ⟨_, run.trans (congrArg Host.Outcome.next again), State.modArm_arm_same _ _ (s.elapse after),
        fun a ha => State.modArm_arm_other ha _ (s.elapse after), rfl⟩
    · have works : (s.elapse after).settleEnd b = (s.elapse after).moveArm b.arm fun r =>
          { r with state := .working, phase := none, timer := none } :=
        if_neg (fun h => by rw [show (s.elapse after).detects b.arm = false from hd] at h; cases h)
      exact ⟨_, run.trans (congrArg Host.Outcome.next works), State.moveArm_spec _ _ (s.elapse after)⟩

/-! ### The broom's lock and the jam hold (R105, R107, R109) -/

/-- The broom works again: its force field stands (R88, R107, R109). -/
theorem State.broomWorks_spec (s : State) :
    State.MovesArm .main s s.broomWorks ∧ s.broomWorks.arms.main = { s.arms.main with
      state := .working, phase := none, timer := none, rot := s.broomWorks.arms.main.rot } := by
  obtain ⟨moves, record⟩ := State.moveArm_spec .main (fun r => { r with state := .working, phase := none, timer := none }) s
  have force := State.moveArm_main_force (fun r => { r with state := .working, phase := none, timer := none }) s
  have e : s.broomWorks = s.moveArm .main fun r => { r with state := .working, phase := none, timer := none } := rfl
  rw [← e] at moves record force
  generalize s.broomWorks = t at *
  refine ⟨moves, ?_⟩
  have whole : t.arms.main = { s.arms.main with
    state := .working, phase := none, timer := none, rot := t.arms.main.rot, force := t.arms.main.force } := record
  rw [force] at whole
  exact whole

/-- A lock that is cleared, with its alarm (R109). -/
theorem State.clearLock_spec (s : State) :
    State.GoesAbsent .jamRepeat 2 s s.clearLock ∧
    s.clearLock = { s with arms := { s.arms with lock := false }, notices := s.clearLock.notices } :=
  ⟨State.alarmGone_goes .jamRepeat 2 (s.modArms fun x => { x with lock := false }),
    State.alarmGone_rest .jamRepeat 2 (s.modArms fun x => { x with lock := false })⟩

/-- The release of a cut that stands forms the target of channel 13 again and moves no setpoint (R105, R170). -/
theorem State.releaseIfCut_spec (s : State) :
    let v := if s.arms.cutSeen = true then s.releaseBroom else s
    v.arms = { s.arms with cutSeen := false } ∧ v.output.broomCut = (s.output.broomCut && !s.arms.cutSeen) ∧
    v = { s with arms := v.arms, output := v.output } ∧
    (∀ ch : Channel, ch ≠ 13 → v.output.channels[ch] = s.output.channels[ch]) ∧
    v.output.channels[(13 : Channel)].setpoint = s.output.channels[(13 : Channel)].setpoint := by
  cases hc : s.arms.cutSeen with
  | true =>
    have reformed := State.reformed_channel 13 13 (s.modOutput fun o => { o with broomCut := false })
    obtain ⟨-, others, -⟩ := State.changeChannel_spec 13 id (s.modOutput fun o => { o with broomCut := false })
    exact ⟨rfl, (Bool.and_false _).symm, rfl, others, reformed.1⟩
  | false =>
    refine ⟨?_, (Bool.and_true _).symm, rfl, fun _ _ => rfl, rfl⟩
    show s.arms = { s.arms with cutSeen := false }
    rw [← hc]

/-- Settles O39: the lock and its alarm clear first, then a cut that stands, and the broom moves last. -/
theorem broomIsFreed : Obligations.BroomIsFreed := by
  refine ⟨fun h s hp => ?_, fun after s e hs hph ht hr => ?_⟩
  · rw [← State.taken_arms h s, ← State.taken_scan h s, ← State.taken_output h s]
    have run {c : Code} {t : State} (ha : bodyOnly h.link State.broomClearJam (s.taken h) = answer c t) :
        exec (.broomClearJam h) s = .next (t.answered h 22 c []) :=
      congrArg Host.Outcome.next (State.serve_eq_answered hp ha)
    have body (hl : h.link = .body) : bodyOnly h.link State.broomClearJam (s.taken h) = (s.taken h).broomClearJam := by
      rw [hl]; rfl
    refine ⟨fun hl => run (by rw [hl]; rfl), fun hl hk => ?_, fun hl hk hj hd => ?_, fun hl hk hj => ?_, fun hl hk hj hd => ?_⟩ <;>
      generalize s.taken h = u at *
    · exact run ((body hl).trans (if_pos (by rw [hk]; rfl)))
    · refine run ((body hl).trans ?_)
      unfold State.broomClearJam
      rw [if_neg (by rw [hk]; decide), if_pos hj]
      exact if_pos hd
    · obtain ⟨gone, rest⟩ := State.clearLock_spec u
      refine ⟨_, run ((body hl).trans ?_), gone, rest⟩
      unfold State.broomClearJam
      rw [if_neg (by rw [hk]; decide), if_neg hj]
    · obtain ⟨gone, rest⟩ := State.clearLock_spec u
      obtain ⟨arms, cut, whole, others, setpoint⟩ := State.releaseIfCut_spec u.clearLock
      have freed : u.broomClearJam = answer .done
          (if u.clearLock.arms.cutSeen = true then u.clearLock.releaseBroom else u.clearLock).broomWorks := by
        unfold State.broomClearJam
        rw [if_neg (by rw [hk]; decide), if_pos hj]
        exact if_neg (fun hn => by rw [show u.detects .main = false from hd] at hn; cases hn)
      have lArms : u.clearLock.arms = { u.arms with lock := false } := by rw [rest]
      have lOutput : u.clearLock.output = u.output := by rw [rest]
      generalize (if u.clearLock.arms.cutSeen = true then u.clearLock.releaseBroom else u.clearLock) = v at *
      obtain ⟨moves, record⟩ := State.broomWorks_spec v
      rw [lArms] at arms cut
      rw [lOutput] at cut others setpoint
      have notices : v.notices = u.clearLock.notices := by rw [whole]
      refine ⟨v, _, run ((body hl).trans freed), ?_, moves, arms, cut, ?_, others, setpoint, ?_⟩
      · unfold State.GoesAbsent State.told at gone ⊢
        rw [notices]
        exact gone
      · rw [notices, whole, rest]
      · rw [record, arms]
  · have run : exec (.jamHoldExpiry after) s = .next (s.elapse after).jamHoldEnd :=
      if_pos (State.armDue_of (s := s.elapse after) (a := .main) hs hph ht hr)
    refine ⟨fun h => run.trans (congrArg Host.Outcome.next (if_neg ?_)), fun hd hc => ?_⟩
    · show ¬(!s.scan.comps[(2 : Fin 4)].detected && !s.arms.cutSeen) = true
      rcases h with h | h <;> rw [h] <;> simp
    · have works : (s.elapse after).jamHoldEnd = State.broomWorks { s.elapse after with arms := { s.arms with
          holdDone := true, main := { s.arms.main with timer := none } } } := if_pos (by
        show (!s.scan.comps[(2 : Fin 4)].detected && !s.arms.cutSeen) = true
        rw [hd, hc]; rfl)
      exact ⟨_, run.trans (congrArg Host.Outcome.next works), State.broomWorks_spec _⟩

end Sys2Proof.Machine
end

section
/-! The arm period (R88 to R91, R94, R105, R107): its periodic posts, one arm's part in it, and what the parts together leave. -/

namespace Sys2Proof.Machine

/-! ### The periodic posts (R89) -/

/-- The posts of one arm that are made again at an expiry, from `s` to `t`. -/
structure State.PostsAgain (a : Arm) (s t : State) : Prop where
  record : t.arm a = { s.arm a with rot := (t.arm a).rot, force := (t.arm a).force }
  others : ∀ b, b ≠ a → t.arm b = s.arm b
  flags : t.arms = { s.arms with left := t.arms.left, right := t.arms.right, main := t.arms.main }
  turns : (s.arm a).state ∈ [ArmState.lowering, .working, .yielding] →
    t.output.channels[a.motor].setpoint = s.rotation a ∧ (t.arm a).rot = s.rotation a
  presses : (s.arm a).state = .lowering ∨ (s.arm a).state = .working → ∀ ch, a.force = some ch →
    t.output.channels[ch].setpoint = s.program.forceOf a ∧ (t.arm a).force = s.program.forceOf a
  stands : (s.arm a).state ∉ [ArmState.lowering, .working, .yielding] → t = s
  channels : ∀ ch : Channel, ch ≠ a.motor → a.force ≠ some ch → t.output.channels[ch] = s.output.channels[ch]
  owners : s.output.sameOwners t.output
  rest : t = { s with arms := t.arms, output := t.output }

section Posts
variable (a : Arm) (v : Nat) (s : State)

theorem State.postRotation_spec :
    (s.postRotation a v).output.channels[a.motor].setpoint = v ∧
    (∀ ch, ch ≠ a.motor → (s.postRotation a v).output.channels[ch] = s.output.channels[ch]) ∧
    s.output.sameOwners (s.postRotation a v).output ∧ (s.postRotation a v).arm a = { s.arm a with rot := v } ∧
    (∀ b, b ≠ a → (s.postRotation a v).arm b = s.arm b) := by
  obtain ⟨setpoint, others, -⟩ := State.postSetpoint_spec a.motor v s
  exact ⟨setpoint, others, State.postSetpoint_owners a.motor v s, State.modArm_arm_same a _ (s.postSetpoint a.motor v),
    fun b hb => State.modArm_arm_other hb _ (s.postSetpoint a.motor v)⟩

theorem State.postForce_spec :
    (∀ ch, a.force = some ch →
      (s.postForce a v).output.channels[ch].setpoint = v ∧ ((s.postForce a v).arm a).force = v) ∧
    (∀ ch, a.force ≠ some ch → (s.postForce a v).output.channels[ch] = s.output.channels[ch]) ∧
    s.output.sameOwners (s.postForce a v).output ∧
    (s.postForce a v).arm a = { s.arm a with force := ((s.postForce a v).arm a).force } ∧
    (∀ b, b ≠ a → (s.postForce a v).arm b = s.arm b) ∧
    (s.postForce a v).arms = { s.arms with
      left := (s.postForce a v).arms.left, right := (s.postForce a v).arms.right, main := (s.postForce a v).arms.main } ∧
    s.postForce a v = { s with arms := (s.postForce a v).arms, output := (s.postForce a v).output } := by
  cases hf : a.force with
  | none =>
    have e : s.postForce a v = s := by simp only [State.postForce, hf]
    rw [e]
    exact ⟨(fun _ h => nomatch h), fun _ _ => rfl, ⟨fun _ => ⟨rfl, rfl, rfl⟩, rfl, rfl⟩, rfl, fun _ _ => rfl, rfl, rfl⟩
  | some k =>
    have e : s.postForce a v = (s.postSetpoint k v).modArm a fun r => { r with force := v } := by
      simp only [State.postForce, hf]
    obtain ⟨setpoint, others, -⟩ := State.postSetpoint_spec k v s
    have own := State.modArm_arm_same a (fun r => { r with force := v }) (s.postSetpoint k v)
    rw [e]
    refine ⟨fun ch h => ?_, fun ch h => others ch fun hk => h (congrArg some hk.symm), State.postSetpoint_owners k v s, ?_,
      fun b hb => State.modArm_arm_other hb _ (s.postSetpoint k v), ?_, rfl⟩
    · obtain rfl : k = ch := Option.some.inj h
      exact ⟨setpoint, by rw [own]⟩
    · rw [own]; rfl
    · cases a <;> rfl

theorem Arm.force_ne_motor {ch : Channel} (h : a.force = some ch) : ch ≠ a.motor := by
  revert h; cases a <;> revert ch <;> decide

end Posts

theorem State.periodicPosts_spec (a : Arm) (s : State) : State.PostsAgain a s (s.periodicPosts a) := by
  have rests (h : s.periodicPosts a = s) (hn : (s.arm a).state ∉ [ArmState.lowering, .working, .yielding]) :
      State.PostsAgain a s (s.periodicPosts a) := by
    rw [h]
    exact ⟨rfl, fun _ _ => rfl, rfl, fun hm => absurd hm hn, fun hp => absurd (by rcases hp with hp | hp <;> simp [hp]) hn,
      fun _ => rfl, fun _ _ _ => rfl, ⟨fun _ => ⟨rfl, rfl, rfl⟩, rfl, rfl⟩, rfl⟩
  obtain ⟨motor, others, owners, record, arms⟩ := State.postRotation_spec a (s.rotation a) s
  have flags : (s.postRotation a (s.rotation a)).arms = { s.arms with
      left := (s.postRotation a (s.rotation a)).arms.left, right := (s.postRotation a (s.rotation a)).arms.right
      main := (s.postRotation a (s.rotation a)).arms.main } := by cases a <;> rfl
  have rest : s.postRotation a (s.rotation a) = { s with
      arms := (s.postRotation a (s.rotation a)).arms, output := (s.postRotation a (s.rotation a)).output } := rfl
  have turnsOnly (h : s.periodicPosts a = s.postRotation a (s.rotation a)) (hs : (s.arm a).state = .yielding) :
      State.PostsAgain a s (s.periodicPosts a) := by
    rw [h]
    exact {
      record := by rw [record]
      others := arms
      flags := flags
      turns := fun _ => ⟨motor, by rw [record]⟩
      presses := fun hp => by rw [hs] at hp; exact absurd hp (by decide)
      stands := fun hn => absurd (by simp [hs]) hn
      channels := fun ch hm _ => others ch hm
      owners := owners
      rest := rest }
  have pressesToo (h : s.periodicPosts a = (s.postRotation a (s.rotation a)).postForce a (s.program.forceOf a))
      (hs : (s.arm a).state = .lowering ∨ (s.arm a).state = .working) : State.PostsAgain a s (s.periodicPosts a) := by
    rw [h]
    generalize s.postRotation a (s.rotation a) = u at *
    obtain ⟨force, others', owners', record', arms', flags', rest'⟩ := State.postForce_spec a (s.program.forceOf a) u
    generalize u.postForce a (s.program.forceOf a) = t at *
    exact {
      record := by rw [record', record]
      others := fun b hb => (arms' b hb).trans (arms b hb)
      flags := by rw [flags', flags]
      turns := fun _ => ⟨by rw [others' a.motor fun hf => Arm.force_ne_motor a hf rfl]; exact motor, by rw [record', record]⟩
      presses := fun _ ch hf => force ch hf
      stands := fun hn => absurd (by rcases hs with hs | hs <;> simp [hs]) hn
      channels := fun ch hm hf => (others' ch hf).trans (others ch hm)
      owners := Output.sameOwners_trans owners owners'
      rest := by rw [rest', rest] }
  cases hs : (s.arm a).state with
  | stowed | jammed | raising | fault => exact rests (by simp only [State.periodicPosts, hs]) (by rw [hs]; decide)
  | yielding => exact turnsOnly (by simp only [State.periodicPosts, hs]) hs
  | lowering | working => exact pressesToo (by simp only [State.periodicPosts, hs]) (by simp [hs])

/-! ### Bars that stand judged -/

/-- A judgement of bars that already stand as their conditions say moves no water. -/
theorem State.judgeBars_stands {s : State} (h : ∀ b, (s.spray.bar b).active = s.barMayBeActive b) :
    s.judgeBars.spray = s.spray ∧ s.judgeBars.output = s.output := by
  have one : ∀ b, s.judgeBar b = s := fun b => by
    unfold State.judgeBar
    rw [← h b]
    cases (s.spray.bar b).active <;> rfl
  have bars : Bar.all.foldl State.judgeBar s = s := by simp only [Bar.all, List.foldl, one]
  have pump : s.judgePump s.spray.anyActive = s := by
    unfold State.judgePump
    cases s.spray.anyActive <;> rfl
  unfold State.judgeBars
  dsimp only
  rw [bars, pump]
  simp [State.judgeDrySweep]

theorem Spray.eq_of_tank {y z : Spray} (h : z.tank = y.tank ∧ z.level = y.level ∧ z.latch = y.latch ∧ z.pressure = y.pressure) :
    z = { y with left := z.left, right := z.right, main := z.main, duty := z.duty, dryCount := z.dryCount } := by
  obtain ⟨tank, level, latch, pressure⟩ := h
  rw [← tank, ← level, ← latch, ← pressure]

/-- What an arm's move does to the bars, where the unit has nothing to act on: one judgement, which moves nothing where the bars already stand as
their conditions then say. -/
theorem State.moveArm_water {a : Arm} {f : ArmRec → ArmRec} {s : State}
    (out : State.staysOut a s (s.moveArm a f)) :
    let t := s.moveArm a f
    State.barsSettled s t ∧ ((∀ b, (s.spray.bar b).active = t.barMayBeActive b) →
      t.spray = s.spray ∧ ∀ ch : Channel, 14 ≤ ch.val → t.output.channels[ch] = s.output.channels[ch]) ∧
    t.spray = { s.spray with
      left := t.spray.left, right := t.spray.right, main := t.spray.main, duty := t.spray.duty
      dryCount := t.spray.dryCount } ∧
    ∀ b, (t.spray.bar b).enable = (s.spray.bar b).enable ∧ (t.spray.bar b).valveFault = (s.spray.bar b).valveFault := by
  obtain ⟨-, coils, -, -, -, -, rest⟩ := State.postCoils_spec a (s.modArm a f)
  obtain ⟨y, hy⟩ : ∃ y, y = ((s.modArm a f).postCoils a).judgeArmEntries.postBoth .armState := ⟨_, rfl⟩
  have e : s.moveArm a f = y.judgeBars := by
    have arms : (s.moveArm a f).arms = y.arms := by rw [hy]; unfold State.moveArm State.announceArms; simp
    have idle := (State.leavingCheck_spec y).1 fun ⟨mode, down⟩ => by
      have unit : y.unit = s.unit := by rw [hy]; simp
      rw [unit] at mode
      obtain ⟨up, whole⟩ := out.resolve_left (not_not_intro mode)
      rw [← arms] at down
      exact ((Arms.allDown_iff _).1 down a).elim up whole
    rw [← congrArg State.judgeBars idle, hy]
    rfl
  have spray : y.spray = s.spray := by rw [hy]; simp
  have settings : y.settings = s.settings := by rw [hy]; simp
  have output : y.output = ((s.modArm a f).postCoils a).output := by rw [hy]; simp
  have above : ∀ ch : Channel, 14 ≤ ch.val → y.output.channels[ch] = s.output.channels[ch] := fun ch hc => by
    rw [output]
    refine coils ch fun ho => ?_
    unfold armOfChannel at ho
    rw [if_neg (by omega), if_neg (by omega), if_neg (by omega)] at ho
    cases ho
  obtain ⟨settles, -, settled⟩ := State.judgeBars_spec y
  dsimp only
  rw [e]
  have tank := settles.tank
  have bars := settles.bars
  rw [spray] at tank bars
  refine ⟨?_, fun h => ?_, Spray.eq_of_tank tank, fun b => ⟨(bars b).1, (bars b).2.1⟩⟩
  · unfold State.barsSettled at settled ⊢
    rw [spray, settings, above 14 (by decide)] at settled
    exact settled
  · obtain ⟨water, out⟩ := State.judgeBars_stands (s := y) fun b => by rw [spray, ← settles.barMayBeActive]; exact h b
    rw [water, out]
    exact ⟨spray, above⟩

end Sys2Proof.Machine
end

section
/-! What the acts of an arm period expiry leave of the machine beyond the arms they move (R51, R89, R110, R111, R117). -/

namespace Sys2Proof.Machine

/-- Some of the acts of an arm period expiry, from `s` to `t`, which have moved an arm's state or not: what an arm's move brings
with it, judged once, and what no act moves. -/
structure State.ArmsRun (moved : Prop) (s t : State) : Prop where
  acts : moved → t.armEntriesJudged ∧ t.barsJudged ∧ State.barsSettled s t ∧ t.told .armState
  rests : ¬moved → t.ceiling = s.ceiling ∧ t.spray = s.spray ∧ t.notices = s.notices ∧ t.bank = s.bank ∧
    (∀ ch : Channel, 14 ≤ ch.val → t.output.channels[ch] = s.output.channels[ch]) ∧
    ∀ a, (t.arm a).state = (s.arm a).state ∧ (t.arm a).pending = (s.arm a).pending
  may : ∀ b, t.barMayBeActive b = s.barMayBeActive b
  again : (∀ b, (s.spray.bar b).active = s.barMayBeActive b) → t.spray = s.spray ∧
    ∀ ch : Channel, 14 ≤ ch.val → t.output.channels[ch] = s.output.channels[ch]
  entries : ∀ src : Source, src ∉ [Source.armTransition, .armYield, .reverseArms, .sprayLimit, .drySweep] →
    t.ceiling.sameEntry s.ceiling src
  tank : t.spray = { s.spray with
    left := t.spray.left, right := t.spray.right, main := t.spray.main, duty := t.spray.duty, dryCount := t.spray.dryCount }
  events : ∀ (l : Link) (k : EventKind), k ≠ .armState → k ≠ .ceilingBinding →
    (t.notices.events l).sameKind (s.notices.events l) k
  masks : ∀ l : Link, (t.notices.events l).mask = (s.notices.events l).mask
  tallies : ∀ x : Tally, x ≠ .urgentStops → t.bank.tallies[x.index] = s.bank.tallies[x.index]
  owners : ∀ ch : Channel, t.output.channels[ch].fault = s.output.channels[ch].fault ∧
    t.output.channels[ch].holder = s.output.channels[ch].holder ∧ t.output.channels[ch].level = s.output.channels[ch].level
  driveCut : t.output.driveCut = s.output.driveCut
  low : ∀ ch : Channel, ch.val < 3 → t.output.channels[ch] = s.output.channels[ch]
  alarms : t.notices.alarms = s.notices.alarms
  rest : t = { s with
    arms := t.arms, output := t.output, ceiling := t.ceiling, spray := t.spray, notices := t.notices
    bank := { s.bank with tallies := t.bank.tallies } }

section
variable {m n : Prop} {s t u : State}

theorem State.ArmsRun.program (h : State.ArmsRun m s t) : t.program = s.program :=
  State.program_congr (by rw [h.rest])

/-- The bars stand judged through acts that move no arm's state. -/
theorem State.ArmsRun.barsJudged (h : State.ArmsRun m s t) (hm : ¬m) (hj : s.barsJudged) : t.barsJudged := by
  obtain ⟨ceiling, spray, -⟩ := h.rests hm
  obtain ⟨bars, dry, limit⟩ := hj
  have unit : t.unit = s.unit := by rw [h.rest]
  refine ⟨fun b => ?_, ?_, ?_⟩
  · rw [spray, h.may]; exact bars b
  · rw [ceiling, unit, spray]; exact dry
  · rw [ceiling, h.program, spray]; exact limit

/-- So do the entries of the arms. -/
theorem State.ArmsRun.entriesJudged (h : State.ArmsRun m s t) (hm : ¬m) (hj : s.armEntriesJudged) : t.armEntriesJudged := by
  obtain ⟨ceiling, -, -, -, -, arms⟩ := h.rests hm
  unfold State.armEntriesJudged at *
  simp only [ceiling, fun a => (arms a).1, fun a => (arms a).2]
  exact hj

/-- Acts one after another: the bars are judged by the first that moves an arm, and stand through the later ones. -/
theorem State.ArmsRun.trans (h : State.ArmsRun m s t) (k : State.ArmsRun n t u) : State.ArmsRun (m ∨ n) s u where
  acts hmn := by
    by_cases hm : m
    · obtain ⟨entries, bars, settled, told⟩ := h.acts hm
      obtain ⟨water, above⟩ := k.again bars.1
      have through : State.barsSettled s u := State.barsSettled_congr settled rfl rfl rfl water above
      by_cases hn : n
      · obtain ⟨entries', bars', -, told'⟩ := k.acts hn
        exact ⟨entries', bars', through, told'⟩
      · refine ⟨k.entriesJudged hn entries, k.barsJudged hn bars, through, fun l => ?_⟩
        rw [(k.rests hn).2.2.1]
        exact told l
    · obtain ⟨-, spray, -, -, above, -⟩ := h.rests hm
      obtain ⟨entries, bars, settled, told⟩ := k.acts (hmn.resolve_left hm)
      refine ⟨entries, bars, ?_, told⟩
      have settings : t.settings = s.settings := by rw [h.rest]
      unfold State.barsSettled at settled ⊢
      rw [spray, settings, above 14 (by decide)] at settled
      exact settled
  rests hmn := by
    obtain ⟨h1, h2, h3, h4, h5, h6⟩ := h.rests fun hm => hmn (.inl hm)
    obtain ⟨k1, k2, k3, k4, k5, k6⟩ := k.rests fun hn => hmn (.inr hn)
    exact ⟨k1.trans h1, k2.trans h2, k3.trans h3, k4.trans h4, fun ch hc => (k5 ch hc).trans (h5 ch hc),
      fun a => ⟨(k6 a).1.trans (h6 a).1, (k6 a).2.trans (h6 a).2⟩⟩
  may b := (k.may b).trans (h.may b)
  again hj := by
    obtain ⟨water, above⟩ := h.again hj
    obtain ⟨water', above'⟩ := k.again fun b => by rw [water, h.may]; exact hj b
    exact ⟨water'.trans water, fun ch hc => (above' ch hc).trans (above ch hc)⟩
  entries src hs := CeilingTable.sameEntry_trans (h.entries src hs) (k.entries src hs)
  tank := by rw [k.tank, h.tank]
  events l e h1 h2 := EventSet.sameKind_trans (h.events l e h1 h2) (k.events l e h1 h2)
  masks l := (k.masks l).trans (h.masks l)
  tallies x hx := (k.tallies x hx).trans (h.tallies x hx)
  owners ch := ⟨(k.owners ch).1.trans (h.owners ch).1, (k.owners ch).2.1.trans (h.owners ch).2.1,
    (k.owners ch).2.2.trans (h.owners ch).2.2⟩
  driveCut := k.driveCut.trans h.driveCut
  low ch hc := (k.low ch hc).trans (h.low ch hc)
  alarms := k.alarms.trans h.alarms
  rest := by
    have first := h.rest
    have bank : t.bank = { s.bank with tallies := t.bank.tallies } := by rw [first]
    have second := k.rest
    rw [bank, first] at second
    exact second

theorem State.ArmsRun.congr (h : State.ArmsRun m s t) (hmn : m ↔ n) : State.ArmsRun n s t := propext hmn ▸ h

/-- Acts that change arms' flags, marks and posts alone. -/
theorem State.armsRun_of_posts (arms : ∀ a, (t.arm a).state = (s.arm a).state ∧ (t.arm a).pending = (s.arm a).pending)
    (low : ∀ ch : Channel, ch.val < 3 → t.output.channels[ch] = s.output.channels[ch])
    (above : ∀ ch : Channel, 14 ≤ ch.val → t.output.channels[ch] = s.output.channels[ch])
    (owners : ∀ ch : Channel, t.output.channels[ch].fault = s.output.channels[ch].fault ∧
      t.output.channels[ch].holder = s.output.channels[ch].holder ∧ t.output.channels[ch].level = s.output.channels[ch].level)
    (driveCut : t.output.driveCut = s.output.driveCut) (rest : t = { s with arms := t.arms, output := t.output }) :
    State.ArmsRun False s t := by
  have spray : t.spray = s.spray := by rw [rest]
  have ceiling : t.ceiling = s.ceiling := by rw [rest]
  have notices : t.notices = s.notices := by rw [rest]
  have bank : t.bank = s.bank := by rw [rest]
  have unit : t.unit = s.unit := by rw [rest]
  exact {
    acts := False.elim
    rests := fun _ => ⟨ceiling, spray, notices, bank, above, arms⟩
    may := fun b => by
      have state : (t.arms.get b.arm).state = (s.arms.get b.arm).state := (arms b.arm).1
      unfold State.barMayBeActive State.inForce
      rw [state, spray, unit]
    again := fun _ => ⟨spray, above⟩
    entries := fun _ _ => by rw [ceiling]; exact ⟨rfl, rfl, rfl⟩
    tank := by rw [spray]
    events := fun _ _ _ _ => by rw [notices]; exact ⟨rfl, rfl⟩
    masks := fun _ => by rw [notices]
    tallies := fun _ _ => by rw [bank]
    owners := owners
    driveCut := driveCut
    low := low
    alarms := by rw [notices]
    rest := by rw [ceiling, spray, notices, bank]; exact rest }

end

/-- A move of an arm that the unit has nothing to act on, and that opens no bar's condition, on a state that some reports have come before. -/
theorem State.moveArm_run {a : Arm} {f : ArmRec → ArmRec} {s v : State} (out : State.staysOut a v (v.moveArm a f))
    (hv : v = { s with notices := v.notices }) (halarms : v.notices.alarms = s.notices.alarms)
    (hevents : ∀ (l : Link) (k : EventKind), k ≠ .armState → (v.notices.events l).sameKind (s.notices.events l) k)
    (hmasks : ∀ l : Link, (v.notices.events l).mask = (s.notices.events l).mask)
    (hsweeps : ∀ b : Bar, armSweeps b.arm ((v.moveArm a f).arm b.arm).state = armSweeps b.arm (s.arm b.arm).state) :
    State.ArmsRun True s (v.moveArm a f) := by
  have unit : v.unit = s.unit := by rw [hv]
  have spray : v.spray = s.spray := by rw [hv]
  have output : v.output = s.output := by rw [hv]
  have ceiling : v.ceiling = s.ceiling := by rw [hv]
  have bank : v.bank = s.bank := by rw [hv]
  have settings : v.settings = s.settings := by rw [hv]
  obtain ⟨moves, -⟩ := State.moveArm_spec a f v
  obtain ⟨settled, again, tank, enables⟩ := State.moveArm_water out
  generalize v.moveArm a f = t at *
  have whole := moves.rest out
  have tunit : t.unit = s.unit := by rw [whole]; exact unit
  have may : ∀ b, t.barMayBeActive b = s.barMayBeActive b := fun b => by
    have state := hsweeps b
    have state : armSweeps b.arm (t.arms.get b.arm).state = armSweeps b.arm (s.arms.get b.arm).state := state
    have tanks : t.spray.tank = s.spray.tank ∧ t.spray.latch = s.spray.latch := by
      rw [tank, spray]; exact ⟨rfl, rfl⟩
    unfold State.barMayBeActive State.inForce
    rw [state, tunit, (enables b).1, (enables b).2, tanks.1, tanks.2, spray]
  rw [spray] at again tank
  rw [output] at again
  have channels := moves.channels
  have owners := moves.owners
  have cuts := moves.cuts
  rw [output] at channels owners cuts
  have entries := moves.entries out
  rw [ceiling] at entries
  exact {
    acts := fun _ => by
      refine ⟨moves.judged.1, moves.judged.2, ?_, fun l => (moves.told l).1⟩
      unfold State.barsSettled at settled ⊢
      rw [spray, settings, output] at settled
      exact settled
    rests := fun h => absurd trivial h
    may := may
    again := fun h => again fun b => by rw [may]; exact h b
    entries := entries
    tank := tank
    events := fun l k h1 h2 => EventSet.sameKind_trans (hevents l k h1) (moves.events l k h1 h2 (.inr out))
    masks := fun l => (moves.masks l).trans (hmasks l)
    tallies := fun x hx => (moves.tallies x hx (.inr out)).trans (by rw [bank])
    owners := owners
    driveCut := cuts.1
    low := fun ch hc => channels ch (hc.trans (by decide)) fun ho => by
      unfold armOfChannel at ho
      rw [if_neg (by omega), if_neg (by omega), if_neg (by omega)] at ho
      cases ho
    alarms := moves.alarms.trans halarms
    rest := by
      rw [hv, ← bank] at whole
      rw [← bank]
      exact whole }

end Sys2Proof.Machine
end

section
/-! The arm period (R88 to R91, R94, R105, R107): each arm's part, the broom's end of it, and the value of a brush curve. -/

namespace Sys2Proof.Machine

/-! ### One arm's part of an expiry (R89, R94) -/

/-- A stowed arm with its mark may lower (R94). -/
def State.mayLower (a : Arm) (s : State) : Prop :=
  (s.arm a).state = .stowed ∧ (s.arm a).pending = true ∧ s.unit.mode = .sweep ∧ s.travel.ground ≤ s.settings.caps.armMove

/-- The states in which an arm's motor turns (R88). -/
def turningStates : List ArmState := [.lowering, .working, .yielding]

/-- The lowering test and the periodic posts of one arm, from `s` to `t`. -/
structure State.ArmTick (a : Arm) (s t : State) : Prop where
  run : State.ArmsRun (s.mayLower a) s t
  lowers : s.mayLower a → (t.arm a).state = .lowering ∧ (t.arm a).pending = false ∧
    (t.arm a).timer = some (later s.now s.program.lowerTime)
  stands : ¬s.mayLower a → t.arm a = { s.arm a with rot := (t.arm a).rot, force := (t.arm a).force }
  others : ∀ b, b ≠ a → t.arm b = s.arm b
  flags : t.arms = { s.arms with left := t.arms.left, right := t.arms.right, main := t.arms.main }
  turns : (t.arm a).state ∈ turningStates →
    t.output.channels[a.motor].setpoint = s.rotation a ∧ (t.arm a).rot = s.rotation a
  presses : (t.arm a).state = .lowering ∨ (t.arm a).state = .working → ∀ ch, a.force = some ch →
    t.output.channels[ch].setpoint = s.program.forceOf a ∧ (t.arm a).force = s.program.forceOf a
  rests : ¬s.mayLower a → (s.arm a).state ∉ turningStates → t = s
  coils : ¬s.mayLower a → ∀ ch : Channel, ch ≠ a.motor → a.force ≠ some ch →
    t.output.channels[ch] = s.output.channels[ch]
  channels : ∀ ch : Channel, ch.val < 14 → armOfChannel ch ≠ some a → t.output.channels[ch] = s.output.channels[ch]
  broomCut : t.output.broomCut = s.output.broomCut

theorem armOfChannel_bounds {ch : Channel} {a : Arm} (h : armOfChannel ch = some a) : 3 ≤ ch.val ∧ ch.val < 14 := by
  unfold armOfChannel at h
  split at h
  · omega
  · split at h
    · omega
    · split at h
      · omega
      · cases h

theorem Arm.channels_own (a : Arm) : armOfChannel a.motor = some a ∧ armOfChannel a.lift = some a ∧
    armOfChannel a.lower = some a ∧ ∀ ch, a.force = some ch → armOfChannel ch = some a := by
  cases a <;> decide

/-- The posts of one arm at an expiry are no move of an arm. -/
theorem State.PostsAgain.run {a : Arm} {s t : State} (h : State.PostsAgain a s t) : State.ArmsRun False s t := by
  have outside : ∀ ch : Channel, ch.val < 3 ∨ 14 ≤ ch.val → t.output.channels[ch] = s.output.channels[ch] := fun ch hc =>
    h.channels ch
      (fun hm => by have := armOfChannel_bounds (Arm.channels_own a).1; rw [← hm] at this; omega)
      (fun hf => by have := armOfChannel_bounds ((Arm.channels_own a).2.2.2 ch hf); omega)
  refine State.armsRun_of_posts (fun b => ?_) (fun ch hc => outside ch (.inl hc)) (fun ch hc => outside ch (.inr hc))
    h.owners.1 h.owners.2.1 h.rest
  by_cases hb : b = a
  · subst hb; rw [h.record]; exact ⟨rfl, rfl⟩
  · rw [h.others b hb]; exact ⟨rfl, rfl⟩

/-- The rotation is told by the program, the ground speed, the cut-seen flag, the tank and the latch (R88, R90, R91). -/
theorem State.rotation_congr {s t : State} (a : Arm) (program : t.program = s.program) (travel : t.travel = s.travel)
    (cut : t.arms.cutSeen = s.arms.cutSeen) (tank : t.spray.tank = s.spray.tank) (latch : t.spray.latch = s.spray.latch) :
    t.rotation a = s.rotation a := by
  unfold State.rotation State.dryRotation
  rw [program, travel, cut, tank, latch]

theorem State.ArmsRun.rotation {m : Prop} {s t : State} (h : State.ArmsRun m s t) (cut : t.arms.cutSeen = s.arms.cutSeen)
    (a : Arm) : t.rotation a = s.rotation a := by
  have tank := h.tank
  exact State.rotation_congr a h.program (by rw [h.rest]) cut (by rw [tank]) (by rw [tank])

theorem State.lowerTest_idle {a : Arm} {s : State} (h : ¬s.mayLower a) : s.lowerTest a = s := if_neg h

theorem State.lowerTest_lowers {a : Arm} {s : State} (h : s.mayLower a) :
    s.lowerTest a = (s.postBoth .armState).startLower a := if_pos h

/-- An arm that may lower is moved into LOWERING (R94). -/
theorem State.lowerTest_run {a : Arm} {s : State} (h : s.mayLower a) :
    State.ArmsRun True s (s.lowerTest a) ∧ State.MovesArm a (s.postBoth .armState) (s.lowerTest a) ∧
    ((s.lowerTest a).arm a).state = .lowering ∧ ((s.lowerTest a).arm a).pending = false ∧
    ((s.lowerTest a).arm a).timer = some (later s.now s.program.lowerTime) := by
  have e := State.lowerTest_lowers h
  obtain ⟨stowed, -, mode, -⟩ := h
  obtain ⟨moves, record⟩ := State.startLower_spec a (s.postBoth .armState)
  rw [e]
  refine ⟨?_, moves, by rw [record], by rw [record], by rw [record]; rfl⟩
  refine State.moveArm_run (.inl (by rw [show (s.postBoth .armState).unit.mode = .sweep from mode]; decide)) rfl rfl (fun l k hk => ?_) (fun l => ?_) fun b => ?_
  · rw [State.postBoth_events]; exact (EventSet.post_spec .armState _).2.2.2 k hk
  · rw [State.postBoth_events]; exact (EventSet.post_spec .armState _).2.2.1
  · by_cases hb : b.arm = a
    · have state : ((State.startLower a (s.postBoth .armState)).arm a).state = .lowering := by rw [record]
      rw [hb, show ((State.moveArm a _ (s.postBoth .armState)).arm a).state = .lowering from state, stowed]
      cases a <;> rfl
    · rw [show (State.moveArm a _ (s.postBoth .armState)).arm b.arm = (s.postBoth .armState).arm b.arm from moves.others _ hb]
      rfl

theorem State.armTick_spec (a : Arm) (s : State) : State.ArmTick a s ((s.lowerTest a).periodicPosts a) := by
  have posts := State.periodicPosts_spec a (s.lowerTest a)
  by_cases h : s.mayLower a
  · obtain ⟨run, moves, state, pending, timer⟩ := State.lowerTest_run h
    obtain ⟨holdDone, lock, cutSeen, dryApplied⟩ := moves.flags
    have cuts := moves.cuts
    have channels := moves.channels
    have others := moves.others
    generalize s.lowerTest a = v at *
    generalize v.periodicPosts a = t at *
    have flags : v.arms = { s.arms with left := v.arms.left, right := v.arms.right, main := v.arms.main } := by
      have e : ∀ x : Arms, v.arms.holdDone = x.holdDone → v.arms.lock = x.lock → v.arms.cutSeen = x.cutSeen →
          v.arms.dryApplied = x.dryApplied →
          v.arms = { x with left := v.arms.left, right := v.arms.right, main := v.arms.main } := fun x h1 h2 h3 h4 => by
        rw [← h1, ← h2, ← h3, ← h4]
      exact e s.arms holdDone lock cutSeen dryApplied
    have rotation : v.rotation a = s.rotation a := run.rotation cutSeen a
    have tstate : (t.arm a).state = .lowering := by rw [posts.record]; exact state
    exact {
      run := (run.trans posts.run).congr (by simp [h])
      lowers := fun _ => ⟨tstate, by rw [posts.record]; exact pending, by rw [posts.record]; exact timer⟩
      stands := fun hn => absurd h hn
      others := fun b hb => (posts.others b hb).trans (others b hb)
      flags := by rw [posts.flags, flags]
      turns := fun _ => by rw [← rotation]; exact posts.turns (by rw [state]; decide)
      presses := fun _ ch hf => by
        rw [← run.program]; exact posts.presses (.inl state) ch hf
      rests := fun hn => absurd h hn
      coils := fun hn => absurd h hn
      channels := fun ch hc ho => by
        rw [posts.channels ch (fun hm => ho (hm ▸ (Arm.channels_own a).1)) (fun hf => ho ((Arm.channels_own a).2.2.2 ch hf))]
        exact channels ch hc ho
      broomCut := posts.owners.2.2.trans cuts.2 }
  · rw [State.lowerTest_idle h] at posts ⊢
    generalize s.periodicPosts a = t at *
    have state : (t.arm a).state = (s.arm a).state := by rw [posts.record]
    exact {
      run := posts.run.congr (by simp [h])
      lowers := fun hl => absurd hl h
      stands := fun _ => posts.record
      others := posts.others
      flags := posts.flags
      turns := fun ht => posts.turns (by rw [← state]; exact ht)
      presses := fun hp => posts.presses (by rw [← state]; exact hp)
      rests := fun _ hn => posts.stands hn
      coils := fun _ ch hm hf => posts.channels ch hm hf
      channels := fun ch _ ho => posts.channels ch (fun hm => ho (hm ▸ (Arm.channels_own a).1))
        (fun hf => ho ((Arm.channels_own a).2.2.2 ch hf))
      broomCut := posts.owners.2.2 }

/-! ### The broom's end of an expiry (R105, R107) -/

/-- The broom returns to WORKING at an expiry (R107, entry 20). -/
def State.broomReturns (s : State) : Prop :=
  s.arms.main.state = .jammed ∧ s.arms.lock = false ∧ s.arms.holdDone = true ∧
    s.scan.comps[(2 : Fin 4)].detected = false ∧ s.arms.cutSeen = false

/-- The end of the expiry at the broom, from `s` to `t`. -/
structure State.BroomTick (s t : State) : Prop where
  run : State.ArmsRun s.broomReturns s t
  returns : s.broomReturns → t.arms.main.state = .working ∧ t.arms.main.timer = none ∧ t.armPosted .main ∧
    t.rotation .main = s.rotation .main
  waits : ¬s.broomReturns → t.arms.main = s.arms.main ∧
    (∀ ch : Channel, ch ≠ 13 → t.output.channels[ch] = s.output.channels[ch]) ∧
    t.output.channels[(13 : Channel)].setpoint = s.output.channels[(13 : Channel)].setpoint
  others : ∀ b, b ≠ .main → t.arm b = s.arm b
  flags : t.arms.holdDone = s.arms.holdDone ∧ t.arms.lock = s.arms.lock ∧ t.arms.dryApplied = s.arms.dryApplied
  releases : s.arms.cutSeen = true → s.scan.comps[(2 : Fin 4)].detected = false →
    t.arms.cutSeen = false ∧ t.output.broomCut = false
  keeps : s.arms.cutSeen = false ∨ s.scan.comps[(2 : Fin 4)].detected = true →
    t.arms.cutSeen = s.arms.cutSeen ∧ t.output.broomCut = s.output.broomCut
  channels : ∀ ch : Channel, ch.val < 14 → armOfChannel ch ≠ some .main → t.output.channels[ch] = s.output.channels[ch]

/-- The release of a cut that is seen with comparator 2 CLEAR (R105). -/
theorem State.broomTick_releases {s : State} (hc : s.arms.cutSeen = true) (hd : s.scan.comps[(2 : Fin 4)].detected = false) :
    State.BroomTick s s.releaseBroom := by
  obtain ⟨arms, cut, rest, others, setpoint⟩ := State.releaseIfCut_spec s
  rw [if_pos hc] at arms cut rest others setpoint
  have own := fun k => State.reformed_channel 13 k (s.modOutput fun o => { o with broomCut := false })
  have drive : s.releaseBroom.output.driveCut = s.output.driveCut := rfl
  have keeps : ∀ ch : Channel, s.releaseBroom.output.channels[ch].fault = s.output.channels[ch].fault ∧
      s.releaseBroom.output.channels[ch].holder = s.output.channels[ch].holder ∧
      s.releaseBroom.output.channels[ch].level = s.output.channels[ch].level := fun k => (own k).2
  generalize s.releaseBroom = t at *
  have arm : ∀ b, t.arm b = s.arm b := fun b => by
    have e : t.arm b = ({ s.arms with cutSeen := false } : Arms).get b := congrArg (fun x : Arms => x.get b) arms
    rw [e]; cases b <;> rfl
  have barred : ¬s.broomReturns := fun h => by
    obtain ⟨-, -, -, -, cutless⟩ := h
    rw [hc] at cutless; cases cutless
  exact {
    run := (State.armsRun_of_posts (fun b => by rw [arm]; exact ⟨rfl, rfl⟩)
      (fun ch h => others ch fun h13 => by rw [h13] at h; exact absurd h (by decide))
      (fun ch h => others ch fun h13 => by rw [h13] at h; exact absurd h (by decide)) keeps drive rest).congr
        (by simp [barred])
    returns := fun h => absurd h barred
    waits := fun _ => ⟨by rw [arms], others, setpoint⟩
    others := fun b _ => arm b
    flags := by rw [arms]; exact ⟨rfl, rfl, rfl⟩
    releases := fun _ _ => ⟨by rw [arms], by rw [cut, hc]; simp⟩
    keeps := fun h => by rw [hc, hd] at h; simp at h
    channels := fun ch _ ho => others ch fun h13 => ho (by rw [h13]; rfl) }

/-- The broom that returns, its coils posted for WORKING (R88, R107). -/
theorem State.broomTick_returns {s : State} (h : s.broomReturns) : State.BroomTick s s.broomWorks := by
  have returns := h
  obtain ⟨jammed, -, -, clear, cutless⟩ := h
  obtain ⟨moves, record⟩ := State.broomWorks_spec s
  have state : (s.broomWorks.arm .main).state = .working := by
    show s.broomWorks.arms.main.state = _
    rw [record]
  have run : State.ArmsRun True s s.broomWorks := by
    refine State.moveArm_run (v := s) (.inr ?_) rfl rfl (fun _ _ _ => ⟨rfl, rfl⟩) (fun _ => rfl) fun b => ?_
    · rw [show ((s.moveArm .main _).arm .main).state = .working from state]
      decide
    · cases b with
      | left | right => rw [show (s.moveArm .main _).arm _ = s.arm _ from moves.others _ (by decide)]
      | main =>
        rw [show ((s.moveArm .main _).arm (Bar.arm .main)).state = .working from state,
          show (s.arm (Bar.arm .main)).state = .jammed from jammed]
        rfl
  obtain ⟨holdDone, lock, cutSeen, dryApplied⟩ := moves.flags
  generalize s.broomWorks = t at *
  exact {
    run := run.congr (by simp [returns])
    returns := fun _ => ⟨state, by rw [record], moves.posted, run.rotation cutSeen .main⟩
    waits := fun hn => absurd returns hn
    others := moves.others
    flags := ⟨holdDone, lock, dryApplied⟩
    releases := fun hc => by rw [cutless] at hc; cases hc
    keeps := fun _ => ⟨cutSeen, moves.cuts.2⟩
    channels := moves.channels }

/-- Neither a cut to release nor a broom that returns. -/
theorem State.broomTick_refl {s : State} (hr : ¬(s.arms.cutSeen = true ∧ s.scan.comps[(2 : Fin 4)].detected = false))
    (hb : ¬s.broomReturns) : State.BroomTick s s where
  run := (State.armsRun_of_posts (fun _ => ⟨rfl, rfl⟩) (fun _ _ => rfl) (fun _ _ => rfl) (fun _ => ⟨rfl, rfl, rfl⟩) rfl
    rfl).congr (by simp [hb])
  returns h := absurd h hb
  waits _ := ⟨rfl, fun _ _ => rfl, rfl⟩
  others _ _ := rfl
  flags := ⟨rfl, rfl, rfl⟩
  releases hc hd := absurd ⟨hc, hd⟩ hr
  keeps _ := ⟨rfl, rfl⟩
  channels _ _ _ := rfl

theorem State.broomPeriod_spec (s : State) : State.BroomTick s s.broomPeriod := by
  have detects : s.detects .main = s.scan.comps[(2 : Fin 4)].detected := rfl
  unfold State.broomPeriod
  rw [detects]
  cases hd : s.scan.comps[(2 : Fin 4)].detected with
  | true =>
    simp only [Bool.not_true, Bool.and_false, Bool.false_eq_true, if_false, false_and, and_false]
    refine State.broomTick_refl (fun h => ?_) fun h => ?_
    · rw [hd] at h; cases h.2
    · obtain ⟨-, -, -, clear, -⟩ := h
      rw [hd] at clear; cases clear
  | false =>
    cases hc : s.arms.cutSeen with
    | true =>
      simp only [Bool.not_false, Bool.and_true, Bool.not_true, Bool.false_eq_true, if_true, and_false, if_false]
      exact State.broomTick_releases hc hd
    | false =>
      simp only [Bool.not_false, Bool.and_true, Bool.false_eq_true, if_false, and_true, Bool.not_eq_true']
      split
      · next h =>
        obtain ⟨jammed, lock, done⟩ := h
        exact State.broomTick_returns ⟨jammed, lock, done, hd, hc⟩
      · next h =>
        refine State.broomTick_refl (fun hr => ?_) fun hb => ?_
        · rw [hc] at hr; cases hr.1
        · obtain ⟨jammed, lock, done, -⟩ := hb
          exact h ⟨jammed, lock, done⟩

end Sys2Proof.Machine
end

section
/-! The arm period as a whole (R88 to R91, R94, R105, R107), and the value of a brush curve (R90). -/

namespace Sys2Proof.Machine

/-! ### One arm through the whole expiry -/

/-- What an expiry makes of one arm, from `p` to `t`, before the broom's end of it. -/
structure State.ArmPart (a : Arm) (p t : State) : Prop where
  lowers : p.mayLower a → (t.arm a).state = .lowering ∧ (t.arm a).pending = false ∧
    (t.arm a).timer = some (later p.now p.program.lowerTime)
  stands : ¬p.mayLower a → t.arm a = { p.arm a with rot := (t.arm a).rot, force := (t.arm a).force }
  turns : (t.arm a).state ∈ turningStates →
    t.output.channels[a.motor].setpoint = p.rotation a ∧ (t.arm a).rot = p.rotation a
  presses : (t.arm a).state = .lowering ∨ (t.arm a).state = .working → ∀ ch, a.force = some ch →
    t.output.channels[ch].setpoint = p.program.forceOf a ∧ (t.arm a).force = p.program.forceOf a
  rests : ¬p.mayLower a → (p.arm a).state ∉ turningStates → t.arm a = p.arm a ∧
    ∀ ch, armOfChannel ch = some a → t.output.channels[ch] = p.output.channels[ch]
  coils : ¬p.mayLower a → ∀ ch : Channel, ch = a.lift ∨ ch = a.lower → t.output.channels[ch] = p.output.channels[ch]

section
variable {a : Arm} {m : Prop} {p x y t : State}

theorem State.ArmsRun.mayLower (h : State.ArmsRun m p x) (arm : x.arm a = p.arm a) : x.mayLower a ↔ p.mayLower a := by
  have unit : x.unit = p.unit := by rw [h.rest]
  have travel : x.travel = p.travel := by rw [h.rest]
  have settings : x.settings = p.settings := by rw [h.rest]
  unfold State.mayLower
  rw [arm, unit, travel, settings]

theorem State.ArmsRun.now (h : State.ArmsRun m p x) : x.now = p.now := by
  unfold State.now
  rw [h.rest]

/-- An arm's part, from its tick and from the ticks of the others before and after it. -/
theorem State.ArmTick.part (h : State.ArmTick a x y) (hx : State.ArmsRun m p x) (cut : x.arms.cutSeen = p.arms.cutSeen)
    (arm : x.arm a = p.arm a) (own : ∀ ch, armOfChannel ch = some a → x.output.channels[ch] = p.output.channels[ch])
    (arm' : t.arm a = y.arm a) (own' : ∀ ch, armOfChannel ch = some a → t.output.channels[ch] = y.output.channels[ch]) :
    State.ArmPart a p t := by
  obtain ⟨motor, lift, lower, force⟩ := Arm.channels_own a
  have may := hx.mayLower arm
  have rotation := hx.rotation cut a
  refine ⟨fun hl => ?_, fun hl => ?_, fun ht => ?_, fun hp ch hf => ?_, fun hl hs => ?_, fun hl ch hch => ?_⟩
  · rw [arm', ← hx.now, ← hx.program]; exact h.lowers (may.2 hl)
  · rw [arm', ← arm]; exact h.stands fun hn => hl (may.1 hn)
  · rw [arm', own' _ motor, ← rotation]; exact h.turns (by rw [← arm']; exact ht)
  · rw [arm', own' ch (force ch hf), ← hx.program]; exact h.presses (by rw [← arm']; exact hp) ch hf
  · have e : y = x := h.rests (fun hn => hl (may.1 hn)) (by rw [arm]; exact hs)
    rw [arm', e]
    exact ⟨arm, fun ch hc => by rw [own' ch hc, e]; exact own ch hc⟩
  · have mine : armOfChannel ch = some a := by rcases hch with hch | hch <;> rw [hch] <;> assumption
    have apart : ch ≠ a.motor ∧ a.force ≠ some ch := by
      rcases hch with hch | hch <;> rw [hch] <;> cases a <;> decide
    rw [own' ch mine, h.coils (fun hn => hl (may.1 hn)) ch apart.1 apart.2]
    exact own ch mine

end

/-- The three arms' parts of an expiry, and the broom's end of it, from `p` to `t`. -/
structure State.PeriodRun (p v t : State) : Prop where
  left : State.ArmPart .left p t
  right : State.ArmPart .right p t
  main : State.ArmPart .main p v
  broom : State.BroomTick v t
  before : State.ArmsRun (∃ a, p.mayLower a) p v
  flags : v.arms = { p.arms with
    left := v.arms.left, right := v.arms.right, main := v.arms.main, dryApplied := p.dryRotation }
  broomCut : v.output.broomCut = p.output.broomCut

theorem armOfChannel_ne {ch : Channel} {a b : Arm} (h : armOfChannel ch = some a) (hn : a ≠ b) : armOfChannel ch ≠ some b :=
  fun hb => hn (Option.some.inj (h.symm.trans hb))

theorem State.armPeriod_runs (p : State) : ∃ v, State.PeriodRun p v p.armPeriod := by
  obtain ⟨x, hx⟩ : ∃ x, x = p.modArms fun y => { y with dryApplied := p.dryRotation } := ⟨_, rfl⟩
  have first := State.armTick_spec .left x
  obtain ⟨y, hy⟩ : ∃ y, y = (x.lowerTest .left).periodicPosts .left := ⟨_, rfl⟩
  have second := State.armTick_spec .right y
  obtain ⟨z, hz⟩ : ∃ z, z = (y.lowerTest .right).periodicPosts .right := ⟨_, rfl⟩
  have third := State.armTick_spec .main z
  obtain ⟨v, hv⟩ : ∃ v, v = (z.lowerTest .main).periodicPosts .main := ⟨_, rfl⟩
  have last := State.broomPeriod_spec v
  have e : p.armPeriod = v.broomPeriod := by rw [hv, hz, hy, hx]; rfl
  rw [← hy] at first
  rw [← hz] at second
  rw [← hv] at third
  rw [e]
  generalize v.broomPeriod = t at *
  have marked : State.ArmsRun False p x := by
    rw [hx]
    exact State.armsRun_of_posts (fun b => by cases b <;> exact ⟨rfl, rfl⟩) (fun _ _ => rfl) (fun _ _ => rfl)
      (fun _ => ⟨rfl, rfl, rfl⟩) rfl rfl
  have xArm : ∀ a, x.arm a = p.arm a := fun a => by rw [hx]; cases a <;> rfl
  have xOut : x.output = p.output := by rw [hx]; rfl
  have xFlags : x.arms = { p.arms with dryApplied := p.dryRotation } := by rw [hx]; rfl
  have yFlags := first.flags
  have zFlags := second.flags
  have vFlags := third.flags
  have xCut : x.arms.cutSeen = p.arms.cutSeen := by rw [xFlags]
  have yCut : y.arms.cutSeen = p.arms.cutSeen := by rw [yFlags]; exact xCut
  have zCut : z.arms.cutSeen = p.arms.cutSeen := by rw [zFlags]; exact yCut
  have yRun := marked.trans first.run
  have zRun := yRun.trans second.run
  have vRun := zRun.trans third.run
  have yArm : ∀ a, a ≠ .left → y.arm a = p.arm a := fun a ha => (first.others a ha).trans (xArm a)
  have zArm : ∀ a, a ≠ .left → a ≠ .right → z.arm a = p.arm a := fun a h1 h2 => (second.others a h2).trans (yArm a h1)
  have yOwn : ∀ (a : Arm) (ch : Channel), a ≠ .left → armOfChannel ch = some a → y.output.channels[ch] = p.output.channels[ch] :=
    fun a ch ha hc => (first.channels ch (armOfChannel_bounds hc).2 (armOfChannel_ne hc ha)).trans (by rw [xOut])
  have zOwn : ∀ (a : Arm) (ch : Channel), a ≠ .left → a ≠ .right → armOfChannel ch = some a →
      z.output.channels[ch] = p.output.channels[ch] := fun a ch h1 h2 hc =>
    (second.channels ch (armOfChannel_bounds hc).2 (armOfChannel_ne hc h2)).trans (yOwn a ch h1 hc)
  have tArm : ∀ a, a ≠ .main → t.arm a = z.arm a := fun a ha => (last.others a ha).trans (third.others a ha)
  have tOwn : ∀ (a : Arm) (ch : Channel), a ≠ .main → armOfChannel ch = some a →
      t.output.channels[ch] = z.output.channels[ch] := fun a ch ha hc =>
    (last.channels ch (armOfChannel_bounds hc).2 (armOfChannel_ne hc ha)).trans
      (third.channels ch (armOfChannel_bounds hc).2 (armOfChannel_ne hc ha))
  refine ⟨v, ?_, ?_, ?_, last, vRun.congr ?_, ?_, ?_⟩
  · exact first.part marked xCut (xArm .left) (fun ch _ => by rw [xOut])
      ((tArm .left (by decide)).trans (second.others .left (by decide)))
      fun ch hc => (tOwn .left ch (by decide) hc).trans
        (second.channels ch (armOfChannel_bounds hc).2 (armOfChannel_ne hc (by decide)))
  · exact second.part yRun yCut (yArm .right (by decide)) (fun ch hc => yOwn .right ch (by decide) hc)
      (tArm .right (by decide)) (fun ch hc => tOwn .right ch (by decide) hc)
  · exact third.part zRun zCut (zArm .main (by decide) (by decide))
      (fun ch hc => zOwn .main ch (by decide) (by decide) hc) rfl fun _ _ => rfl
  · rw [marked.mayLower (xArm .left), yRun.mayLower (yArm .right (by decide)),
      zRun.mayLower (zArm .main (by decide) (by decide))]
    constructor
    · rintro (((h | h) | h) | h)
      · exact h.elim
      · exact ⟨_, h⟩
      · exact ⟨_, h⟩
      · exact ⟨_, h⟩
    · rintro ⟨a, h⟩
      cases a
      · exact .inl (.inl (.inr h))
      · exact .inl (.inr h)
      · exact .inr h
  · rw [vFlags, zFlags, yFlags, xFlags]
  · rw [third.broomCut, second.broomCut, first.broomCut, xOut]

section Run
variable {p v t : State}

/-- The broom returns by the flags that the expiry found (entry 20). -/
theorem State.PeriodRun.returns_iff (h : State.PeriodRun p v t) : v.broomReturns ↔ p.broomReturns := by
  have scan : v.scan = p.scan := by rw [h.before.rest]
  have main : v.arms.main.state = .jammed ↔ p.arms.main.state = .jammed := by
    by_cases hl : p.mayLower .main
    · have lowering : v.arms.main.state = .lowering := (h.main.lowers hl).1
      have stowed : p.arms.main.state = .stowed := hl.1
      rw [lowering, stowed]
      decide
    · have record : v.arms.main = { p.arms.main with rot := v.arms.main.rot, force := v.arms.main.force } :=
        h.main.stands hl
      rw [record]
  have flags := h.flags
  have lock : v.arms.lock = p.arms.lock := by rw [flags]
  have holdDone : v.arms.holdDone = p.arms.holdDone := by rw [flags]
  have cutSeen : v.arms.cutSeen = p.arms.cutSeen := by rw [flags]
  unfold State.broomReturns
  rw [main, scan, lock, holdDone, cutSeen]

theorem State.PeriodRun.run (h : State.PeriodRun p v t) :
    State.ArmsRun (p.broomReturns ∨ ∃ a, p.mayLower a) p t :=
  (h.before.trans h.broom.run).congr (by rw [h.returns_iff]; exact or_comm)

end Run

/-- The rotation of a side arm: the side curve at ground speed, reduced while dry rotation applies (R90, R91). -/
theorem State.rotation_side (b : SideArm) (s : State) : s.rotation b.arm =
    if (decide (s.spray.tank = .empty) || s.spray.latch) = true then
      s.program.side.at s.travel.ground * s.program.dryFrac / 1000 else s.program.side.at s.travel.ground := by
  cases b <;> rfl

/-- The rotation of the broom, which is 0 while a cut is seen (R88). -/
theorem State.rotation_main (s : State) : s.rotation .main = if s.arms.cutSeen = true then 0
    else if (decide (s.spray.tank = .empty) || s.spray.latch) = true then
      s.program.main.at s.travel.ground * s.program.dryFrac / 1000 else s.program.main.at s.travel.ground := by
  unfold State.rotation
  cases s.arms.cutSeen <;> rfl

section Run
variable {p v t : State}

/-- A side arm's part, and the broom's where it does not return, stand to the end of the expiry. -/
theorem State.PeriodRun.part (h : State.PeriodRun p v t) (a : Arm) (ha : ¬(a = .main ∧ p.broomReturns)) :
    (p.mayLower a → (t.arm a).state = .lowering ∧ (t.arm a).pending = false ∧
      (t.arm a).timer = some (later p.now p.program.lowerTime)) ∧
    (¬p.mayLower a → t.arm a = { p.arm a with rot := (t.arm a).rot, force := (t.arm a).force }) ∧
    (¬p.mayLower a → ∀ ch : Channel, ch = a.lift ∨ ch = a.lower → t.output.channels[ch] = p.output.channels[ch]) := by
  cases a with
  | left => exact ⟨h.left.lowers, h.left.stands, h.left.coils⟩
  | right => exact ⟨h.right.lowers, h.right.stands, h.right.coils⟩
  | main =>
    obtain ⟨record, others, -⟩ := h.broom.waits fun hr => ha ⟨rfl, h.returns_iff.1 hr⟩
    have record : t.arm .main = v.arm .main := record
    rw [record]
    exact ⟨h.main.lowers, h.main.stands, fun hl ch hc =>
      (others ch (by rcases hc with hc | hc <;> rw [hc] <;> decide)).trans (h.main.coils hl ch hc)⟩

/-- The broom at the end of the expiry: what it does when it returns, and its rotation (R88, R107). -/
theorem State.PeriodRun.broomMotor (h : State.PeriodRun p v t) :
    ((t.arm .main).state ∈ turningStates →
      t.output.channels[(13 : Channel)].setpoint = p.rotation .main ∧ t.arms.main.rot = p.rotation .main) ∧
    ((t.arm .main).state ∉ turningStates →
      t.output.channels[(13 : Channel)].setpoint = p.output.channels[(13 : Channel)].setpoint ∧
      t.arms.main.rot = p.arms.main.rot) := by
  by_cases hr : v.broomReturns
  · obtain ⟨state, -, posted, rotation⟩ := h.broom.returns hr
    have state : (t.arm .main).state = .working := state
    have cut : v.arms.cutSeen = p.arms.cutSeen := by rw [h.flags]
    obtain ⟨-, -, -, -, presses, -⟩ := posted
    have turns := presses (.inl (.inr state))
    rw [rotation, h.before.rotation cut] at turns
    exact ⟨fun _ => turns, fun hn => absurd (by rw [state]; decide) hn⟩
  · obtain ⟨record, -, setpoint⟩ := h.broom.waits hr
    have record' : t.arm .main = v.arm .main := record
    rw [record, setpoint, record']
    refine ⟨h.main.turns, fun hn => ?_⟩
    have idle : ¬p.mayLower .main := fun hl => hn (by rw [(h.main.lowers hl).1]; decide)
    have state : (v.arm .main).state = (p.arm .main).state := by rw [h.main.stands idle]
    obtain ⟨same, channels⟩ := h.main.rests idle (by rw [← state]; exact hn)
    exact ⟨by rw [channels 13 (by decide)], congrArg ArmRec.rot same⟩

/-- A side arm's posts at the end of the expiry (R88 to R91). -/
theorem State.PeriodRun.side (h : State.PeriodRun p v t) (b : SideArm) :
    (let v := p.program.side.at p.travel.ground
     let set := fun (ch : Channel) => t.output.channels[ch].setpoint
     let st := (t.arm b.arm).state
     let rot := if (decide (p.spray.tank = .empty) || p.spray.latch) = true then v * p.program.dryFrac / 1000 else v
     st = .lowering ∨ st = .working ∨ st = .yielding → set b.arm.motor = rot ∧ (t.arm b.arm).rot = rot) ∧
    ((t.arm b.arm).state = .lowering ∨ (t.arm b.arm).state = .working → (t.arm b.arm).force = p.program.forceOf b.arm ∧
      ∀ ch, b.arm.force = some ch → t.output.channels[ch].setpoint = p.program.forceOf b.arm) ∧
    (¬p.mayLower b.arm → (p.arm b.arm).state ∉ turningStates → t.arm b.arm = p.arm b.arm ∧
      ∀ ch, armOfChannel ch = some b.arm → t.output.channels[ch] = p.output.channels[ch]) := by
  have part : State.ArmPart b.arm p t := by
    cases b
    · exact h.left
    · exact h.right
  refine ⟨fun hs => ?_, fun hs => ?_, part.rests⟩
  · have turned := part.turns (by simpa [turningStates] using hs)
    rw [State.rotation_side] at turned
    exact turned
  · obtain ⟨k, hk⟩ : ∃ k, b.arm.force = some k := by cases b <;> exact ⟨_, rfl⟩
    exact ⟨(part.presses hs k hk).2, fun ch hf => (part.presses hs ch hf).1⟩

/-- The broom that returns (R88, R107). -/
theorem State.PeriodRun.returned (h : State.PeriodRun p v t) (hr : p.broomReturns) :
    t.arms.main.state = .working ∧ t.arms.main.timer = none ∧ t.armPosted .main := by
  obtain ⟨state, timer, posted, -⟩ := h.broom.returns (h.returns_iff.2 hr)
  exact ⟨state, timer, posted⟩

/-- The broom's flags and its cut at the end of the expiry (R91, R105). -/
theorem State.PeriodRun.broomFlags (h : State.PeriodRun p v t) :
    t.arms.holdDone = p.arms.holdDone ∧ t.arms.lock = p.arms.lock ∧ t.arms.dryApplied = p.dryRotation ∧
    (p.arms.cutSeen = true → p.scan.comps[(2 : Fin 4)].detected = false →
      t.arms.cutSeen = false ∧ t.output.broomCut = false) ∧
    (p.arms.cutSeen = false ∨ p.scan.comps[(2 : Fin 4)].detected = true →
      t.arms.cutSeen = p.arms.cutSeen ∧ t.output.broomCut = p.output.broomCut) := by
  obtain ⟨holdDone, lock, dryApplied⟩ := h.broom.flags
  have releases := h.broom.releases
  have keeps := h.broom.keeps
  have scan : v.scan = p.scan := by rw [h.before.rest]
  have flags := h.flags
  have cutSeen : v.arms.cutSeen = p.arms.cutSeen := by rw [flags]
  rw [scan, cutSeen] at releases keeps
  rw [h.broomCut] at keeps
  exact ⟨holdDone.trans (by rw [flags]), lock.trans (by rw [flags]), dryApplied.trans (by rw [flags]), releases, keeps⟩

end Run

/-! ### The value of a brush curve (R90) -/

section Curve
variable {v : Nat}

/-- A rising list of points rises from its first point. -/
theorem head_speed_le : ∀ {l : List Point}, strictlyRising l = true → ∀ (h0 : 0 < l.length) (k : Nat) (hk : k < l.length),
    l[0].speed ≤ l[k].speed
  | [], _, h0, _, _ => absurd h0 (Nat.lt_irrefl 0)
  | [_], _, _, 0, _ => le_rfl
  | [_], _, _, k + 1, hk => absurd hk (by simp)
  | _ :: _ :: _, _, _, 0, _ => le_rfl
  | p :: q :: rest, hr, _, k + 1, hk => by
    rw [strictlyRising, Bool.and_eq_true, decide_eq_true_eq] at hr
    exact hr.1.le.trans (head_speed_le hr.2 (Nat.succ_pos _) k (by simpa using hk))

theorem curveAt_before {l : List Point} (h0 : 0 < l.length) (hv : v ≤ l[0].speed) : curveAt v l = l[0].rot := by
  match l, h0 with
  | [_], _ => rfl
  | _ :: _ :: _, _ => exact if_pos hv

/-- Past a point, the value is that of the rest of the list. -/
theorem curveAt_past {p q : Point} {rest : List Point} (hp : p.speed < q.speed) (hv : q.speed ≤ v) :
    curveAt v (p :: q :: rest) = curveAt v (q :: rest) := by
  rw [curveAt, if_neg (by omega), if_neg (by omega)]

theorem curveAt_last : ∀ {l : List Point}, strictlyRising l = true → ∀ (k : Nat) (hk : k < l.length), k + 1 = l.length →
    l[k].speed ≤ v → curveAt v l = l[k].rot
  | [], _, _, hk, _, _ => absurd hk (Nat.not_lt_zero _)
  | [_], _, 0, _, _, _ => rfl
  | [_], _, _ + 1, hk, _, _ => absurd hk (by simp)
  | _ :: _ :: _, _, 0, _, hl, _ => absurd hl (by simp)
  | p :: q :: rest, hr, k + 1, hk, hl, hv => by
    have inside : k < (q :: rest).length := by simpa using hk
    rw [strictlyRising, Bool.and_eq_true, decide_eq_true_eq] at hr
    have head := head_speed_le hr.2 (Nat.succ_pos _) k inside
    rw [curveAt_past hr.1 (head.trans hv)]
    exact curveAt_last hr.2 k inside (by simpa using hl) hv

/-- The value on a segment is not below 0, so that nothing is lost in taking it as a rotation. -/
theorem segment_nonneg {p q : Point} (h1 : p.speed ≤ v) (h2 : v < q.speed) : 0 ≤ segment p q v := by
  have width : (0 : Int) < (q.speed : Int) - p.speed := by omega
  have along : (0 : Int) ≤ (v : Int) - p.speed := by omega
  have short : (v : Int) - p.speed ≤ (q.speed : Int) - p.speed := by omega
  unfold segment
  have bound : -(p.rot : Int) ≤ (((v : Int) - p.speed) * ((q.rot : Int) - p.rot)).tdiv ((q.speed : Int) - p.speed) := by
    rcases Nat.lt_or_ge q.rot p.rot with hlt | hge
    · have fall : (0 : Int) ≤ (p.rot : Int) - q.rot := by omega
      have flip : ((v : Int) - p.speed) * ((q.rot : Int) - p.rot) = -(((v : Int) - p.speed) * ((p.rot : Int) - q.rot)) := by
        ring
      rw [flip, Int.neg_tdiv, Int.tdiv_eq_ediv_of_nonneg (mul_nonneg along fall)]
      have : ((v : Int) - p.speed) * ((p.rot : Int) - q.rot) / ((q.speed : Int) - p.speed) ≤ (p.rot : Int) - q.rot :=
        Int.ediv_le_of_le_mul width (by rw [mul_comm]; exact mul_le_mul_of_nonneg_left short fall)
      omega
    · have rise : (0 : Int) ≤ (q.rot : Int) - p.rot := by omega
      rw [Int.tdiv_eq_ediv_of_nonneg (mul_nonneg along rise)]
      exact (by omega : -(p.rot : Int) ≤ 0).trans (Int.ediv_nonneg (mul_nonneg along rise) width.le)
  omega

theorem curveAt_segment : ∀ {l : List Point}, strictlyRising l = true → ∀ (k : Nat) (hk : k + 1 < l.length),
    l[k].speed ≤ v → v < l[k + 1].speed → (curveAt v l : Int) = segment l[k] l[k + 1] v
  | [], _, _, hk, _, _ => absurd hk (Nat.not_lt_zero _)
  | [_], _, _, hk, _, _ => absurd hk (by simp)
  | p :: q :: rest, hr, 0, _, h1, h2 => by
    have h1 : p.speed ≤ v := h1
    have h2 : v < q.speed := h2
    show (curveAt v (p :: q :: rest) : Int) = segment p q v
    rw [curveAt]
    split
    · next hb =>
      obtain rfl : v = p.speed := Nat.le_antisymm hb h1
      simp [segment]
    · exact Int.toNat_of_nonneg (segment_nonneg h1 h2)
  | p :: q :: rest, hr, k + 1, hk, h1, h2 => by
    have inside : k + 1 < (q :: rest).length := by simpa using hk
    rw [strictlyRising, Bool.and_eq_true, decide_eq_true_eq] at hr
    have head := head_speed_le hr.2 (Nat.succ_pos _) k (by omega)
    rw [curveAt_past hr.1 (head.trans h1)]
    exact curveAt_segment hr.2 k inside h1 h2

end Curve

theorem Curve.used_length {c : Curve} (h : c.count ≤ 6) : c.used.length = c.count := by
  simp [Curve.used, h]

theorem Curve.used_get {c : Curve} (k : Nat) (h : k < c.used.length) (h6 : k < 6) : c.used[k] = c.points[k] := by
  simp [Curve.used]

/-- The curve as the rule has it (R90). -/
theorem Curve.at_spec (c : Curve) (v : Nat) (h2 : 2 ≤ c.count) (h6 : c.count ≤ 6) (hr : c.Rising) :
    (v ≤ c.points[0].speed → c.at v = c.points[0].rot) ∧
    (∀ (k : Nat) (hk : k < 6), k + 1 = c.count → c.points[k].speed ≤ v → c.at v = c.points[k].rot) ∧
    (∀ (k : Nat) (hk : k + 1 < 6), k + 1 < c.count → c.points[k].speed ≤ v → v < c.points[k + 1].speed →
      (c.at v : Int) = c.points[k].rot + (((v : Int) - c.points[k].speed) *
        ((c.points[k + 1].rot : Int) - c.points[k].rot)).tdiv ((c.points[k + 1].speed : Int) - c.points[k].speed)) := by
  have length := Curve.used_length h6
  have rising := (Curve.rising_iff c).2 hr
  refine ⟨fun hv => ?_, fun k hk hl hv => ?_, fun k hk hl h1 h3 => ?_⟩
  · have first := Curve.used_get (c := c) 0 (by omega) (by decide)
    rw [← first] at hv ⊢
    exact curveAt_before (by omega) hv
  · have last := Curve.used_get (c := c) k (by omega) hk
    rw [← last] at hv ⊢
    exact curveAt_last rising k (by omega) (by omega) hv
  · have here := Curve.used_get (c := c) k (by omega) (by omega)
    have next := Curve.used_get (c := c) (k + 1) (by omega) hk
    rw [← here] at h1 ⊢
    rw [← next] at h3 ⊢
    exact curveAt_segment rising k (by omega) h1 h3

/-! ### The obligation -/

/-- Settles O40: the parts of the arms, the broom's end, and the frame of the acts together; the curve by its list. -/
theorem armPeriodRuns : Obligations.ArmPeriodRuns := by
  refine ⟨fun after s hr => ?_, Curve.at_spec⟩
  obtain ⟨p, hp⟩ : ∃ p, p = (s.elapse after).modPeriods fun q => { q with arm := later q.arm 20 } := ⟨_, rfl⟩
  obtain ⟨v, period⟩ := State.armPeriod_runs p
  have taken : exec (.armPeriodExpiry after) s = .next p.armPeriod := by rw [hp]; exact if_pos hr
  refine ⟨_, taken, ?_⟩
  obtain ⟨holdDone, lock, dryApplied, releases, keeps⟩ := period.broomFlags
  have part := period.part
  have side := period.side
  obtain ⟨turns, rests⟩ := period.broomMotor
  have returns := period.returned
  have run := period.run
  have now := run.now
  rw [State.rotation_main] at turns
  generalize p.armPeriod = t at *
  have told : p.broomReturns ∨ (∃ a, p.mayLower a) → t.told .armState := fun h => (run.acts h).2.2.2
  have frame := run.rest
  subst hp
  refine ⟨congrArg State.periods frame, dryApplied, fun a hl => ?_, fun a hl hw => (part a hw).2.1 hl, fun hw => ?_,
    fun b => ⟨(side b).1, (side b).2.1⟩, turns, rests, fun a ch ho hl hw => ⟨(part a hw).2.2 hl ch, fun hs ha => ?_⟩,
    ⟨fun hm => ?_, fun hm => ?_⟩, run.entries, run.tank, run.events, run.masks, run.tallies, run.owners, run.driveCut,
    releases, keeps, lock, holdDone, run.low, run.alarms, ?_⟩
  · have idle : ¬(a = .main ∧ State.broomReturns ((s.elapse after).modPeriods fun q => { q with arm := later q.arm 20 })) :=
      fun ⟨ha, hw⟩ => by
        subst ha
        have jammed : s.arms.main.state = .jammed := hw.1
        have stowed : s.arms.main.state = .stowed := hl.1
        rw [jammed] at stowed; cases stowed
    obtain ⟨state, pending, timer⟩ := (part a idle).1 hl
    exact ⟨state, pending, by rw [now]; exact timer, told (.inr ⟨a, hl⟩)⟩
  · obtain ⟨state, timer, posted⟩ := returns hw
    exact ⟨state, timer, posted, told (.inl hw)⟩
  · obtain ⟨b, rfl⟩ : ∃ b : SideArm, b.arm = a := by
      cases a
      · exact ⟨.left, rfl⟩
      · exact ⟨.right, rfl⟩
      · exact absurd rfl ha
    obtain ⟨same, channels⟩ := (side b).2.2 hl hs
    exact ⟨channels ch ho, same⟩
  · obtain ⟨entries, bars, settled, -⟩ := run.acts hm
    exact ⟨entries, bars, settled⟩
  · obtain ⟨ceiling, spray, notices, bank, above, -⟩ := run.rests hm
    exact ⟨ceiling, spray, notices, bank, above⟩
  · rw [congrArg State.periods frame]
    exact frame

end Sys2Proof.Machine
end

section
/-! What goes on in LEAVING while no bar is active (R10, R11, R96, R97): the range request, and the raises of the arms. -/

namespace Sys2Proof.Machine

/-! ### The state in LEAVING -/

/-- LEAVING with the transport range not reached, and no bar active. -/
structure State.Leaving (s : State) : Prop where
  mode : s.unit.mode = .leaving
  reached : s.unit.reached = false
  bars : ∀ b, (s.spray.bar b).active = false
  judged : s.barsJudged

/-- No bar may be active outside SWEEP (R117). -/
theorem State.barMayBeActive_of_mode {s : State} (h : s.unit.mode ≠ .sweep) (b : Bar) : s.barMayBeActive b = false := by
  simp [State.barMayBeActive, h]

theorem State.Leaving.idle {s : State} (h : s.Leaving) (b : Bar) : (s.spray.bar b).active = s.barMayBeActive b := by
  rw [h.bars, State.barMayBeActive_of_mode (by rw [h.mode]; decide)]

/-- The request for the transport range from `s` to `t` (R10, R75). -/
structure State.AsksRange (s t : State) : Prop where
  unit : t.unit = { s.unit with requested := true, awaited := some .transport }
  gov : t.gov = { s.gov with requested := some .transport, shift := t.gov.shift, settle := t.gov.settle }
  waits : s.gov.setRange = .work → t.gov.shift = .waiting ∧ t.gov.settle = none
  stands : s.gov.setRange = .transport → t.gov.settle = s.gov.settle ∧
    t.gov.shift = if s.gov.settle.isSome = true then s.gov.shift else .none
  active : (t.ceiling.entry .rangeShift).active = true
  cap : (t.ceiling.entry .rangeShift).cap = s.settings.caps.shiftSpeed

/-- Some of what goes on in LEAVING, from `s` to `t`, with a report of an arm or without one. -/
structure State.LeavesOn (acted : Prop) (s t : State) : Prop where
  leaving : t.Leaving
  acts : acted → t.armEntriesJudged ∧ t.told .armState
  rests : ¬acted → t.arms = s.arms ∧
    (∀ src ∈ [Source.armTransition, .armYield, .reverseArms], t.ceiling.sameEntry s.ceiling src) ∧
    ∀ l : Link, (t.notices.events l).sameKind (s.notices.events l) .armState
  down : t.arms.allDown = s.arms.allDown
  asks : (t.unit = s.unit ∧ t.gov = s.gov ∧ t.ceiling.sameEntry s.ceiling .rangeShift) ∨
    (s.arms.allDown = true ∧ s.unit.requested = false ∧ State.AsksRange s t)
  spray : t.spray = s.spray
  above : ∀ ch : Channel, 14 ≤ ch.val → t.output.channels[ch] = s.output.channels[ch]
  low : ∀ ch : Channel, ch.val < 3 → t.output.channels[ch] = s.output.channels[ch]
  owners : s.output.sameOwners t.output
  entries : ∀ src : Source, src ∉ [Source.rangeShift, .armTransition, .armYield, .reverseArms, .sprayLimit, .drySweep] →
    t.ceiling.sameEntry s.ceiling src
  events : ∀ (l : Link) (k : EventKind), k ≠ .armState → k ≠ .ceilingBinding →
    (t.notices.events l).sameKind (s.notices.events l) k
  masks : ∀ l : Link, (t.notices.events l).mask = (s.notices.events l).mask
  alarms : t.notices.alarms = s.notices.alarms
  tallies : ∀ x : Tally, x ≠ .urgentStops → t.bank.tallies[x.index] = s.bank.tallies[x.index]
  rest : t = { s with
    unit := t.unit, gov := t.gov, ceiling := t.ceiling, arms := t.arms, output := t.output, notices := t.notices
    bank := { s.bank with tallies := t.bank.tallies } }

section
variable {m n : Prop} {s t u : State}

/-- A range request with the reports standing before and after it. -/
theorem State.AsksRange.congr {s' t' : State} (h : State.AsksRange s t) (unit : s.unit = s'.unit) (gov : s.gov = s'.gov)
    (settings : s.settings = s'.settings) (unit' : t'.unit = t.unit) (gov' : t'.gov = t.gov)
    (entry : t'.ceiling.sameEntry t.ceiling .rangeShift) : State.AsksRange s' t' := by
  obtain ⟨active, cap, -⟩ := entry
  refine ⟨?_, ?_, ?_, ?_, active.trans h.active, cap.trans (h.cap.trans (by rw [settings]))⟩
  · rw [unit', h.unit, unit]
  · rw [gov', ← gov]; exact h.gov
  · rw [gov', ← gov]; exact h.waits
  · rw [gov', ← gov]; exact h.stands

theorem State.LeavesOn.trans (h : State.LeavesOn m s t) (k : State.LeavesOn n t u) : State.LeavesOn (m ∨ n) s u where
  leaving := k.leaving
  acts hmn := by
    by_cases hn : n
    · exact k.acts hn
    · obtain ⟨judged, told⟩ := h.acts (hmn.resolve_right hn)
      obtain ⟨arms, entries, events⟩ := k.rests hn
      exact ⟨State.armEntriesJudged_congr judged arms fun src hs => (entries src hs).1, fun l => (events l).1.trans (told l)⟩
  rests hmn := by
    obtain ⟨h1, h2, h3⟩ := h.rests fun hm => hmn (.inl hm)
    obtain ⟨k1, k2, k3⟩ := k.rests fun hn => hmn (.inr hn)
    exact ⟨k1.trans h1, fun src hs => CeilingTable.sameEntry_trans (h2 src hs) (k2 src hs),
      fun l => EventSet.sameKind_trans (h3 l) (k3 l)⟩
  down := k.down.trans h.down
  asks := by
    have settings : t.settings = s.settings := by rw [h.rest]
    rcases h.asks with ⟨unit, gov, entry⟩ | ⟨down, requested, asked⟩
    · rcases k.asks with ⟨unit', gov', entry'⟩ | ⟨down', requested', asked'⟩
      · exact .inl ⟨unit'.trans unit, gov'.trans gov, CeilingTable.sameEntry_trans entry entry'⟩
      · exact .inr ⟨h.down ▸ down', unit ▸ requested', asked'.congr unit gov settings rfl rfl ⟨rfl, rfl, rfl⟩⟩
    · rcases k.asks with ⟨unit', gov', entry'⟩ | ⟨-, requested', -⟩
      · exact .inr ⟨down, requested, asked.congr rfl rfl rfl unit' gov' entry'⟩
      · rw [asked.unit] at requested'; cases requested'
  spray := k.spray.trans h.spray
  above ch hc := (k.above ch hc).trans (h.above ch hc)
  low ch hc := (k.low ch hc).trans (h.low ch hc)
  owners := Output.sameOwners_trans h.owners k.owners
  entries src hs := CeilingTable.sameEntry_trans (h.entries src hs) (k.entries src hs)
  events l e h1 h2 := EventSet.sameKind_trans (h.events l e h1 h2) (k.events l e h1 h2)
  masks l := (k.masks l).trans (h.masks l)
  alarms := k.alarms.trans h.alarms
  tallies x hx := (k.tallies x hx).trans (h.tallies x hx)
  rest := by
    have first := h.rest
    have bank : t.bank = { s.bank with tallies := t.bank.tallies } := by rw [first]
    have second := k.rest
    rw [bank, first] at second
    exact second

theorem State.LeavesOn.congr (h : State.LeavesOn m s t) (hmn : m ↔ n) : State.LeavesOn n s t := propext hmn ▸ h

theorem State.leavesOn_refl (h : s.Leaving) : State.LeavesOn False s s where
  leaving := h
  acts := False.elim
  rests _ := ⟨rfl, fun _ _ => ⟨rfl, rfl, rfl⟩, fun _ => ⟨rfl, rfl⟩⟩
  down := rfl
  asks := .inl ⟨rfl, rfl, ⟨rfl, rfl, rfl⟩⟩
  spray := rfl
  above _ _ := rfl
  low _ _ := rfl
  owners := ⟨fun _ => ⟨rfl, rfl, rfl⟩, rfl, rfl⟩
  entries _ _ := ⟨rfl, rfl, rfl⟩
  events _ _ _ _ := ⟨rfl, rfl⟩
  masks _ := rfl
  alarms := rfl
  tallies _ _ := rfl
  rest := rfl

/-- The bars stand judged through a change that leaves the unit's program, the water and the two entries' activity. -/
theorem State.Leaving.congr (h : s.Leaving) (mode : t.unit.mode = s.unit.mode) (reached : t.unit.reached = s.unit.reached)
    (spray : t.spray = s.spray)
    (entries : ∀ src ∈ [Source.sprayLimit, .drySweep], (t.ceiling.entry src).active = (s.ceiling.entry src).active) :
    t.Leaving := by
  have mode : t.unit.mode = .leaving := mode.trans h.mode
  have bars : ∀ b, (t.spray.bar b).active = false := by rw [spray]; exact h.bars
  obtain ⟨-, dry, limit⟩ := h.judged
  refine ⟨mode, reached.trans h.reached, bars, fun b => ?_, ?_, ?_⟩
  · rw [bars, State.barMayBeActive_of_mode (by rw [mode]; decide)]
  · rw [entries .drySweep (by simp), dry, h.mode, mode]
    simp
  · rw [entries .sprayLimit (by simp), limit]
    simp only [h.bars, bars, Bool.false_eq_true, false_and, exists_false, and_false]

theorem State.requestRange_other (r : Range) {src : Source} (hs : src ≠ .rangeShift) :
    (s.requestRange r).ceiling.sameEntry s.ceiling src :=
  State.activate_other (s := s.modGov fun g => { g with requested := some r }) s.settings.caps.shiftSpeed hs

/-- The watch of the unit (R10): the request, once, when every arm is down. -/
theorem State.leavingCheck_on (h : s.Leaving) :
    State.LeavesOn False s s.leavingCheck ∧
    (s.arms.allDown = true → s.leavingCheck.unit.requested = true) ∧
    (s.arms.allDown = false → s.leavingCheck.unit = s.unit ∧ s.leavingCheck.gov = s.gov) ∧
    s.leavingCheck.output = s.output := by
  have idle (hn : s.leavingCheck = s) : State.LeavesOn False s s.leavingCheck := by
    rw [hn]; exact State.leavesOn_refl h
  by_cases hd : s.arms.allDown = true
  · cases hr : s.unit.requested with
    | true =>
      have e : s.leavingCheck = s := by
        unfold State.leavingCheck
        rw [if_pos ⟨h.mode, hd⟩, if_neg (by rw [h.reached]; decide), if_pos hr]
      exact ⟨idle e, fun _ => by rw [e]; exact hr, (fun hn => by rw [hd] at hn; cases hn), by rw [e]⟩
    | false =>
      have e : s.leavingCheck = State.requestRange .transport
          (s.modUnit fun u => { u with requested := true, awaited := some .transport }) := by
        unfold State.leavingCheck
        rw [if_pos ⟨h.mode, hd⟩, if_neg (by rw [h.reached]; decide), if_neg (by rw [hr]; decide)]
      obtain ⟨settles, active, cap, gov, waits, stands⟩ := State.requestRange_spec .transport
        (s.modUnit fun u => { u with requested := true, awaited := some .transport })
      have others : ∀ src, src ≠ .rangeShift → s.leavingCheck.ceiling.sameEntry s.ceiling src := fun src hs => by
        rw [e]
        exact State.requestRange_other (s := s.modUnit fun u => { u with requested := true, awaited := some .transport })
          .transport hs
      have spray : s.leavingCheck.spray = s.spray := by rw [e]; simp
      have output : s.leavingCheck.output = s.output := by rw [e]; simp
      rw [← e] at settles active cap gov waits stands
      generalize s.leavingCheck = t at *
      have unit : t.unit = { s.unit with requested := true, awaited := some .transport } := by
        rw [settles.rest]; rfl
      have arms : t.arms = s.arms := by rw [settles.rest]; rfl
      refine ⟨{
        leaving := h.congr (by rw [unit]) (by rw [unit]) spray fun src hs => (others src (by simp at hs; rcases hs with rfl | rfl <;> decide)).1
        acts := False.elim
        rests := fun _ => ⟨arms, fun src hs => others src (by simp at hs; rcases hs with rfl | rfl | rfl <;> decide), fun l => settles.events l _ (by decide) (by decide)⟩
        down := by rw [arms]
        asks := .inr ⟨hd, hr, unit, gov, fun hw => waits (by rw [show (s.modUnit _).gov.setRange = .work from hw]; decide),
          fun ht => stands ht.symm, active, cap⟩
        spray := spray
        above := fun ch _ => by rw [output]
        low := fun ch _ => by rw [output]
        owners := by rw [output]; exact ⟨fun _ => ⟨rfl, rfl, rfl⟩, rfl, rfl⟩
        entries := fun src hs => others src (by simp at hs; tauto)
        events := fun l k _ hb => settles.events l k (by simp) hb
        masks := settles.masks
        alarms := settles.alarms
        tallies := fun x hx => settles.tallies x (by simp) hx
        rest := by
          have whole := settles.rest
          rw [unit, spray, arms, output] at *
          rw [whole]
          rfl }, fun _ => by rw [unit], (fun hn => by rw [hd] at hn; cases hn), output⟩
  · have e : s.leavingCheck = s := by
      unfold State.leavingCheck
      rw [if_neg fun hn => hd hn.2]
    exact ⟨idle e, fun hn => absurd hn hd, (fun _ => by rw [e]; exact ⟨rfl, rfl⟩), by rw [e]⟩

end

end Sys2Proof.Machine
end

section
/-! The raises with which LEAVING begins (R10, R96, R97), and the end of a sweep as a whole (R8, R10). -/

namespace Sys2Proof.Machine

section
variable {a : Arm} {s t : State}

/-- The judgement of the bars in LEAVING moves none of them. -/
theorem State.judgeBars_on (h : s.Leaving) : State.LeavesOn False s s.judgeBars := by
  obtain ⟨spray, output⟩ := State.judgeBars_stands h.idle
  obtain ⟨settles, judged, -⟩ := State.judgeBars_spec s
  generalize s.judgeBars = t at *
  have unit : t.unit = s.unit := by rw [settles.rest]
  have gov : t.gov = s.gov := by rw [settles.rest]
  have arms : t.arms = s.arms := by rw [settles.rest]
  exact {
    leaving := ⟨by rw [unit]; exact h.mode, by rw [unit]; exact h.reached, by rw [spray]; exact h.bars, judged⟩
    acts := False.elim
    rests := fun _ => ⟨arms, fun src hs => settles.entries src (by simp) (by rintro rfl; simp at hs) (by rintro rfl; simp at hs),
      fun l => settles.events l _ (by simp) (by decide)⟩
    down := by rw [arms]
    asks := .inl ⟨unit, gov, settles.entries _ (by simp) (by decide) (by decide)⟩
    spray := spray
    above := fun _ _ => by rw [output]
    low := fun _ _ => by rw [output]
    owners := by rw [output]; exact ⟨fun _ => ⟨rfl, rfl, rfl⟩, rfl, rfl⟩
    entries := fun src hs => settles.entries src (by simp) (by rintro rfl; simp at hs) (by rintro rfl; simp at hs)
    events := fun l k _ hb => settles.events l k (by simp) hb
    masks := settles.masks
    alarms := settles.alarms
    tallies := fun x hx => settles.tallies x (by simp) hx
    rest := by
      have whole := settles.rest
      rw [spray] at whole
      rw [unit, gov, arms]
      exact whole }

theorem State.judgeArmEntries_other {src : Source} (hs : src ∉ [Source.armTransition, .armYield, .reverseArms]) (s : State) :
    s.judgeArmEntries.ceiling.sameEntry s.ceiling src := by
  simp only [List.mem_cons, List.not_mem_nil, or_false, not_or] at hs
  obtain ⟨transition, yields, reverse⟩ := hs
  unfold State.judgeArmEntries
  dsimp only
  exact CeilingTable.sameEntry_trans (CeilingTable.sameEntry_trans (State.keepEntry_other transition _ _ _)
    (State.keepEntry_other yields _ _ _)) (State.keepEntry_other reverse _ _ _)

/-- A mark that clears in LEAVING, with its report, before the unit and the bars take it (R97, R111). -/
theorem State.unmark_on (h : s.Leaving) (hs : (s.arm a).state = .stowed) :
    State.LeavesOn True s (((s.modArm a fun r => { r with pending := false }).judgeArmEntries).postBoth .armState) := by
  obtain ⟨x, hx⟩ : ∃ x, x = s.modArm a fun r => { r with pending := false } := ⟨_, rfl⟩
  have xArms : ∀ b, (x.arm b).state = (s.arm b).state := fun b => by
    rw [hx]
    by_cases hb : b = a
    · subst hb; rw [State.modArm_arm_same]
    · rw [State.modArm_arm_other hb]
  obtain ⟨judged, settles⟩ := State.judgeArmEntries_spec x
  have others := fun src hs => State.judgeArmEntries_other (src := src) hs x
  have spray : x.judgeArmEntries.spray = s.spray := by rw [hx]; simp
  have output : x.judgeArmEntries.output = s.output := by rw [hx]; simp
  rw [← hx]
  have e : ∀ y : State, (y.postBoth .armState).armEntriesJudged = y.armEntriesJudged := fun _ => rfl
  have events := State.postBoth_events .armState x.judgeArmEntries
  generalize x.judgeArmEntries = y at *
  have arms : y.arms = x.arms := by rw [settles.rest]
  have unit : y.unit = s.unit := by rw [settles.rest, hx]; rfl
  have gov : y.gov = s.gov := by rw [settles.rest, hx]; rfl
  have ceiling : x.ceiling = s.ceiling := by rw [hx]; rfl
  have notices : x.notices = s.notices := by rw [hx]; rfl
  have bank : x.bank = s.bank := by rw [hx]; rfl
  have masks := settles.masks
  have alarms := settles.alarms
  have tallies := settles.tallies
  have kinds := settles.events
  rw [ceiling] at others
  rw [notices] at masks alarms kinds
  rw [bank] at tallies
  exact {
    leaving := h.congr (t := y.postBoth .armState) (congrArg ModeUnit.mode unit) (congrArg ModeUnit.reached unit) spray fun src hsrc => by
      refine (others src ?_).1
      simp at hsrc; rcases hsrc with rfl | rfl <;> decide
    acts := fun _ => ⟨judged, State.postBoth_told .armState y⟩
    rests := fun hn => absurd trivial hn
    down := by
      have down : ∀ b, (y.arms.get b).state = (s.arms.get b).state := fun b => by
        rw [arms]; exact xArms b
      rw [Bool.eq_iff_iff, Arms.allDown_iff, Arms.allDown_iff]
      simp only [State.postBoth_frame, down]
    asks := .inl ⟨unit, gov, others _ (by decide)⟩
    spray := spray
    above := fun ch _ => congrArg (fun o : Output => o.channels[ch]) output
    low := fun ch _ => congrArg (fun o : Output => o.channels[ch]) output
    owners := by
      have same : (y.postBoth .armState).output = s.output := output
      rw [same]; exact ⟨fun _ => ⟨rfl, rfl, rfl⟩, rfl, rfl⟩
    entries := fun src hsrc => others src (by simp at hsrc ⊢; tauto)
    events := fun l k hk hb => by
      rw [events]
      exact EventSet.sameKind_trans (kinds l k (by simp) hb) ((EventSet.post_spec .armState _).2.2.2 k hk)
    masks := fun l => by rw [events]; exact (EventSet.post_spec .armState _).2.2.1.trans (masks l)
    alarms := alarms
    tallies := fun z hz => tallies z (by simp) hz
    rest := by
      have whole := settles.rest
      rw [spray, bank] at whole
      rw [show (y.postBoth .armState).unit = s.unit from unit, show (y.postBoth .armState).gov = s.gov from gov,
        show (y.postBoth .armState).arms = x.arms from arms]
      subst hx
      exact congrArg (fun z : State => { z with notices := (y.postBoth .armState).notices }) whole }

end

/-! ### One arm's raise (R10, R96, R97) -/

/-- A raise moves an arm: it is out, and not yet raising (R96). -/
def State.raises (a : Arm) (s : State) : Prop :=
  ¬((s.arm a).state = .stowed ∨ (s.arm a).state = .fault) ∧ (s.arm a).state ≠ .raising

/-- A raise at the arm clears its mark (R96). -/
def State.unmarks (a : Arm) (s : State) : Prop := (s.arm a).state = .stowed ∧ (s.arm a).pending = true

/-- The raise of one arm in LEAVING, from `s` to `t`. -/
structure State.RaiseTick (a : Arm) (s t : State) : Prop where
  run : State.LeavesOn (s.raises a ∨ s.unmarks a) s t
  raises : s.raises a → t.armPosted a ∧ t.arm a = { s.arm a with
    state := .raising, phase := none, pending := false, timer := some (later s.now s.program.raiseTime), rot := 0
    force := (t.arm a).force }
  stowed : (s.arm a).state = .stowed → t.arm a = { s.arm a with pending := false }
  stands : (s.arm a).state = .fault ∨ (s.arm a).state = .raising → t.arm a = s.arm a
  others : ∀ b, b ≠ a → t.arm b = s.arm b
  flags : t.arms = { s.arms with
    left := t.arms.left, right := t.arms.right, main := t.arms.main, holdDone := t.arms.holdDone }
  clears : a = .main → s.raises a → t.arms.holdDone = false
  holds : ¬(a = .main ∧ s.raises a) → t.arms.holdDone = s.arms.holdDone
  channels : ∀ ch : Channel, ch.val < 14 → armOfChannel ch ≠ some a ∨ ¬s.raises a →
    t.output.channels[ch] = s.output.channels[ch]

theorem Arms.eq_of_flags {x y : Arms} (lock : y.lock = x.lock) (cutSeen : y.cutSeen = x.cutSeen)
    (dryApplied : y.dryApplied = x.dryApplied) :
    y = { x with left := y.left, right := y.right, main := y.main, holdDone := y.holdDone } := by
  rw [← lock, ← cutSeen, ← dryApplied]

theorem State.raiseTick_raises {a : Arm} {s : State} (h : s.Leaving) (hr : s.raises a) :
    State.RaiseTick a s (s.startRaise a) := by
  obtain ⟨up, moving⟩ := hr
  obtain ⟨moves, record⟩ := State.startRaise_moves a s
  obtain ⟨v, hv⟩ : ∃ v : State, v = { s with arms := { s.arms with
    holdDone := if a = .main then false else s.arms.holdDone } } := ⟨_, rfl⟩
  have e : s.startRaise a = v.moveArm a fun r => { r with
      state := .raising, phase := none, pending := false, timer := some (later s.now s.program.raiseTime) } := by
    unfold State.startRaise
    rw [State.clearHoldDone_eq, hv]
  have state : ((s.startRaise a).arm a).state = .raising := by rw [record]
  have out : State.staysOut a v (s.startRaise a) := .inr (by rw [state]; decide)
  have water := State.moveArm_water (e ▸ out)
  rw [← e] at water
  rw [← hv] at moves
  have now : (s.startRaise a).now = s.now := moves.now.trans (by rw [hv]; rfl)
  generalize s.startRaise a = t at *
  have whole := moves.rest out
  have unit : t.unit = s.unit := by rw [whole, hv]
  have gov : t.gov = s.gov := by rw [whole, hv]
  have vSpray : v.spray = s.spray := by rw [hv]
  have vOutput : v.output = s.output := by rw [hv]
  have vCeiling : v.ceiling = s.ceiling := by rw [hv]
  have vNotices : v.notices = s.notices := by rw [hv]
  have vBank : v.bank = s.bank := by rw [hv]
  have vArm : ∀ b, v.arm b = s.arm b := fun b => by rw [hv]; cases b <;> rfl
  have idle : ∀ b, t.barMayBeActive b = false := State.barMayBeActive_of_mode (by rw [unit, h.mode]; decide)
  obtain ⟨spray, above⟩ := water.2.1 fun b => by rw [vSpray, idle]; exact h.bars b
  rw [vSpray] at spray
  have entries := moves.entries out
  have others := moves.others
  have channels := moves.channels
  have owners := moves.owners
  have cuts := moves.cuts
  have events := fun l k h1 h2 => moves.events l k h1 h2 (.inr out)
  have masks := moves.masks
  have alarms := moves.alarms
  have tallies := fun x hx => moves.tallies x hx (.inr out)
  obtain ⟨holdDone, lock, cutSeen, dryApplied⟩ := moves.flags
  rw [vOutput] at above channels owners cuts
  rw [vCeiling] at entries
  rw [vNotices] at events masks alarms
  rw [vBank] at tallies
  simp only [vArm] at others
  have hold : t.arms.holdDone = if a = .main then false else s.arms.holdDone := holdDone.trans (by rw [hv])
  have raised : s.raises a := ⟨up, moving⟩
  exact {
    run := {
      leaving := ⟨by rw [unit]; exact h.mode, by rw [unit]; exact h.reached, by rw [spray]; exact h.bars, moves.judged.2⟩
      acts := fun _ => ⟨moves.judged.1, fun l => (moves.told l).1⟩
      rests := fun hn => absurd (.inl raised) hn
      down := by
        have sUp : s.arms.allDown = false := Bool.eq_false_of_not_eq_true fun hd => up ((Arms.allDown_iff _).1 hd a)
        have tUp : t.arms.allDown = false := Bool.eq_false_of_not_eq_true fun hd => by
          have := (Arms.allDown_iff _).1 hd a
          rw [show (t.arms.get a).state = .raising from state] at this
          simp at this
        rw [sUp, tUp]
      asks := .inl ⟨unit, gov, entries _ (by decide)⟩
      spray := spray
      above := above
      low := fun ch hc => channels ch (hc.trans (by decide)) fun ho => by
        have := armOfChannel_bounds ho
        omega
      owners := ⟨owners, cuts⟩
      entries := fun src hs => entries src (by simp at hs ⊢; tauto)
      events := events
      masks := masks
      alarms := alarms
      tallies := tallies
      rest := by
        rw [spray, vBank] at whole
        rw [unit, gov]
        subst hv
        exact whole }
    raises := fun _ => ⟨moves.posted, by rw [← now]; exact record⟩
    stowed := fun hs => absurd (.inl hs) up
    stands := fun hs => absurd hs fun hs => hs.elim (fun hf => up (.inr hf)) moving
    others := others
    flags := by
      have lock : t.arms.lock = s.arms.lock := lock.trans (by rw [hv])
      have cutSeen : t.arms.cutSeen = s.arms.cutSeen := cutSeen.trans (by rw [hv])
      have dryApplied : t.arms.dryApplied = s.arms.dryApplied := dryApplied.trans (by rw [hv])
      exact Arms.eq_of_flags lock cutSeen dryApplied
    clears := fun ha _ => by rw [hold, if_pos ha]
    holds := fun hn => by rw [hold, if_neg fun ha => hn ⟨ha, raised⟩]
    channels := fun ch hc ho => channels ch hc (ho.resolve_right (not_not_intro raised)) }

/-- The mark of a stowed arm clears (R97). -/
theorem State.raiseTick_unmarks {a : Arm} {s : State} (h : s.Leaving) (hs : s.unmarks a) :
    State.RaiseTick a s (s.markPending a false) := by
  obtain ⟨stowed, pending⟩ := hs
  obtain ⟨own, others⟩ := State.markPending_arm a false s
  have arms := State.markPending_arms a false s
  have first := State.unmark_on h stowed
  obtain ⟨second, -, -, stands⟩ := State.leavingCheck_on first.leaving
  have third := State.judgeBars_on second.leaving
  have run := (first.trans second).trans third
  have e : s.markPending a false =
      ((((s.modArm a fun r => { r with pending := false }).judgeArmEntries).postBoth .armState).leavingCheck).judgeBars := rfl
  have output : (s.markPending a false).output = s.output := by
    rw [e, (State.judgeBars_stands second.leaving.idle).2, stands]
    simp
  rw [← e] at run
  have still : ¬s.raises a := fun hr => hr.1 (.inl stowed)
  generalize s.markPending a false = t at *
  exact {
    run := run.congr (by simp [State.unmarks, stowed, pending])
    raises := fun hr => absurd hr still
    stowed := fun _ => own
    stands := fun hn => by rw [stowed] at hn; simp at hn
    others := others
    flags := by rw [arms]; cases a <;> rfl
    clears := fun _ hr => absurd hr still
    holds := fun _ => by rw [arms]; cases a <;> rfl
    channels := fun ch _ _ => by rw [output] }

theorem State.raiseArm_tick {a : Arm} {s : State} (h : s.Leaving) : State.RaiseTick a s (s.raiseArm a) := by
  have rests (hn : ¬s.raises a) (hu : ¬s.unmarks a) (hp : (s.arm a).state = .stowed → (s.arm a).pending = false) :
      State.RaiseTick a s s := {
    run := (State.leavesOn_refl h).congr (by simp [hn, hu])
    raises := fun hr => absurd hr hn
    stowed := fun hs => by rw [← hp hs]
    stands := fun _ => rfl
    others := fun _ _ => rfl
    flags := rfl
    clears := fun _ hr => absurd hr hn
    holds := fun _ => rfl
    channels := fun _ _ _ => rfl }
  have out (e : s.raiseArm a = s.startRaise a) (hr : s.raises a) : State.RaiseTick a s (s.raiseArm a) := by
    rw [e]; exact State.raiseTick_raises h hr
  cases hs : (s.arm a).state with
  | lowering | working | yielding | jammed =>
    exact out (by simp only [State.raiseArm, hs]) ⟨by rw [hs]; decide, by rw [hs]; decide⟩
  | raising | fault =>
    have e : s.raiseArm a = s := by simp only [State.raiseArm, hs]
    rw [e]
    exact rests (fun hr => by simp [State.raises, hs] at hr) (fun hu => by simp [State.unmarks, hs] at hu)
      fun hn => by rw [hs] at hn; cases hn
  | stowed =>
    cases hp : (s.arm a).pending with
    | true =>
      have e : s.raiseArm a = s.markPending a false := by simp only [State.raiseArm, hs, hp, if_true]
      rw [e]; exact State.raiseTick_unmarks h ⟨hs, hp⟩
    | false =>
      have e : s.raiseArm a = s := by simp only [State.raiseArm, hs, hp, Bool.false_eq_true, if_false]
      rw [e]
      exact rests (fun hr => by simp [State.raises, hs] at hr) (fun hu => by simp [State.unmarks, hp] at hu) fun _ => hp

end Sys2Proof.Machine
end

section
/-! The end of a sweep as a whole (R8, R10): the mode LEAVING, the three raises, and the watch for the arms. -/

namespace Sys2Proof.Machine

/-- What the end of a sweep makes of one arm, from `u` to `t` (R96, R97). -/
structure State.ArmRaised (a : Arm) (u t : State) : Prop where
  raises : u.raises a → t.armPosted a ∧ t.arm a = { u.arm a with
    state := .raising, phase := none, pending := false, timer := some (later u.now u.program.raiseTime), rot := 0
    force := (t.arm a).force }
  stowed : (u.arm a).state = .stowed → t.arm a = { u.arm a with pending := false }
  stands : (u.arm a).state = .fault ∨ (u.arm a).state = .raising → t.arm a = u.arm a
  still : ¬u.raises a → ∀ ch : Channel, armOfChannel ch = some a → t.output.channels[ch] = u.output.channels[ch]

/-- The end of a sweep, from `u` to `t` (R8, R10). -/
structure State.EndsSweep (u t : State) : Prop where
  unit : t.unit = { u.unit with
    mode := .leaving, awaited := if t.unit.requested then some .transport else none
    requested := t.unit.requested, reached := false }
  requested : t.unit.requested = true ↔ u.arms.allDown = true
  asks : t.unit.requested = true →
    t.gov = { u.gov with requested := some .transport, shift := t.gov.shift, settle := t.gov.settle } ∧
    (u.gov.setRange = .work → t.gov.shift = .waiting ∧ t.gov.settle = none) ∧
    (u.gov.setRange = .transport → t.gov.settle = u.gov.settle ∧
      t.gov.shift = if u.gov.settle.isSome = true then u.gov.shift else .none) ∧
    (t.ceiling.entry .rangeShift).active = true ∧ (t.ceiling.entry .rangeShift).cap = u.settings.caps.shiftSpeed
  waits : t.unit.requested = false → t.gov = u.gov ∧ t.ceiling.sameEntry u.ceiling .rangeShift
  arm : ∀ a, State.ArmRaised a u t
  flags : t.arms = { u.arms with
    left := t.arms.left, right := t.arms.right, main := t.arms.main, holdDone := t.arms.holdDone }
  clears : u.raises .main → t.arms.holdDone = false
  holds : ¬u.raises .main → t.arms.holdDone = u.arms.holdDone
  acts : (∃ a, u.raises a ∨ u.unmarks a) → t.armEntriesJudged ∧ t.told .armState
  rests : (¬∃ a, u.raises a ∨ u.unmarks a) →
    (∀ src ∈ [Source.armTransition, .armYield, .reverseArms], t.ceiling.sameEntry u.ceiling src) ∧
    ∀ l : Link, (t.notices.events l).sameKind (u.notices.events l) .armState
  bars : ∀ b, (t.spray.bar b).active = false
  judged : t.barsJudged
  settled : State.barsSettled u t
  spray : t.spray = { u.spray with
    left := t.spray.left, right := t.spray.right, main := t.spray.main, duty := t.spray.duty, dryCount := t.spray.dryCount }
  water : ∀ b, (t.spray.bar b).enable = (u.spray.bar b).enable ∧ (t.spray.bar b).valveFault = (u.spray.bar b).valveFault
  low : ∀ ch : Channel, ch.val < 3 → t.output.channels[ch] = u.output.channels[ch]
  owners : u.output.sameOwners t.output
  cap : (t.ceiling.entry .mode).cap = min u.program.workMax u.settings.caps.transportMax
  entries : ∀ src : Source, src ∉ [Source.mode, .rangeShift, .armTransition, .armYield, .reverseArms, .sprayLimit,
    .drySweep] → t.ceiling.sameEntry u.ceiling src
  once : u.postedOnce .modeChanged t
  events : ∀ (l : Link) (k : EventKind), k ∉ [EventKind.modeChanged, .armState, .ceilingBinding] →
    (t.notices.events l).sameKind (u.notices.events l) k
  masks : ∀ l : Link, (t.notices.events l).mask = (u.notices.events l).mask
  alarms : t.notices.alarms = u.notices.alarms
  tallies : ∀ x : Tally, x ≠ .urgentStops → t.bank.tallies[x.index] = u.bank.tallies[x.index]
  rest : t = { u with
    unit := t.unit, gov := t.gov, ceiling := t.ceiling, arms := t.arms, spray := t.spray, output := t.output
    notices := t.notices, bank := { u.bank with tallies := t.bank.tallies } }

section
variable {a : Arm} {s t u x y : State}

/-- What is posted for a raising arm: its coils, and no rotation or force. -/
theorem State.armPosted_raising (h : (t.arm a).state = .raising) :
    t.armPosted a ↔ t.output.channels[a.lift].setpoint = 1 ∧ t.output.channels[a.lower].setpoint = 0 ∧
      t.output.channels[a.motor].setpoint = 0 ∧ (t.arm a).rot = 0 ∧
      ∀ ch, a.force = some ch → t.output.channels[ch].setpoint = 0 ∧ (t.arm a).force = 0 := by
  unfold State.armPosted
  dsimp only
  rw [h]
  have rests : ¬(ArmState.raising = .lowering ∨ ArmState.raising = .working) ∧ ArmState.raising ≠ .yielding := by decide
  have down : ¬((ArmState.raising = .lowering ∨ ArmState.raising = .working) ∨ ArmState.raising = .jammed ∨
      ArmState.raising = .yielding ∧ (t.arm a).phase = some .settle) := by simp
  constructor
  · rintro ⟨lift, -, lower, off, -, motor, force⟩
    exact ⟨lift.2 (.inl rfl), off.resolve_right fun hl => down (lower.1 hl), (motor rests).1, (motor rests).2,
      fun ch hc => (force ch hc).2 rests.1⟩
  · rintro ⟨lift, lower, motor, rot, force⟩
    exact ⟨⟨fun _ => .inl rfl, fun _ => lift⟩, .inr lift,
      ⟨fun hl => absurd (lower.symm.trans hl) (by decide), fun hn => absurd hn down⟩, .inl lower,
      fun hn => absurd hn (by decide), fun _ => ⟨motor, rot⟩,
      fun ch hc => ⟨fun hn => absurd hn rests.1, fun _ => force ch hc⟩⟩

theorem State.armPosted_raising_congr (h : (x.arm a).state = .raising) (hp : x.armPosted a) (arm : t.arm a = x.arm a)
    (own : ∀ ch, armOfChannel ch = some a → t.output.channels[ch] = x.output.channels[ch]) : t.armPosted a := by
  obtain ⟨motor, lift, lower, force⟩ := Arm.channels_own a
  rw [State.armPosted_raising (by rw [arm]; exact h), own _ motor, own _ lift, own _ lower, arm]
  obtain ⟨hl, hd, hm, hr, hf⟩ := (State.armPosted_raising h).1 hp
  exact ⟨hl, hd, hm, hr, fun ch hc => by rw [own ch (force ch hc)]; exact hf ch hc⟩

theorem State.raises_congr (h : x.arm a = u.arm a) : x.raises a ↔ u.raises a := by
  unfold State.raises; rw [h]

theorem State.unmarks_congr (h : x.arm a = u.arm a) : x.unmarks a ↔ u.unmarks a := by
  unfold State.unmarks; rw [h]

/-- An arm's raise, from its tick and from what stands before and after it. -/
theorem State.RaiseTick.part (h : State.RaiseTick a x y) (now : x.now = u.now) (program : x.program = u.program)
    (arm : x.arm a = u.arm a) (own : ∀ ch, armOfChannel ch = some a → x.output.channels[ch] = u.output.channels[ch])
    (arm' : t.arm a = y.arm a) (own' : ∀ ch, armOfChannel ch = some a → t.output.channels[ch] = y.output.channels[ch]) :
    State.ArmRaised a u t := by
  have same := State.raises_congr arm
  refine ⟨fun hr => ?_, fun hs => ?_, fun hs => ?_, fun hn ch hc => ?_⟩
  · obtain ⟨posted, record⟩ := h.raises (same.2 hr)
    refine ⟨State.armPosted_raising_congr (by rw [record]) posted arm' own', ?_⟩
    rw [arm', ← now, ← program, ← arm]
    exact record
  · rw [arm', ← arm]; exact h.stowed (by rw [arm]; exact hs)
  · rw [arm', ← arm]; exact h.stands (by rw [arm]; exact hs)
  · rw [own' ch hc, ← own ch hc]
    exact h.channels ch (armOfChannel_bounds hc).2 (.inr fun hr => hn (same.1 hr))

theorem State.LeavesOn.now {m : Prop} (h : State.LeavesOn m s t) : t.now = s.now := by
  unfold State.now; rw [h.rest]

theorem State.LeavesOn.program {m : Prop} (h : State.LeavesOn m s t) : t.program = s.program := by
  have unit : t.unit.slots = s.unit.slots ∧ t.unit.active = s.unit.active := by
    rcases h.asks with ⟨unit, -⟩ | ⟨-, -, asked⟩
    · rw [unit]; exact ⟨rfl, rfl⟩
    · rw [asked.unit]; exact ⟨rfl, rfl⟩
  unfold State.program State.inForce
  rw [unit.1, unit.2]

/-- The three raises of LEAVING in their order, from `x` to `y`, with what each arm comes to. -/
theorem State.raises_run (h : x.Leaving) :
    let y := Arm.all.foldl (fun s a => s.raiseArm a) x
    State.LeavesOn (∃ a, x.raises a ∨ x.unmarks a) x y ∧ (∀ a, State.ArmRaised a x y) ∧
    y.arms = { x.arms with left := y.arms.left, right := y.arms.right, main := y.arms.main, holdDone := y.arms.holdDone } ∧
    (x.raises .main → y.arms.holdDone = false) ∧ (¬x.raises .main → y.arms.holdDone = x.arms.holdDone) := by
  intro t
  obtain ⟨y, hy⟩ : ∃ y, y = x.raiseArm .left := ⟨_, rfl⟩
  obtain ⟨z, hz⟩ : ∃ z, z = y.raiseArm .right := ⟨_, rfl⟩
  have e : t = z.raiseArm .main := by rw [hz, hy]; rfl
  clear_value t
  have first : State.RaiseTick .left x y := hy ▸ State.raiseArm_tick h
  have second : State.RaiseTick .right y z := hz ▸ State.raiseArm_tick first.run.leaving
  have third : State.RaiseTick .main z t := e ▸ State.raiseArm_tick second.run.leaving
  clear e hy hz
  have yFlags := first.flags
  have zFlags := second.flags
  have tFlags := third.flags
  have zMain : z.arm .main = x.arm .main := (second.others _ (by decide)).trans (first.others _ (by decide))
  have yHold := first.holds (by simp)
  have zHold := second.holds (by simp)
  have own (b : Arm) {p q : State} (tick : State.RaiseTick b p q) (c : Arm) (hn : c ≠ b) (ch : Channel)
      (hc : armOfChannel ch = some c) : q.output.channels[ch] = p.output.channels[ch] :=
    tick.channels ch (armOfChannel_bounds hc).2 (.inl (armOfChannel_ne hc hn))
  have same := State.raises_congr zMain
  refine ⟨((first.run.trans second.run).trans third.run).congr ?_, fun b => ?_, ?_, fun hr => ?_, fun hn => ?_⟩
  · rw [State.raises_congr (first.others .right (by decide)), State.unmarks_congr (first.others .right (by decide)),
      same, State.unmarks_congr zMain]
    constructor
    · rintro ((h | h) | h) <;> exact ⟨_, h⟩
    · rintro ⟨a, h⟩
      cases a
      · exact .inl (.inl h)
      · exact .inl (.inr h)
      · exact .inr h
  · cases b with
    | left =>
      exact first.part rfl rfl rfl (fun _ _ => rfl)
        ((third.others _ (by decide)).trans (second.others _ (by decide)))
        fun ch hc => (own .main third .left (by decide) ch hc).trans (own .right second .left (by decide) ch hc)
    | right =>
      exact second.part first.run.now first.run.program (first.others _ (by decide))
        (own .left first .right (by decide)) (third.others _ (by decide)) (own .main third .right (by decide))
    | main =>
      exact third.part (second.run.now.trans first.run.now) (second.run.program.trans first.run.program) zMain
        (fun ch hc => (own .right second .main (by decide) ch hc).trans (own .left first .main (by decide) ch hc))
        rfl fun _ _ => rfl
  · exact Arms.eq_of_flags (by rw [tFlags, zFlags, yFlags]) (by rw [tFlags, zFlags, yFlags]) (by rw [tFlags, zFlags, yFlags])
  · exact third.clears rfl (same.2 hr)
  · exact (third.holds fun hr => hn (same.1 hr.2)).trans (zHold.trans yHold)

/-- The whole of LEAVING after the change of the mode: the raises and the watch. -/
theorem State.leaves_run (h : x.Leaving) (hr : x.unit.requested = false) :
    let t := (Arm.all.foldl (fun s a => s.raiseArm a) x).leavingCheck
    State.LeavesOn (∃ a, x.raises a ∨ x.unmarks a) x t ∧ (∀ a, State.ArmRaised a x t) ∧
    t.arms = { x.arms with left := t.arms.left, right := t.arms.right, main := t.arms.main, holdDone := t.arms.holdDone } ∧
    (x.raises .main → t.arms.holdDone = false) ∧ (¬x.raises .main → t.arms.holdDone = x.arms.holdDone) ∧
    (t.unit.requested = true ↔ x.arms.allDown = true) := by
  intro t
  obtain ⟨run, part, flags, clears, holds⟩ := State.raises_run h
  generalize hy : Arm.all.foldl (fun s a => s.raiseArm a) x = y at *
  obtain ⟨check, asks, -, output⟩ := State.leavingCheck_on run.leaving
  have e : t = y.leavingCheck := by rw [← hy]
  rw [← e] at check asks output
  clear_value t
  obtain ⟨arms, -⟩ := check.rests id
  have whole := (run.trans check).congr (iff_of_eq (or_false _))
  have arm : ∀ a, t.arm a = y.arm a := fun a => by unfold State.arm; rw [arms]
  refine ⟨whole, fun a => ?_, by rw [arms]; exact flags, by rw [arms]; exact clears, by rw [arms]; exact holds, fun hq => ?_,
    fun hd => asks (run.down ▸ hd)⟩
  · obtain ⟨raises, stowed, stands, still⟩ := part a
    refine ⟨fun hr => ?_, by rw [arm]; exact stowed, by rw [arm]; exact stands, by rw [output]; exact still⟩
    obtain ⟨posted, record⟩ := raises hr
    exact ⟨State.armPosted_raising_congr (by rw [record]) posted (arm a) fun _ _ => by rw [output], by rw [arm]; exact record⟩
  · rcases whole.asks with ⟨unit, -⟩ | ⟨down, -⟩
    · rw [unit, hr] at hq; cases hq
    · exact down

/-- SWEEP and ENTERING are left for LEAVING, before the arms (R8, R117). -/
theorem State.setMode_leaving (s : State) (hr : s.unit.reached = false) : (s.setMode .leaving).Leaving := by
  obtain ⟨settles, -, judged⟩ := State.setMode_spec .leaving s
  generalize s.setMode .leaving = t at *
  have unit : t.unit = { s.unit with mode := .leaving } := by rw [settles.rest]
  exact ⟨by rw [unit], by rw [unit]; exact hr,
    fun b => by rw [judged.1, State.barMayBeActive_of_mode (by rw [unit]; exact Mode.noConfusion)], judged⟩

theorem State.enterLeaving_ends (u : State) : State.EndsSweep u u.enterLeaving := by
  obtain ⟨w, hw⟩ : ∃ w : State, w = u.modUnit fun y => { y with awaited := none, requested := false, reached := false } := ⟨_, rfl⟩
  have e : u.enterLeaving = (Arm.all.foldl (fun s a => s.raiseArm a) (w.setMode .leaving)).leavingCheck := by
    rw [hw]; rfl
  have leaving := State.setMode_leaving w (by rw [hw]; rfl)
  obtain ⟨settles, cap, -⟩ := State.setMode_spec .leaving w
  obtain ⟨once, settled⟩ := State.setMode_once .leaving w
  rw [e]
  generalize w.setMode .leaving = x at *
  have first := settles.rest
  have xUnit : x.unit = { u.unit with mode := .leaving, awaited := none, requested := false, reached := false } := by
    rw [first, hw]; rfl
  have run := State.leaves_run leaving (by rw [xUnit])
  generalize (Arm.all.foldl (fun s a => s.raiseArm a) x).leavingCheck = t at *
  obtain ⟨run, part, flags, clears, holds, requested⟩ := run
  have xGov : x.gov = u.gov := by rw [first, hw]; rfl
  have xArms : x.arms = u.arms := by rw [first, hw]; rfl
  have xSettings : x.settings = u.settings := by rw [first, hw]; rfl
  have xNow : x.now = u.now := by unfold State.now; rw [first, hw]; rfl
  have xProgram : x.program = u.program := by unfold State.program State.inForce; rw [xUnit]
  have xArm : ∀ a, x.arm a = u.arm a := fun a => by unfold State.arm; rw [xArms]
  have wOutput : w.output = u.output := by rw [hw]; rfl
  have wSpray : w.spray = u.spray := by rw [hw]; rfl
  have wCeiling : w.ceiling = u.ceiling := by rw [hw]; rfl
  have wNotices : w.notices = u.notices := by rw [hw]; rfl
  have wBank : w.bank = u.bank := by rw [hw]; rfl
  have low := settles.channels
  have owners := settles.owners
  have cuts := settles.cuts
  have water := settles.bars
  have tank := settles.tank
  have entries := settles.entries
  have events := settles.events
  have masks := settles.masks
  have alarms := settles.alarms
  have tallies := settles.tallies
  simp only [wOutput, wSpray, wCeiling, wNotices, wBank] at low owners cuts water tank entries events masks alarms tallies
  have acted : (∃ a, x.raises a ∨ x.unmarks a) ↔ ∃ a, u.raises a ∨ u.unmarks a :=
    exists_congr fun a => or_congr (State.raises_congr (xArm a)) (State.unmarks_congr (xArm a))
  have down : x.arms.allDown = u.arms.allDown := by rw [xArms]
  have tUnit : t.unit = { u.unit with
      mode := .leaving, awaited := if t.unit.requested then some .transport else none
      requested := t.unit.requested, reached := false } := by
    rcases run.asks with ⟨unit, -⟩ | ⟨-, -, asked⟩
    · rw [unit, xUnit]; rfl
    · rw [asked.unit, xUnit]; rfl
  have tSpray := run.spray
  exact {
    unit := tUnit
    requested := requested.trans (by rw [down])
    asks := fun hq => by
      rcases run.asks with ⟨unit, -⟩ | ⟨-, -, asked⟩
      · rw [unit, xUnit] at hq; cases hq
      · have gov := asked.gov
        have waits := asked.waits
        have stands := asked.stands
        have capped := asked.cap
        rw [xGov] at gov waits stands
        rw [xSettings] at capped
        exact ⟨gov, waits, stands, asked.active, capped⟩
    waits := fun hq => by
      rcases run.asks with ⟨-, gov, entry⟩ | ⟨-, -, asked⟩
      · exact ⟨gov.trans xGov, CeilingTable.sameEntry_trans (entries _ (by decide) (by decide) (by decide)) entry⟩
      · rw [asked.unit] at hq; cases hq
    arm := fun a => by
      obtain ⟨raises, stowed, stands, still⟩ := part a
      rw [State.raises_congr (xArm a), xArm, xNow, xProgram] at raises
      rw [xArm] at stowed stands
      rw [State.raises_congr (xArm a)] at still
      exact ⟨raises, stowed, stands, fun hn ch hc => (still hn ch hc).trans (low ch (armOfChannel_bounds hc).2)⟩
    flags := by rw [← xArms]; exact flags
    clears := fun hr => clears ((State.raises_congr (xArm _)).2 hr)
    holds := fun hn => (holds fun hr => hn ((State.raises_congr (xArm _)).1 hr)).trans (by rw [xArms])
    acts := fun ha => run.acts (acted.2 ha)
    rests := fun hn => by
      obtain ⟨-, kept, posted⟩ := run.rests fun ha => hn (acted.1 ha)
      exact ⟨fun src hs => CeilingTable.sameEntry_trans
          (entries src (by simp at hs ⊢; rcases hs with rfl | rfl | rfl <;> decide)
            (by rintro rfl; simp at hs) (by rintro rfl; simp at hs)) (kept src hs),
        fun l => EventSet.sameKind_trans (events l _ (by decide) (by decide)) (posted l)⟩
    bars := run.leaving.bars
    judged := run.leaving.judged
    settled := State.barsSettled_congr settled wSpray.symm wOutput.symm (by rw [hw]; rfl) tSpray run.above
    spray := by
      rw [tSpray]
      exact Spray.eq_of_tank tank
    water := fun b => by rw [tSpray]; exact ⟨(water b).1, (water b).2.1⟩
    low := fun ch hc => (run.low ch hc).trans (low ch (by omega))
    owners := Output.sameOwners_trans ⟨owners, cuts⟩ run.owners
    cap := by
      have mode := (run.entries .mode (by decide)).2.1
      rw [mode, cap, hw]
      rfl
    entries := fun src hs => by
      simp only [List.mem_cons, List.not_mem_nil, or_false, not_or] at hs
      obtain ⟨mode, shift, transition, yields, reverse, limit, dry⟩ := hs
      exact CeilingTable.sameEntry_trans (entries src (by simp [mode]) limit dry)
        (run.entries src (by simp [shift, transition, yields, reverse, limit, dry]))
    once := fun l => by
      obtain ⟨told, counted⟩ := once l
      obtain ⟨told', counted'⟩ := run.events l .modeChanged (by decide) (by decide)
      rw [wNotices] at counted
      exact ⟨told'.trans told, counted'.trans counted⟩
    events := fun l k hk => by
      simp only [List.mem_cons, List.not_mem_nil, or_false, not_or] at hk
      exact EventSet.sameKind_trans (events l k (by simp [hk.1]) hk.2.2) (run.events l k hk.2.1 hk.2.2)
    masks := fun l => (run.masks l).trans (masks l)
    alarms := run.alarms.trans alarms
    tallies := fun z hz => (run.tallies z hz).trans (tallies z (by simp) hz)
    rest := by
      have second : t = { x with
          unit := t.unit, gov := t.gov, ceiling := t.ceiling, arms := t.arms, spray := t.spray, output := t.output
          notices := t.notices, bank := { x.bank with tallies := t.bank.tallies } } := by rw [tSpray]; exact run.rest
      have bank : x.bank = { u.bank with tallies := x.bank.tallies } := by rw [first, ← wBank]
      rw [bank, first] at second
      subst hw
      exact second }

end

end Sys2Proof.Machine
end

section
/-! SWEEP_END from a body link that becomes LIVE with that very frame (R55, R184). -/

namespace Sys2Proof.Machine

/-- ENTERING with the body link still WAITING, its loss entry active as after reset (R55, R183). -/
def enteringUnheard : State := { State.reset with unit := { State.reset.unit with mode := .entering } }

/-- A first frame of the body link. -/
def firstBodyFrame : Head := { link := .body, tag := 0, live := 0, after := 0 }

theorem enteringUnheard_passes : enteringUnheard.passes firstBodyFrame 9 := ⟨rfl, by decide⟩

/-- The frame makes the body link LIVE, and its loss entry inactive (R55). -/
theorem enteringUnheard_taken :
    ((enteringUnheard.taken firstBodyFrame).ceiling.entry .bodyLoss).active = false := by decide

/-- Refutes O20: the frame of a SWEEP_END that is the first of its body link makes that link LIVE, which deactivates BODY_LOSS
(R55); the obligation has every entry beyond its list as it stood before the frame. All else that it says of the end of a sweep is
`State.enterLeaving_ends`, from the state in which the request is taken. -/
theorem not_sweepStartsAndEnds : ¬ Obligations.SweepStartsAndEnds := by
  intro holds
  have hp := enteringUnheard_passes
  obtain ⟨t, taken, claimed⟩ := ((holds firstBodyFrame enteringUnheard).2 hp).2 rfl (.inl rfl)
  have entries : ∀ src, src ∉ [Source.mode, .rangeShift, .armTransition, .armYield, .reverseArms, .sprayLimit, .drySweep] →
      t.ceiling.sameEntry enteringUnheard.ceiling src := by
    obtain ⟨-, -, -, -, -, -, -, -, -, -, -, -, -, -, -, -, -, -, -, -, entries, -⟩ := claimed
    exact entries
  have ends := State.enterLeaving_ends (enteringUnheard.taken firstBodyFrame)
  clear claimed holds
  have same : exec (.sweepEnd firstBodyFrame) enteringUnheard =
      .next ((enteringUnheard.taken firstBodyFrame).enterLeaving.answered firstBodyFrame 9 .accepted []) :=
    congrArg Host.Outcome.next (State.serve_eq_answered hp rfl)
  have answers : t.answered firstBodyFrame 9 .accepted [] =
      (enteringUnheard.taken firstBodyFrame).enterLeaving.answered firstBodyFrame 9 .accepted [] :=
    Host.Outcome.next.inj (taken.symm.trans same)
  have ceiling : t.ceiling = (enteringUnheard.taken firstBodyFrame).enterLeaving.ceiling := by
    have answered := congrArg (fun x : State => x.ceiling) answers
    exact answered
  have stands := (entries .bodyLoss (by decide)).1
  rw [ceiling, (ends.entries .bodyLoss (by decide)).1, enteringUnheard_taken] at stands
  exact absurd stands (by decide)

end Sys2Proof.Machine
end

section
/-! The loss of a link in its parts (R185): what every loss brings first and last, and what the loss of the body link brings between. -/

namespace Sys2Proof.Machine

/-! ### First: the claim, and DIRECT on the channels that the link holds (R20, R172) -/

/-- What the blocks do first at the report of a loss. -/
def State.lossFirst (l : Link) (s : State) : State :=
  (if s.unit.staging.any fun g => g.holder == l then s.lapseClaim else s).endDirectWhere fun h => h == l

/-- The first part of a loss, from `v` to `w`. -/
structure State.LossFirst (l : Link) (v w : State) : Prop where
  unit : w.unit = { v.unit with staging := v.unit.staging.filter fun g => g.holder != l }
  other : w.notices.events l.other = v.notices.events l.other
  kinds : ∀ k, k ≠ .claimLapsed → (w.notices.events l).sameKind (v.notices.events l) k
  mask : (w.notices.events l).mask = (v.notices.events l).mask
  told : ∀ g, v.unit.staging = some g → g.holder = l →
    (w.notices.events l).pending.getLsbD (EventKind.index .claimLapsed) = true
  alarms : w.notices.alarms = v.notices.alarms
  fault : ∀ ch : Channel, w.output.channels[ch].fault = v.output.channels[ch].fault
  holder : ∀ ch : Channel, w.output.channels[ch].holder = v.output.channels[ch].holder.filter fun k => k != l
  free : ∀ ch : Channel, v.output.channels[ch].holder ≠ some l → w.output.channels[ch] = v.output.channels[ch]
  held : ∀ ch : Channel, v.output.channels[ch].holder = some l →
    w.output.channels[ch].level = 0 ∧ w.output.channels[ch].setpoint = v.output.channels[ch].setpoint
  rest : w = { v with unit := w.unit, notices := w.notices, output := w.output }

theorem State.LossFirst.events {l : Link} {v w : State} (h : State.LossFirst l v w) (k : Link) {x : EventKind}
    (hx : x ≠ .claimLapsed) : (w.notices.events k).sameKind (v.notices.events k) x := by
  by_cases hk : k = l
  · subst hk; exact h.kinds x hx
  · rw [Link.ne_iff_eq_other.1 hk, h.other]; exact ⟨rfl, rfl⟩

theorem State.LossFirst.masks {l : Link} {v w : State} (h : State.LossFirst l v w) (k : Link) :
    (w.notices.events k).mask = (v.notices.events k).mask := by
  by_cases hk : k = l
  · subst hk; exact h.mask
  · rw [Link.ne_iff_eq_other.1 hk, h.other]

/-- A claim of the lost link lapses (R20). -/
theorem State.lossClaim_spec (l : Link) (v : State) :
    let w := if v.unit.staging.any fun g => g.holder == l then v.lapseClaim else v
    w.unit = { v.unit with staging := v.unit.staging.filter fun g => g.holder != l } ∧
    w.notices.events l.other = v.notices.events l.other ∧
    (∀ k, k ≠ .claimLapsed → (w.notices.events l).sameKind (v.notices.events l) k) ∧
    (w.notices.events l).mask = (v.notices.events l).mask ∧
    (∀ g, v.unit.staging = some g → g.holder = l →
      (w.notices.events l).pending.getLsbD (EventKind.index .claimLapsed) = true) ∧
    w.notices.alarms = v.notices.alarms ∧ w = { v with unit := w.unit, notices := w.notices } := by
  intro w
  cases hg : v.unit.staging with
  | none =>
    have e : w = v := by simp only [w, hg]; rfl
    clear_value w
    subst e
    exact ⟨by rw [Option.filter_none, ← hg], rfl, fun _ _ => ⟨rfl, rfl⟩, rfl, (fun g h => nomatch h), rfl, rfl⟩
  | some g =>
    by_cases hl : g.holder = l
    · have e : w = (v.modUnit fun u => { u with staging := none }).post .claimLapsed l := by
        subst hl
        simp [w, hg, State.lapseClaim]
      clear_value w
      have own := State.post_events .claimLapsed l l (v.modUnit fun u => { u with staging := none })
      have other := State.post_events .claimLapsed l l.other (v.modUnit fun u => { u with staging := none })
      rw [if_pos rfl, ← e] at own
      rw [if_neg (by cases l <;> decide), ← e] at other
      have posted := EventSet.post_spec .claimLapsed (v.notices.events l)
      have own : w.notices.events l = (v.notices.events l).post .claimLapsed := own
      refine ⟨?_, other, by rw [own]; exact posted.2.2.2, by rw [own]; exact posted.2.2.1,
        fun _ _ _ => by rw [own]; exact posted.1, by rw [e]; exact State.post_alarms _ _ _, by rw [e]; rfl⟩
      rw [e, Option.filter_some, if_neg (by simp [hl])]
      rfl
    · have e : w = v := by simp [w, hg, hl]
      clear_value w
      subst e
      refine ⟨by rw [Option.filter_some, if_pos (by simp [hl]), ← hg], rfl, fun _ _ => ⟨rfl, rfl⟩, rfl, fun g' hg' hl' => ?_, rfl, rfl⟩
      cases hg'
      exact absurd hl' hl

theorem State.lossFirst_spec (l : Link) (v : State) : State.LossFirst l v (v.lossFirst l) := by
  obtain ⟨unit, other, kinds, mask, told, alarms, rest⟩ := State.lossClaim_spec l v
  unfold State.lossFirst
  generalize (if v.unit.staging.any fun g => g.holder == l then v.lapseClaim else v) = x at *
  obtain ⟨channels, -, -, whole⟩ := State.endDirectWhere_spec (fun h => h == l) x
  generalize x.endDirectWhere (fun h => h == l) = w at *
  have out : x.output = v.output := by rw [rest]
  have notices : w.notices = x.notices := by rw [whole]
  have wUnit : w.unit = x.unit := by rw [whole]
  rw [out] at channels
  refine ⟨wUnit.trans unit, by rw [notices]; exact other, by rw [notices]; exact kinds, by rw [notices]; exact mask,
    by rw [notices]; exact told, by rw [notices]; exact alarms, fun ch => ?_, fun ch => ?_, fun ch hc => ?_, fun ch hc => ?_, ?_⟩
  · rw [channels ch]; split <;> rfl
  · rw [channels ch]
    cases hh : v.output.channels[ch].holder with
    | none => rw [if_neg (by simp), hh]; rfl
    | some k =>
      by_cases hk : k = l
      · rw [if_pos (by simp [hk]), hk, Option.filter_some, if_neg (by simp)]; rfl
      · rw [if_neg (by simp [hk]), hh, Option.filter_some, if_pos (by simp [hk])]
  · rw [channels ch, if_neg]
    intro hp
    obtain ⟨k, hk, hp⟩ := (Option.any_eq_true _ _).1 hp
    exact hc (by rw [hk, beq_iff_eq.1 hp])
  · rw [channels ch, if_pos (by rw [hc]; simp)]
    exact ⟨rfl, rfl⟩
  · rw [wUnit, notices, whole, rest]

/-! ### Last: the restart window, the alarm, PEER_LOST and the count (R185, R187) -/

/-- What the port does last at a loss. -/
def State.lossLast (l : Link) (s : State) : State :=
  let s := if s.links.window.any fun w => w.holder == l then s.lapseWindow else s
  ((s.raiseAlarm (lossAlarm l) 0).postBoth .peerLost).bump (.linkLosses l)

/-- The last part of a loss, from `w` to `t`. -/
structure State.LossLast (l : Link) (w t : State) : Prop where
  links : t.links = { w.links with window := w.links.window.filter fun x => x.holder != l }
  raises : State.Raises (lossAlarm l) 0 w t
  peer : w.postedOnce .peerLost t
  told : ∀ x, w.links.window = some x → x.holder = l →
    (t.notices.events l).pending.getLsbD (EventKind.index .restartLapsed) = true
  other : (t.notices.events l.other).sameKind (w.notices.events l.other) .restartLapsed
  events : ∀ (k : Link) (x : EventKind), x ∉ [EventKind.peerLost, .alarmRaised, .restartLapsed] →
    (t.notices.events k).sameKind (w.notices.events k) x
  masks : ∀ k : Link, (t.notices.events k).mask = (w.notices.events k).mask
  counted : t.bank.tallies[Tally.index (.linkLosses l)] = min 255 (w.bank.tallies[Tally.index (.linkLosses l)] + 1)
  tallies : ∀ x : Tally, x ∉ [Tally.linkLosses l, .overflows] → t.bank.tallies[x.index] = w.bank.tallies[x.index]
  rest : t = { w with links := t.links, notices := t.notices, bank := { w.bank with tallies := t.bank.tallies } }

/-- The lost link's restart window lapses, told to it alone (R187). -/
theorem State.lossWindow_spec (l : Link) (w : State) :
    let v := if w.links.window.any fun x => x.holder == l then w.lapseWindow else w
    v.links = { w.links with window := w.links.window.filter fun x => x.holder != l } ∧
    v.notices.events l.other = w.notices.events l.other ∧
    (∀ k, k ≠ .restartLapsed → (v.notices.events l).sameKind (w.notices.events l) k) ∧
    (v.notices.events l).mask = (w.notices.events l).mask ∧
    (∀ x, w.links.window = some x → x.holder = l →
      (v.notices.events l).pending.getLsbD (EventKind.index .restartLapsed) = true) ∧
    v.notices.alarms = w.notices.alarms ∧ v = { w with links := v.links, notices := v.notices } := by
  intro v
  cases hx : w.links.window with
  | none =>
    have e : v = w := by simp only [v, hx]; rfl
    clear_value v
    subst e
    exact ⟨by rw [Option.filter_none, ← hx], rfl, fun _ _ => ⟨rfl, rfl⟩, rfl, (fun g h => nomatch h), rfl, rfl⟩
  | some x =>
    by_cases hl : x.holder = l
    · have e : v = w.lapseWindow := by simp [v, hx, hl]
      clear_value v
      obtain ⟨links, own, other, alarms, rest⟩ := State.lapseWindow_open hx
      rw [← e] at links own other alarms rest
      subst hl
      have posted := EventSet.post_spec .restartLapsed (w.notices.events x.holder)
      refine ⟨?_, other, by rw [own]; exact posted.2.2.2, by rw [own]; exact posted.2.2.1,
        fun _ _ _ => by rw [own]; exact posted.1, alarms, rest⟩
      rw [links, Option.filter_some, if_neg (by simp)]
    · have e : v = w := by simp [v, hx, hl]
      clear_value v
      subst e
      refine ⟨by rw [Option.filter_some, if_pos (by simp [hl]), ← hx], rfl, fun _ _ => ⟨rfl, rfl⟩, rfl, fun g' hg' hl' => ?_, rfl, rfl⟩
      cases hg'
      exact absurd hl' hl

theorem State.lossLast_spec (l : Link) (w : State) : State.LossLast l w (w.lossLast l) := by
  obtain ⟨links, other, kinds, mask, told, alarms, rest⟩ := State.lossWindow_spec l w
  unfold State.lossLast
  dsimp only
  generalize (if w.links.window.any fun x => x.holder == l then w.lapseWindow else w) = v at *
  have raises := State.raiseAlarm_raises (lossAlarm l) 0 v
  have events := State.raiseAlarm_events (lossAlarm l) 0 v
  have tallies := State.raiseAlarm_tallies (lossAlarm l) 0 v
  have frame := State.raiseAlarm_rest (lossAlarm l) 0 v
  have bank : (v.raiseAlarm (lossAlarm l) 0).bank = { v.bank with tallies := (v.raiseAlarm (lossAlarm l) 0).bank.tallies } := by
    unfold State.raiseAlarm; split <;> rfl
  generalize v.raiseAlarm (lossAlarm l) 0 = y at *
  obtain ⟨counted, uncounted⟩ := State.bumpBy_tallies (.linkLosses l) 1 (y.postBoth .peerLost)
  have bumped : (y.postBoth .peerLost).bump (.linkLosses l) = { y.postBoth .peerLost with bank := { y.bank with
    tallies := ((y.postBoth .peerLost).bump (.linkLosses l)).bank.tallies } } := rfl
  have posted := State.postBoth_events .peerLost y
  have z : y.postBoth .peerLost = { y with notices := (y.postBoth .peerLost).notices } := rfl
  have zAlarms : (y.postBoth .peerLost).notices.alarms = y.notices.alarms := rfl
  have zBank : (y.postBoth .peerLost).bank = y.bank := rfl
  rw [show (y.postBoth .peerLost).bumpBy (.linkLosses l) 1 = (y.postBoth .peerLost).bump (.linkLosses l) from rfl] at counted uncounted
  generalize (y.postBoth .peerLost).bump (.linkLosses l) = t at *
  have notices : t.notices = (y.postBoth .peerLost).notices := by rw [bumped]
  generalize y.postBoth .peerLost = p at *
  have both : ∀ k, t.notices.events k = ((v.notices.events k).post .alarmRaised).post .peerLost := fun k => by
    rw [notices, posted, events]
  have first : ∀ k (x : EventKind), x ≠ .restartLapsed → (v.notices.events k).sameKind (w.notices.events k) x := fun k x hx => by
    by_cases hk : k = l
    · subst hk; exact kinds x hx
    · rw [Link.ne_iff_eq_other.1 hk, other]; exact ⟨rfl, rfl⟩
  have second : ∀ k (x : EventKind), x ≠ .alarmRaised → x ≠ .peerLost →
      (t.notices.events k).sameKind (v.notices.events k) x := fun k x h1 h2 => by
    rw [both]
    exact EventSet.sameKind_trans ((EventSet.post_spec .alarmRaised _).2.2.2 x h1) ((EventSet.post_spec .peerLost _).2.2.2 x h2)
  have vBank : v.bank = w.bank := by rw [rest]
  have now : t.now = y.now := by unfold State.now; rw [bumped, z]
  have yLinks : y.links = v.links := by rw [frame]
  refine ⟨?_, ⟨?_, fun k => ?_⟩, fun k => ⟨?_, ?_⟩, fun x hx hl => ?_, ?_, fun k x hx => ?_, fun k => ?_, ?_, fun x hx => ?_, ?_⟩
  · rw [bumped, z]; exact yLinks.trans links
  · rw [now, notices, zAlarms, ← alarms]; exact raises.1
  · rw [both]
    exact ((EventSet.post_spec .peerLost _).2.2.2 .alarmRaised (by decide)).1.trans (EventSet.post_spec .alarmRaised _).1
  · rw [both]; exact (EventSet.post_spec .peerLost _).1
  · rw [both, (EventSet.post_spec .peerLost _).2.1, ((EventSet.post_spec .alarmRaised _).2.2.2 .peerLost (by decide)).2,
      (first k .peerLost (by decide)).2]
  · exact (second l .restartLapsed (by decide) (by decide)).1.trans (told x hx hl)
  · exact EventSet.sameKind_trans (by rw [other]; exact ⟨rfl, rfl⟩) (second l.other .restartLapsed (by decide) (by decide))
  · simp only [List.mem_cons, List.not_mem_nil, or_false, not_or] at hx
    exact EventSet.sameKind_trans (first k x hx.2.2) (second k x hx.2.1 hx.1)
  · have masks : (v.notices.events k).mask = (w.notices.events k).mask := by
      by_cases hk : k = l
      · subst hk; exact mask
      · rw [Link.ne_iff_eq_other.1 hk, other]
    rw [both]
    exact masks
  · rw [counted, zBank, tallies _ (by cases l <;> decide), vBank]
    rfl
  · simp only [List.mem_cons, List.not_mem_nil, or_false, not_or] at hx
    rw [uncounted x hx.1, zBank, tallies x hx.2, vBank]
  · have base : y = { w with links := y.links, notices := y.notices, bank := { w.bank with tallies := y.bank.tallies } } := by
      rw [bank, vBank] at frame
      rw [frame, rest]
    rw [z, base] at bumped
    have tLinks : t.links = y.links := by rw [bumped]
    rw [tLinks, notices]
    exact bumped

end Sys2Proof.Machine
end

section
/-! The loss of a link as a whole (R9, R13, R67, R118, R184, R185). -/

namespace Sys2Proof.Machine

section
variable {w z t : State}

/-- What the blocks keep while the work mode moves at the loss of the body link (R9, R13). -/
structure State.LossKeeps (w z : State) : Prop where
  staging : z.unit.staging = w.unit.staging
  entry : z.ceiling.sameEntry w.ceiling .bodyLoss
  events : ∀ (l : Link) (k : EventKind), k ∉ [EventKind.modeChanged, .serviceLeft, .armState, .ceilingBinding] →
    (z.notices.events l).sameKind (w.notices.events l) k
  masks : ∀ l : Link, (z.notices.events l).mask = (w.notices.events l).mask
  alarms : z.notices.alarms = w.notices.alarms
  tallies : ∀ x : Tally, x ≠ .urgentStops → z.bank.tallies[x.index] = w.bank.tallies[x.index]
  fault : ∀ ch : Channel, z.output.channels[ch].fault = w.output.channels[ch].fault
  freed : w.unit.mode = .service → ∀ ch : Channel, z.output.channels[ch].holder = none
  holder : w.unit.mode ≠ .service → ∀ ch : Channel, z.output.channels[ch].holder = w.output.channels[ch].holder
  low : w.unit.mode ≠ .service → ∀ ch : Channel, ch.val < 3 → z.output.channels[ch] = w.output.channels[ch]
  gov : z.gov = { w.gov with requested := z.gov.requested, shift := z.gov.shift, settle := z.gov.settle }
  rest : z = { w with
    unit := z.unit, gov := z.gov, ceiling := z.ceiling, arms := z.arms, spray := z.spray, output := z.output
    notices := z.notices, bank := { w.bank with tallies := z.bank.tallies } }

theorem State.lossKeeps_refl (h : w.unit.mode ≠ .service) : State.LossKeeps w w where
  staging := rfl
  entry := ⟨rfl, rfl, rfl⟩
  events _ _ _ := ⟨rfl, rfl⟩
  masks _ := rfl
  alarms := rfl
  tallies _ _ := rfl
  fault _ := rfl
  freed hs := absurd hs h
  holder _ _ := rfl
  low _ _ _ := rfl
  gov := rfl
  rest := rfl

theorem State.EndsSweep.keeps (h : State.EndsSweep w z) (hm : w.unit.mode ≠ .service) : State.LossKeeps w z where
  staging := by rw [h.unit]
  entry := h.entries _ (by decide)
  events l k hk := h.events l k (by simp at hk ⊢; tauto)
  masks := h.masks
  alarms := h.alarms
  tallies := h.tallies
  fault ch := (h.owners.1 ch).1
  freed hs := absurd hs hm
  holder _ ch := (h.owners.1 ch).2.1
  low _ := h.low
  gov := by
    cases hr : z.unit.requested with
    | true => rw [(h.asks hr).1]
    | false => rw [(h.waits hr).1]
  rest := h.rest

/-- SERVICE is left at the loss of the body link: the mode and its cap, and the end of every DIRECT (R9, R13). -/
theorem State.leaveService_keeps (hm : w.unit.mode = .service) :
    State.LossKeeps w w.leaveService ∧ w.leaveService.unit = { w.unit with mode := .transport } ∧
    w.leaveService.gov = w.gov ∧ w.leaveService.arms = w.arms ∧
    w.leaveService.told .modeChanged ∧ w.leaveService.told .serviceLeft := by
  obtain ⟨told, serviceLeft, -, channels, -⟩ := State.leaveService_spec w
  have settles := ((State.setMode_spec .transport w).1.trans (State.postBoth_settlesTo .serviceLeft (w.setMode .transport)) (by decide))
  have frame := (State.endDirectWhere_spec (fun _ => true) ((w.setMode .transport).postBoth .serviceLeft)).2.2.2
  rw [show ((w.setMode .transport).postBoth .serviceLeft).endDirectWhere (fun _ => true) = w.leaveService from rfl] at frame
  have faults : ∀ ch : Channel, w.leaveService.output.channels[ch].fault =
      ((w.setMode .transport).postBoth .serviceLeft).output.channels[ch].fault := fun ch => by
    have channel := (State.endDirectWhere_spec (fun _ => true) ((w.setMode .transport).postBoth .serviceLeft)).1 ch
    rw [show ((w.setMode .transport).postBoth .serviceLeft).endDirectWhere (fun _ => true) = w.leaveService from rfl] at channel
    rw [channel]; split <;> rfl
  generalize (w.setMode .transport).postBoth .serviceLeft = v at *
  generalize w.leaveService = z at *
  have base := settles.rest
  have zUnit : z.unit = { w.unit with mode := .transport } := by rw [frame, base]
  have zGov : z.gov = w.gov := by rw [frame, base]
  have zArms : z.arms = w.arms := by rw [frame, base]
  have zCeiling : z.ceiling = v.ceiling := by rw [frame]
  have zNotices : z.notices = v.notices := by rw [frame]
  have zBank : z.bank = v.bank := by rw [frame]
  have zSpray : z.spray = v.spray := by rw [frame]
  refine ⟨?_, zUnit, zGov, zArms, told, serviceLeft⟩
  exact {
    staging := by rw [zUnit]
    entry := by rw [zCeiling]; exact settles.entries _ (by decide) (by decide) (by decide)
    events := fun l k hk => by
      rw [zNotices]
      exact settles.events l k (by simp at hk ⊢; tauto) (by simp at hk; tauto)
    masks := fun l => by rw [zNotices]; exact settles.masks l
    alarms := by rw [zNotices]; exact settles.alarms
    tallies := fun x hx => by rw [zBank]; exact settles.tallies x (by simp) hx
    fault := fun ch => (faults ch).trans (settles.owners ch).1
    freed := fun _ ch => (channels ch).1
    holder := fun hn => absurd hm hn
    low := fun hn => absurd hm hn
    gov := by rw [zGov]
    rest := by
      rw [zUnit, zGov, zArms, zCeiling, zNotices, zBank, zSpray, frame, base] }

/-! ### The loss of the body link (R9, R118) -/

/-- The work mode moves at the loss of the body link (R9). -/
def State.bodyMove (s : State) : State :=
  match s.unit.mode with
  | .entering | .sweep => s.enterLeaving
  | .service => s.leaveService
  | .transport | .leaving => s

/-- All spray enables go off (R118). -/
def State.sprayOff (s : State) : State :=
  s.modSpray fun y =>
    { y with left := { y.left with enable := false }, right := { y.right with enable := false }
             main := { y.main with enable := false } }

/-- The water at the loss of the body link, from `z` to `t` (R118). -/
structure State.WaterOff (z t : State) : Prop where
  bars : ∀ b, (t.spray.bar b).enable = false ∧ (t.spray.bar b).active = false
  unit : t.unit = z.unit
  gov : t.gov = z.gov
  arms : t.arms = z.arms
  entries : ∀ src, src ≠ .sprayLimit → src ≠ .drySweep → t.ceiling.sameEntry z.ceiling src
  channels : ∀ ch : Channel, ch.val < 14 → t.output.channels[ch] = z.output.channels[ch]
  owners : ∀ ch : Channel, t.output.channels[ch].fault = z.output.channels[ch].fault ∧
    t.output.channels[ch].holder = z.output.channels[ch].holder
  events : ∀ (l : Link) (k : EventKind), k ≠ .ceilingBinding → (t.notices.events l).sameKind (z.notices.events l) k
  masks : ∀ l : Link, (t.notices.events l).mask = (z.notices.events l).mask
  alarms : t.notices.alarms = z.notices.alarms
  tallies : ∀ x : Tally, x ≠ .urgentStops → t.bank.tallies[x.index] = z.bank.tallies[x.index]
  rest : t = { z with ceiling := t.ceiling, spray := t.spray, output := t.output, notices := t.notices
                      bank := { z.bank with tallies := t.bank.tallies } }

theorem State.waterOff_spec (z : State) : State.WaterOff z z.sprayOff.judgeBars := by
  obtain ⟨settles, judged, -⟩ := State.judgeBars_spec z.sprayOff
  have off : ∀ b, (z.sprayOff.spray.bar b).enable = false := fun b => by cases b <;> rfl
  generalize z.sprayOff.judgeBars = t at *
  have enable : ∀ b, (t.spray.bar b).enable = false := fun b => (settles.bars b).1.trans (off b)
  refine ⟨fun b => ⟨enable b, ?_⟩, by rw [settles.rest]; rfl, by rw [settles.rest]; rfl, by rw [settles.rest]; rfl,
    fun src h1 h2 => settles.entries src (by simp) h1 h2, settles.channels,
    fun ch => ⟨(settles.owners ch).1, (settles.owners ch).2.1⟩, fun l k hk => settles.events l k (by simp) hk, settles.masks,
    settles.alarms, fun x hx => settles.tallies x (by simp) hx, settles.rest⟩
  rw [judged.1, State.barMayBeActive, enable]
  simp

/-- Everything between at the loss of the body link, from `w` to `t`. -/
structure State.BodyLoss (w t : State) : Prop where
  bars : ∀ b, (t.spray.bar b).enable = false ∧ (t.spray.bar b).active = false
  keeps : State.LossKeeps w t
  sweeps : w.unit.mode = .entering ∨ w.unit.mode = .sweep → ∃ z, State.EndsSweep w z ∧ State.WaterOff z t
  stands : ¬(w.unit.mode = .entering ∨ w.unit.mode = .sweep) → t.arms = w.arms ∧ t.gov = w.gov ∧
    t.unit = { w.unit with mode := if w.unit.mode = .service then .transport else w.unit.mode }
  serves : w.unit.mode = .service → t.told .modeChanged ∧ t.told .serviceLeft
  silent : w.unit.mode = .transport ∨ w.unit.mode = .leaving → ∀ (l : Link) (k : EventKind), k ≠ .ceilingBinding →
    (t.notices.events l).sameKind (w.notices.events l) k

theorem State.LossKeeps.water (h : State.LossKeeps w z) (k : State.WaterOff z t) : State.LossKeeps w t where
  staging := by rw [k.unit]; exact h.staging
  entry := CeilingTable.sameEntry_trans h.entry (k.entries _ (by decide) (by decide))
  events l x hx := EventSet.sameKind_trans (h.events l x hx) (k.events l x (by simp at hx; tauto))
  masks l := (k.masks l).trans (h.masks l)
  alarms := k.alarms.trans h.alarms
  tallies x hx := (k.tallies x hx).trans (h.tallies x hx)
  fault ch := (k.owners ch).1.trans (h.fault ch)
  freed hs ch := (k.owners ch).2.trans (h.freed hs ch)
  holder hs ch := (k.owners ch).2.trans (h.holder hs ch)
  low hs ch hc := (k.channels ch (by omega)).trans (h.low hs ch hc)
  gov := by rw [k.gov]; exact h.gov
  rest := by
    have first := h.rest
    have bank : z.bank = { w.bank with tallies := z.bank.tallies } := by rw [first]
    have second := k.rest
    rw [bank, first] at second
    rw [k.unit, k.gov, k.arms]
    exact second

theorem State.bodyLoss_spec (w : State) : State.BodyLoss w w.bodyMove.sprayOff.judgeBars := by
  have water := State.waterOff_spec w.bodyMove
  generalize w.bodyMove.sprayOff.judgeBars = t at *
  by_cases hm : w.unit.mode = .entering ∨ w.unit.mode = .sweep
  · have e : w.bodyMove = w.enterLeaving := by rcases hm with hm | hm <;> simp only [State.bodyMove, hm]
    have works : w.unit.mode ≠ .service ∧ ¬(w.unit.mode = .transport ∨ w.unit.mode = .leaving) := by
      rcases hm with hm | hm <;> rw [hm] <;> decide
    rw [e] at water
    have ends := State.enterLeaving_ends w
    exact ⟨water.bars, (ends.keeps works.1).water water, fun _ => ⟨_, ends, water⟩, fun hn => absurd hm hn,
      fun hs => absurd hs works.1, fun hs => absurd hs works.2⟩
  by_cases hs : w.unit.mode = .service
  · have e : w.bodyMove = w.leaveService := by simp only [State.bodyMove, hs]
    obtain ⟨keeps, unit, gov, arms, told, left⟩ := State.leaveService_keeps hs
    rw [← e] at keeps unit gov arms told left
    exact ⟨water.bars, keeps.water water, fun hn => absurd hn hm,
      fun _ => ⟨water.arms.trans arms, water.gov.trans gov, by rw [water.unit, unit, if_pos hs]⟩,
      fun _ => ⟨fun l => (water.events l _ (by decide)).1.trans (told l), fun l => (water.events l _ (by decide)).1.trans (left l)⟩,
      fun hn => by rw [hs] at hn; simp at hn⟩
  · have e : w.bodyMove = w := by
      unfold State.bodyMove
      split <;> simp_all
    rw [e] at water
    exact ⟨water.bars, (State.lossKeeps_refl hs).water water, fun hn => absurd hn hm,
      fun _ => ⟨water.arms, water.gov, by rw [water.unit, if_neg hs]⟩, fun hn => absurd hn hs, fun _ => water.events⟩

end

end Sys2Proof.Machine
end

section
/-! The loss of a link from end to end (R184, R185), and the obligation on it. -/

namespace Sys2Proof.Machine

/-- What the blocks do between at the loss of a link: the demand is dropped (R67), or the body's part (R9, R118). -/
def State.lossMiddle (l : Link) (s : State) : State :=
  match l with
  | .drive => s.dropDemand
  | .body => s.bodyMove.sprayOff.judgeBars

/-- The loss entry is activated for a link that is LOST (R55). -/
def State.lossBegun (l : Link) (s : State) : State :=
  (s.modLink l fun x => { x with state := .lost, timer := none }).activate (lossEntry l) (s.lossCap l)

theorem State.reportLoss_eq (l : Link) (s : State) : s.reportLoss l = (s.lossFirst l).lossMiddle l := by
  cases l with
  | drive => rfl
  | body =>
    unfold State.reportLoss State.lossMiddle State.bodyMove State.sprayOff State.lossFirst <;>
      dsimp only <;> generalize State.endDirectWhere _ _ = x <;> cases x.unit.mode <;> rfl

theorem State.loseLink_eq (l : Link) (s : State) :
    s.loseLink l = (((s.lossBegun l).lossFirst l).lossMiddle l).lossLast l := by
  have cap : (s.modLink l fun x => { x with state := .lost, timer := none }).lossCap l = s.lossCap l := by cases l <;> rfl
  unfold State.loseLink State.lossLast
  dsimp only
  rw [cap, State.reportLoss_eq]
  rfl

/-- What every loss keeps between its first part and its last. -/
structure State.LossMid (l : Link) (w m : State) : Prop where
  staging : m.unit.staging = w.unit.staging
  entry : m.ceiling.sameEntry w.ceiling (lossEntry l)
  events : ∀ (k : Link) (x : EventKind), x ∉ [EventKind.modeChanged, .serviceLeft, .armState, .ceilingBinding] →
    (m.notices.events k).sameKind (w.notices.events k) x
  masks : ∀ k : Link, (m.notices.events k).mask = (w.notices.events k).mask
  alarms : m.notices.alarms = w.notices.alarms
  tallies : ∀ x : Tally, x ≠ .urgentStops → m.bank.tallies[x.index] = w.bank.tallies[x.index]
  fault : ∀ ch : Channel, m.output.channels[ch].fault = w.output.channels[ch].fault
  freed : l = .body ∧ w.unit.mode = .service → ∀ ch : Channel, m.output.channels[ch].holder = none
  holder : ¬(l = .body ∧ w.unit.mode = .service) → ∀ ch : Channel,
    m.output.channels[ch].holder = w.output.channels[ch].holder
  low : ¬(l = .body ∧ w.unit.mode = .service) → ∀ ch : Channel, ch.val < 3 → m.output.channels[ch] = w.output.channels[ch]
  links : m.links = w.links
  now : m.now = w.now

theorem State.lossMiddle_mid (l : Link) (w : State) : State.LossMid l w (w.lossMiddle l) := by
  cases l with
  | drive => exact ⟨rfl, ⟨rfl, rfl, rfl⟩, fun _ _ _ => ⟨rfl, rfl⟩, fun _ => rfl, rfl, fun _ _ => rfl, fun _ => rfl,
      (fun h => nomatch h.1), fun _ _ => rfl, fun _ _ _ => rfl, rfl, rfl⟩
  | body =>
    have keeps : State.LossKeeps w (w.lossMiddle .body) := (State.bodyLoss_spec w).keeps
    generalize w.lossMiddle .body = m at *
    exact ⟨keeps.staging, keeps.entry, keeps.events, keeps.masks, keeps.alarms, keeps.tallies, keeps.fault,
      fun h => keeps.freed h.2, fun h => keeps.holder fun hs => h ⟨rfl, hs⟩, fun h => keeps.low fun hs => h ⟨rfl, hs⟩,
      by rw [keeps.rest], by unfold State.now; rw [keeps.rest]⟩

/-- What every loss of a link does, from `u` over `v`, where its loss entry has become active, to `t` (R185). -/
structure State.LosesLink (l : Link) (u v t : State) : Prop where
  own : t.link l = { u.link l with state := .lost, timer := none }
  other : t.link l.other = u.link l.other
  window : t.links.window = u.links.window.filter fun w => w.holder != l
  staging : t.unit.staging = u.unit.staging.filter fun g => g.holder != l
  channels : ∀ ch : Channel, t.output.channels[ch].fault = u.output.channels[ch].fault ∧
    (¬(l = .body ∧ u.unit.mode = .service) →
      t.output.channels[ch].holder = u.output.channels[ch].holder.filter (fun k => k != l)) ∧
    (l = .body ∧ u.unit.mode = .service → t.output.channels[ch].holder = none) ∧
    (¬(l = .body ∧ u.unit.mode = .service) → u.output.channels[ch].holder = some l.other → ch.val < 3 →
      t.output.channels[ch] = u.output.channels[ch])
  reports : State.CeilingReports u v
  active : (v.ceiling.entry (lossEntry l)).active = true
  cap : (v.ceiling.entry (lossEntry l)).cap = u.lossCap l
  since : (v.ceiling.entry (lossEntry l)).since =
    if (u.ceiling.entry (lossEntry l)).active then (u.ceiling.entry (lossEntry l)).since else u.now
  entry : t.ceiling.sameEntry v.ceiling (lossEntry l)
  raises : State.Raises (lossAlarm l) 0 u t
  peer : u.postedOnce .peerLost t
  claim : ∀ g, u.unit.staging = some g → g.holder = l →
    (t.notices.events l).pending.getLsbD (EventKind.index .claimLapsed) = true
  restart : ∀ w, u.links.window = some w → w.holder = l →
    (t.notices.events l).pending.getLsbD (EventKind.index .restartLapsed) = true
  lapses : ∀ k : EventKind, k = .claimLapsed ∨ k = .restartLapsed →
    (t.notices.events l.other).sameKind (u.notices.events l.other) k
  masks : ∀ k : Link, (t.notices.events k).mask = (u.notices.events k).mask
  counted : t.bank.tallies[Tally.index (.linkLosses l)] = min 255 (u.bank.tallies[Tally.index (.linkLosses l)] + 1)
  tallies : ∀ x : Tally, x ∉ [Tally.linkLosses l, .urgentStops, .overflows] →
    t.bank.tallies[x.index] = u.bank.tallies[x.index]

/-- The parts of a loss, from `u` to `t`. -/
structure State.LossRun (l : Link) (u v w m t : State) : Prop where
  begun : State.SettlesTo [lossEntry l] [] [] (u.modLink l fun x => { x with state := .lost, timer := none }) v
  posts : (v.ceiling.entry (lossEntry l)).active = true ∧ (v.ceiling.entry (lossEntry l)).cap = u.lossCap l ∧
    (v.ceiling.entry (lossEntry l)).since =
      if (u.ceiling.entry (lossEntry l)).active then (u.ceiling.entry (lossEntry l)).since else u.now
  reports : State.CeilingReports u v
  others : ∀ src, src ≠ lossEntry l → v.ceiling.sameEntry u.ceiling src
  spray : v.spray = u.spray
  output : v.output = u.output
  first : State.LossFirst l v w
  middle : m = w.lossMiddle l
  last : State.LossLast l m t

theorem State.lossRun_spec (l : Link) (u : State) : ∃ v w m, State.LossRun l u v w m (u.loseLink l) := by
  rw [State.loseLink_eq]
  refine ⟨_, _, _, ?_, ⟨?_, ?_, ?_⟩, ?_, ?_, ?_, ?_, State.lossFirst_spec l (u.lossBegun l), rfl, State.lossLast_spec l _⟩
  · exact (State.activate_spec (lossEntry l) (u.lossCap l) _).2.2.2
  · exact (State.activate_spec (lossEntry l) (u.lossCap l) _).1
  · exact (State.activate_spec (lossEntry l) (u.lossCap l) _).2.1
  · exact (State.activate_spec (lossEntry l) (u.lossCap l) _).2.2.1
  · exact (State.activate_reports (lossEntry l) (u.lossCap l)
      (u.modLink l fun x => { x with state := .lost, timer := none })).congr rfl rfl rfl rfl rfl rfl rfl rfl
  · exact fun src hs => State.activate_other (s := u.modLink l fun x => { x with state := .lost, timer := none })
      (u.lossCap l) hs
  · unfold State.lossBegun; simp [State.modLink]
  · unfold State.lossBegun; simp [State.modLink]

section
variable {l : Link} {u v w m t : State}

theorem State.LossRun.unit (h : State.LossRun l u v w m t) :
    w.unit = { u.unit with staging := u.unit.staging.filter fun g => g.holder != l } := by
  have unit : v.unit = u.unit := by rw [h.begun.rest]; rfl
  rw [h.first.unit, unit]

theorem State.LossRun.now (h : State.LossRun l u v w m t) : t.now = u.now := by
  have mid := State.lossMiddle_mid l w
  rw [← h.middle] at mid
  have first : v.now = u.now := by unfold State.now; rw [h.begun.rest]; rfl
  have second : w.now = v.now := by unfold State.now; rw [h.first.rest]
  have third : t.now = m.now := by unfold State.now; rw [h.last.rest]
  rw [third, mid.now, second, first]

/-- A kind that no part of a loss but its report of the ceiling posts. -/
theorem State.LossRun.toMiddle (h : State.LossRun l u v w m t) {x : EventKind} (hx : x ≠ .claimLapsed)
    (hb : x ∉ [EventKind.modeChanged, .serviceLeft, .armState, .ceilingBinding]) (k : Link) :
    (m.notices.events k).sameKind (u.notices.events k) x := by
  have mid := State.lossMiddle_mid l w
  rw [← h.middle] at mid
  have begun := h.begun.events k x (by simp) (by rintro rfl; simp at hb)
  exact EventSet.sameKind_trans (EventSet.sameKind_trans begun (h.first.events k hx)) (mid.events k x hb)

theorem State.LossRun.loses (h : State.LossRun l u v w m t) : State.LosesLink l u v t := by
  have mid := State.lossMiddle_mid l w
  rw [← h.middle] at mid
  have begun := h.begun.rest
  have vLinks : v.links = (u.modLink l fun x => { x with state := .lost, timer := none }).links := by rw [begun]
  have wLinks : w.links = v.links := by rw [h.first.rest]
  have links : m.links = (u.modLink l fun x => { x with state := .lost, timer := none }).links :=
    mid.links.trans (wLinks.trans vLinks)
  have modWindow : m.links.window = u.links.window := by
    rw [links]; cases l <;> rfl
  have vUnit : v.unit = u.unit := by rw [begun]; rfl
  have wUnit := h.unit
  have mode : w.unit.mode = u.unit.mode := by rw [wUnit]
  have tOutput : t.output = m.output := by rw [h.last.rest]
  have tUnit : t.unit = m.unit := by rw [h.last.rest]
  have tCeiling : t.ceiling = m.ceiling := by rw [h.last.rest]
  have wCeiling : w.ceiling = v.ceiling := by rw [h.first.rest]
  have tLink : ∀ k, t.link k = (u.modLink l fun x => { x with state := .lost, timer := none }).link k := fun k => by
    have : t.link k = m.link k := by unfold State.link; rw [h.last.links]; cases k <;> rfl
    rw [this]; unfold State.link; rw [links]
  have alarms : m.notices.alarms = u.notices.alarms := mid.alarms.trans (h.first.alarms.trans h.begun.alarms)
  have wBank : w.bank = v.bank := by rw [h.first.rest]
  have tallies : ∀ x : Tally, x ≠ .urgentStops → m.bank.tallies[x.index] = u.bank.tallies[x.index] := fun x hx => by
    rw [mid.tallies x hx, wBank, h.begun.tallies x (by simp) hx]
    rfl
  have fault := h.first.fault
  have holder := h.first.holder
  have free := h.first.free
  have heldClaim := h.first.told
  rw [h.output] at fault holder free
  rw [vUnit] at heldClaim
  have freed := mid.freed
  have kept := mid.holder
  have low := mid.low
  rw [mode] at freed kept low
  refine {
    own := by rw [tLink, State.modLink_same]
    other := by rw [tLink, State.modLink_other (by cases l <;> decide)]
    window := by rw [h.last.links, ← modWindow]
    staging := by rw [tUnit, mid.staging, wUnit]
    channels := fun ch => ?channels
    reports := h.reports
    active := h.posts.1
    cap := h.posts.2.1
    since := h.posts.2.2
    entry := by rw [tCeiling, ← wCeiling]; exact mid.entry
    raises := ⟨by rw [← alarms]; exact h.last.raises.1, h.last.raises.2⟩
    peer := fun k => ⟨(h.last.peer k).1, by rw [(h.last.peer k).2, (h.toMiddle (by decide) (by decide) k).2]⟩
    claim := fun g hg hl => ?claim
    restart := fun x hx hl => h.last.told x (modWindow.trans hx) hl
    lapses := fun k hk => ?lapses
    masks := fun k => (h.last.masks k).trans ((mid.masks k).trans ((h.first.masks k).trans (h.begun.masks k)))
    counted := by rw [h.last.counted, tallies _ (by simp)]
    tallies := fun x hx => ?tallies }
  case channels =>
    rw [tOutput]
    refine ⟨(mid.fault ch).trans (fault ch), fun hn => (kept hn ch).trans (holder ch), fun hs => freed hs ch,
      fun hn hh hc => (low hn ch hc).trans (free ch ?_)⟩
    rw [hh]
    cases l <;> decide
  case claim =>
    rw [(h.last.events l .claimLapsed (by decide)).1, (mid.events l .claimLapsed (by decide)).1]
    exact heldClaim g hg hl
  case lapses =>
    have second : (w.notices.events l.other).sameKind (u.notices.events l.other) k := by
      rw [h.first.other]
      exact h.begun.events l.other k (by simp) (by rcases hk with rfl | rfl <;> decide)
    have third := mid.events l.other k (by rcases hk with rfl | rfl <;> decide)
    refine EventSet.sameKind_trans (EventSet.sameKind_trans second third) ?_
    rcases hk with rfl | rfl
    · exact h.last.events l.other _ (by decide)
    · exact h.last.other
  case tallies =>
    simp only [List.mem_cons, List.not_mem_nil, or_false, not_or] at hx
    rw [h.last.tallies x (by simp [hx]), tallies x hx.2.1]

end

end Sys2Proof.Machine
end

section
/-! O13: the expiry of a link's deadline (R184, R185). -/

namespace Sys2Proof.Machine

/-- Two states that agree on the blocks that a loss never moves. -/
theorem State.eq_of_still {u t : State} (clock : t.clock = u.clock) (periods : t.periods = u.periods)
    (travel : t.travel = u.travel) (scan : t.scan = u.scan) (settings : t.settings = u.settings)
    (freeCount : t.freeCount = u.freeCount) (pending : t.pending = u.pending) :
    t = { u with
      unit := t.unit, ceiling := t.ceiling, gov := t.gov, arms := t.arms, spray := t.spray, output := t.output
      links := t.links, notices := t.notices, bank := t.bank } := by
  rw [← clock, ← periods, ← travel, ← scan, ← settings, ← freeCount, ← pending]

section
variable {l : Link} {u v w m t : State}

theorem State.LossRun.still (h : State.LossRun l u v w m t) (middle : m = { w with
      unit := m.unit, gov := m.gov, ceiling := m.ceiling, arms := m.arms, spray := m.spray, output := m.output
      notices := m.notices, bank := { w.bank with tallies := m.bank.tallies } }) :
    t = { u with
      unit := t.unit, ceiling := t.ceiling, gov := t.gov, arms := t.arms, spray := t.spray, output := t.output
      links := t.links, notices := t.notices, bank := { u.bank with tallies := t.bank.tallies } } := by
  have begun := h.begun.rest
  have first := h.first.rest
  have last := h.last.rest
  have clock : t.clock = u.clock := by rw [last, middle, first, begun]; rfl
  have periods : t.periods = u.periods := by rw [last, middle, first, begun]; rfl
  have travel : t.travel = u.travel := by rw [last, middle, first, begun]; rfl
  have scan : t.scan = u.scan := by rw [last, middle, first, begun]; rfl
  have settings : t.settings = u.settings := by rw [last, middle, first, begun]; rfl
  have freeCount : t.freeCount = u.freeCount := by rw [last, middle, first, begun]; rfl
  have pending : t.pending = u.pending := by rw [last, middle, first, begun]; rfl
  have bank : t.bank = { u.bank with tallies := t.bank.tallies } := by
    have vBank : v.bank = { u.bank with tallies := v.bank.tallies } := by rw [begun]; rfl
    have mBank : m.bank = { w.bank with tallies := m.bank.tallies } := by rw [middle]
    have wBank : w.bank = v.bank := by rw [first]
    have tBank : t.bank = { m.bank with tallies := t.bank.tallies } := by rw [last]
    rw [mBank, wBank, vBank] at tBank
    exact tBank
  have whole := State.eq_of_still clock periods travel scan settings freeCount pending
  rw [bank] at whole
  exact whole

/-- What the loss of the drive link does beside (R67): the demand is dropped, and its held channels are freed. -/
structure State.DriveLost (u v t : State) : Prop where
  gov : t.gov = { u.gov with demandDir := .neutral, demandMag := 0 }
  ceiling : t.ceiling = v.ceiling
  others : ∀ src, src ≠ .driveLoss → t.ceiling.sameEntry u.ceiling src
  binding : ∀ k : Link, (t.notices.events k).sameKind (v.notices.events k) .ceilingBinding
  events : ∀ (k : Link) (x : EventKind), x ∉ [EventKind.peerLost, .alarmRaised, .claimLapsed, .restartLapsed,
    .ceilingBinding] → (t.notices.events k).sameKind (u.notices.events k) x
  free : ∀ ch : Channel, u.output.channels[ch].holder ≠ some .drive → t.output.channels[ch] = u.output.channels[ch]
  held : ∀ ch : Channel, u.output.channels[ch].holder = some .drive →
    t.output.channels[ch].level = 0 ∧ t.output.channels[ch].setpoint = u.output.channels[ch].setpoint
  rest : t = { u with
    unit := { u.unit with staging := t.unit.staging }, links := t.links, output := t.output, ceiling := t.ceiling
    gov := t.gov, notices := t.notices, bank := { u.bank with tallies := t.bank.tallies } }

theorem State.LossRun.drive (h : State.LossRun .drive u v w m t) : State.DriveLost u v t := by
  have middle : m = w.dropDemand := h.middle
  have mNotices : m.notices = w.notices := by rw [middle]; rfl
  have begun := h.begun.rest
  have vBank : v.bank = { u.bank with tallies := v.bank.tallies } := by rw [begun]; rfl
  have tCeiling : t.ceiling = v.ceiling := by
    rw [h.last.rest, middle]; show w.ceiling = _; rw [h.first.rest]
  have tOutput : t.output = w.output := by rw [h.last.rest, middle]; rfl
  have tUnit : t.unit = w.unit := by rw [h.last.rest, middle]; rfl
  have wGov : w.gov = u.gov := by rw [h.first.rest, begun]; rfl
  have tGov : t.gov = { u.gov with demandDir := .neutral, demandMag := 0 } := by
    rw [h.last.rest, middle]; show { w.gov with demandDir := .neutral, demandMag := 0 } = _; rw [wGov]
  have out := h.output
  refine ⟨tGov, tCeiling, fun src hs => by rw [tCeiling]; exact h.others src hs, fun k => ?_, fun k x hx => ?_,
    fun ch hc => ?_, fun ch hc => ?_, ?_⟩
  · refine EventSet.sameKind_trans (h.first.events k (by decide)) ?_
    rw [← mNotices]; exact h.last.events k _ (by decide)
  · simp only [List.mem_cons, List.not_mem_nil, or_false, not_or] at hx
    refine EventSet.sameKind_trans (EventSet.sameKind_trans (h.begun.events k x (by simp) hx.2.2.2.2)
      (h.first.events k hx.2.2.1)) ?_
    rw [← mNotices]; exact h.last.events k x (by simp [hx])
  · rw [tOutput, ← out]; exact h.first.free ch (by rw [out]; exact hc)
  · rw [tOutput, ← out]; exact h.first.held ch (by rw [out]; exact hc)
  · have whole := h.still (by rw [middle]; rfl)
    have unit : t.unit = { u.unit with staging := t.unit.staging } := by rw [tUnit, h.unit]
    have arms : t.arms = u.arms := by rw [h.last.rest, middle]; show w.arms = _; rw [h.first.rest, begun]; rfl
    have spray : t.spray = u.spray := by rw [h.last.rest, middle]; show w.spray = _; rw [h.first.rest]; exact h.spray
    rw [unit, arms, spray] at whole
    exact whole

/-- What the loss of the body link does beside (R9, R118): the spray is off, a sweep ends and SERVICE is left. -/
structure State.BodyLost (u t : State) : Prop where
  bars : ∀ b : Bar, (t.spray.bar b).enable = false ∧ (t.spray.bar b).active = false
  sweeps : u.unit.mode = .entering ∨ u.unit.mode = .sweep → t.told .modeChanged ∧ t.unit = { u.unit with
      mode := .leaving, staging := t.unit.staging, reached := false, requested := t.unit.requested
      awaited := if t.unit.requested then some .transport else none } ∧
    (t.unit.requested = true ↔ ∀ a : Arm, (u.arm a).state = .stowed ∨ (u.arm a).state = .fault) ∧
    (t.unit.requested = true → t.gov.requested = some .transport) ∧
    (t.unit.requested = false → t.gov = u.gov) ∧
    ((∃ a : Arm, (u.arm a).state ∉ [ArmState.stowed, .fault, .raising]) → t.armEntriesJudged) ∧
    (∀ a : Arm,
      ((u.arm a).state = .stowed → t.arm a = { u.arm a with pending := false }) ∧
      ((u.arm a).state = .fault ∨ (u.arm a).state = .raising → t.arm a = u.arm a) ∧
      ((u.arm a).state ∉ [ArmState.stowed, .fault, .raising] →
        t.arm a = { u.arm a with
          state := .raising, phase := none, pending := false, rot := 0, force := (t.arm a).force
          timer := some (later t.now u.program.raiseTime) } ∧ t.armPosted a ∧ t.told .armState))
  stands : ¬(u.unit.mode = .entering ∨ u.unit.mode = .sweep) → t.arms = u.arms ∧ t.gov = u.gov ∧ t.unit = { u.unit with
    mode := if u.unit.mode = .service then .transport else u.unit.mode, staging := t.unit.staging }
  serves : u.unit.mode = .service → t.told .modeChanged ∧ t.told .serviceLeft
  silent : ¬(u.unit.mode = .entering ∨ u.unit.mode = .sweep) → u.unit.mode ≠ .service → ∀ (k : Link) (x : EventKind),
    x ∉ [EventKind.peerLost, .alarmRaised, .claimLapsed, .restartLapsed, .ceilingBinding] →
    (t.notices.events k).sameKind (u.notices.events k) x
  gov : t.gov = { u.gov with requested := t.gov.requested, shift := t.gov.shift, settle := t.gov.settle }
  rest : t = { u with
    unit := t.unit, links := t.links, output := t.output, ceiling := t.ceiling, gov := t.gov, arms := t.arms
    spray := t.spray, notices := t.notices, bank := { u.bank with tallies := t.bank.tallies } }

theorem State.raises_iff {a : Arm} {s : State} : s.raises a ↔ (s.arm a).state ∉ [ArmState.stowed, .fault, .raising] := by
  simp [State.raises, and_assoc]

/-- The sweep that the loss ends, as its last part leaves it. -/
theorem State.LossRun.sweeps {z : State} (h : State.LossRun .body u v w m t) (ends : State.EndsSweep w z)
    (water : State.WaterOff z m) : t.told .modeChanged ∧ t.unit = { u.unit with
      mode := .leaving, staging := t.unit.staging, reached := false, requested := t.unit.requested
      awaited := if t.unit.requested then some .transport else none } ∧
    (t.unit.requested = true ↔ ∀ a : Arm, (u.arm a).state = .stowed ∨ (u.arm a).state = .fault) ∧
    (t.unit.requested = true → t.gov.requested = some .transport) ∧
    (t.unit.requested = false → t.gov = u.gov) ∧
    ((∃ a : Arm, u.raises a) → t.armEntriesJudged) ∧
    (∀ a : Arm,
      ((u.arm a).state = .stowed → t.arm a = { u.arm a with pending := false }) ∧
      ((u.arm a).state = .fault ∨ (u.arm a).state = .raising → t.arm a = u.arm a) ∧
      (u.raises a → t.arm a = { u.arm a with
          state := .raising, phase := none, pending := false, rot := 0, force := (t.arm a).force
          timer := some (later t.now u.program.raiseTime) } ∧ t.armPosted a ∧ t.told .armState)) := by
  have now := h.now
  have tUnit : t.unit = z.unit := by rw [h.last.rest]; exact water.unit
  have tGov : t.gov = z.gov := by rw [h.last.rest]; exact water.gov
  have tArms : t.arms = z.arms := by rw [h.last.rest]; exact water.arms
  have tOutput : t.output = m.output := by rw [h.last.rest]
  have tCeiling : t.ceiling = m.ceiling := by rw [h.last.rest]
  have wUnit := h.unit
  have wArms : w.arms = u.arms := by rw [h.first.rest, h.begun.rest]; rfl
  have wGov : w.gov = u.gov := by rw [h.first.rest, h.begun.rest]; rfl
  have wNow : w.now = u.now := by unfold State.now; rw [h.first.rest, h.begun.rest]; rfl
  have wProgram : w.program = u.program := by unfold State.program State.inForce; rw [wUnit]
  have wArm : ∀ a, w.arm a = u.arm a := fun a => by unfold State.arm; rw [wArms]
  have tArm : ∀ a, t.arm a = z.arm a := fun a => by unfold State.arm; rw [tArms]
  have told (k : EventKind) (hb : k ∉ [EventKind.peerLost, .alarmRaised, .restartLapsed, .ceilingBinding]) (hz : z.told k) :
      t.told k := fun l => by
    simp only [List.mem_cons, List.not_mem_nil, or_false, not_or] at hb
    rw [(h.last.events l k (by simp [hb])).1, (water.events l k hb.2.2.2).1]
    exact hz l
  refine ⟨told _ (by decide) fun l => (ends.once l).1, ?_, ?_, fun hq => ?_, fun hq => ?_, fun ⟨a, ha⟩ => ?_, fun a => ?_⟩
  · rw [tUnit, ends.unit, wUnit]
  · rw [tUnit, ends.requested, Arms.allDown_iff, wArms]
    rfl
  · rw [tUnit] at hq; rw [tGov, (ends.asks hq).1]
  · rw [tUnit] at hq; rw [tGov, (ends.waits hq).1, wGov]
  · obtain ⟨judged, -⟩ := ends.acts ⟨a, .inl ((State.raises_congr (wArm a)).2 ha)⟩
    refine State.armEntriesJudged_congr judged tArms fun src hs => ?_
    rw [tCeiling]
    exact (water.entries src (by rintro rfl; simp at hs) (by rintro rfl; simp at hs)).1
  · obtain ⟨raises, stowed, stands, -⟩ := ends.arm a
    rw [wArm] at stowed stands
    refine ⟨fun hs => (tArm a).trans (stowed hs), fun hs => (tArm a).trans (stands hs), fun hr => ?_⟩
    obtain ⟨posted, record⟩ := raises ((State.raises_congr (wArm a)).2 hr)
    obtain ⟨-, acted⟩ := ends.acts ⟨a, .inl ((State.raises_congr (wArm a)).2 hr)⟩
    refine ⟨?_, State.armPosted_raising_congr (by rw [record]) posted (tArm a) fun ch hc => ?_, told _ (by decide) acted⟩
    · rw [wArm, wNow, wProgram] at record
      rw [tArm, now]
      exact record
    · rw [tOutput]; exact water.channels ch (armOfChannel_bounds hc).2

theorem State.LossRun.body (h : State.LossRun .body u v w m t) : State.BodyLost u t := by
  have middle : State.BodyLoss w m := by rw [h.middle]; exact State.bodyLoss_spec w
  have wUnit := h.unit
  have mode : w.unit.mode = u.unit.mode := by rw [wUnit]
  have wArms : w.arms = u.arms := by rw [h.first.rest, h.begun.rest]; rfl
  have wGov : w.gov = u.gov := by rw [h.first.rest, h.begun.rest]; rfl
  have tUnit : t.unit = m.unit := by rw [h.last.rest]
  have tGov : t.gov = m.gov := by rw [h.last.rest]
  have tArms : t.arms = m.arms := by rw [h.last.rest]
  have tSpray : t.spray = m.spray := by rw [h.last.rest]
  have stands := middle.stands
  have serves := middle.serves
  have silent := middle.silent
  have sweeps := middle.sweeps
  have gov := middle.keeps.gov
  rw [mode, wArms, wGov] at stands
  rw [mode] at serves silent sweeps
  rw [wGov] at gov
  refine ⟨fun b => by rw [tSpray]; exact middle.bars b, fun hs => ?_, fun hs => ?_, fun hs => ⟨fun l => ?_, fun l => ?_⟩,
    fun hs hn k x hx => ?_, by rw [tGov]; exact gov, ?_⟩
  · obtain ⟨z, ends, water⟩ := sweeps hs
    have all := h.sweeps ends water
    simp only [State.raises_iff] at all
    exact all
  · obtain ⟨arms, gov, unit⟩ := stands hs
    refine ⟨tArms.trans arms, tGov.trans gov, ?_⟩
    rw [tUnit, unit, wUnit]
  · exact (h.last.events l _ (by decide)).1.trans ((serves hs).1 l)
  · exact (h.last.events l _ (by decide)).1.trans ((serves hs).2 l)
  · simp only [List.mem_cons, List.not_mem_nil, or_false, not_or] at hx
    have rests : u.unit.mode = .transport ∨ u.unit.mode = .leaving := by
      generalize u.unit.mode = mode at hs hn
      cases mode <;> simp at hs hn ⊢
    have begun := EventSet.sameKind_trans (h.begun.events k x (by simp) hx.2.2.2.2) (h.first.events k hx.2.2.1)
    exact EventSet.sameKind_trans (EventSet.sameKind_trans begun (silent rests k x hx.2.2.2.2)) (h.last.events k x (by simp [hx]))
  · have whole := h.still (by
      have rest := middle.keeps.rest
      have links : m.links = w.links := by rw [rest]
      exact rest)
    exact whole

end

/-- Settles O13: the parts of a loss, put together for either link. -/
theorem deadlineLosesLink : Obligations.DeadlineLosesLink := by
  intro after l s e he hr
  have expires : due (s.elapse after).now ((s.elapse after).link l).timer = true :=
    due_some (by rw [State.elapse_link]; exact he) hr
  refine ⟨fun hl => ?_, fun hl => ?_⟩
  · obtain ⟨v, w, m, run⟩ := State.lossRun_spec l (s.elapse after)
    have acts : exec (.deadlineExpiry after l) s = .next ((s.elapse after).loseLink l) := by
      refine congrArg Host.Outcome.next ?_
      unfold State.deadline
      rw [if_pos expires, State.elapse_link, hl]
    refine ⟨v, _, acts, ?_⟩
    have loses := run.loses
    have counted := loses.counted
    have tallies := loses.tallies
    rw [State.elapse_tallies] at counted tallies
    refine ⟨loses.own, loses.other, loses.window, loses.staging, loses.channels, loses.reports, loses.active, ?_, loses.since,
      loses.entry, loses.raises, loses.peer, loses.claim, loses.restart, loses.lapses, loses.masks, counted, tallies, ?_, ?_⟩
    · rw [loses.cap]; cases l <;> rfl
    · rintro rfl
      have lost := run.drive
      exact ⟨lost.gov, lost.ceiling, lost.others, lost.binding, lost.events, lost.free, lost.held, lost.rest⟩
    · rintro rfl
      have lost := run.body
      exact ⟨lost.bars, lost.sweeps, lost.stands, lost.serves, fun hs hn => lost.silent hs fun hm => hn ⟨rfl, hm⟩, lost.gov, lost.rest⟩
  · have acts : exec (.deadlineExpiry after l) s =
        .next ((s.elapse after).modLink l fun x => { x with state := .lost, timer := none }) := by
      refine congrArg Host.Outcome.next ?_
      unfold State.deadline
      rw [if_pos expires, State.elapse_link, hl]
    refine ⟨_, acts, by cases l <;> rfl, ?_, ?_, rfl⟩
    · rw [State.modLink_same]; rfl
    · rw [State.modLink_other (by cases l <;> decide)]; rfl

end Sys2Proof.Machine
end

section
/-! WRITE_SETTING (R49, R182): the cap posts of a taken write, and a write in the frame that makes its link LIVE (R55). -/

namespace Sys2Proof.Machine

/-! ### The answers of WRITE_SETTING (R182) -/

section
variable {l : Link} {group index item : Byte} {value : Half} {k : Setting} {s : State}

theorem State.writeSetting_taken (hk : settingAt group.toNat index.toNat item.toNat = some k) (hl : k.owner = l)
    (open' : s.settingsOpen = true) (ha : k.accepts s.settings value.toInt = true) :
    s.writeSetting l group index item value = answer .done (s.takeSetting k value.toInt) := by
  simp only [State.writeSetting, hk, hl, ne_eq, not_true_eq_false, if_false, open', ha, Bool.not_true, Bool.false_eq_true]

end

theorem State.taken_settingsOpen (h : Head) (s : State) : (s.taken h).settingsOpen = s.settingsOpen := by
  unfold State.settingsOpen
  rw [State.taken_unit, State.taken_travel, State.taken_gov]

/-! ### A write in a first frame -/

/-- A first frame of the drive link. -/
def firstDriveFrame : Head := { link := .drive, tag := 0, live := 0, after := 0 }

/-- The reset state takes the wheel pitch 100 from the drive link's first frame. -/
theorem reset_takes_pitch : ∃ t : State,
    exec (.writeSetting firstDriveFrame 1 0 0 100) State.reset = .next (t.answered firstDriveFrame 7 .done []) ∧
    (t.ceiling.entry .driveLoss).active = false := by
  have passes : State.reset.passes firstDriveFrame 7 := ⟨rfl, by decide⟩
  have taken := State.writeSetting_taken (group := 1) (index := 0) (item := 0) (value := 100) (k := .pitchLeft) (l := .drive)
    (s := State.reset.taken firstDriveFrame) rfl rfl (by decide) (by decide)
  exact ⟨_, congrArg Host.Outcome.next (State.serve_eq_answered passes taken), by decide⟩

/-- Refutes O18: after reset the first frame of the drive link makes that link LIVE, which deactivates DRIVE_LOSS (R55); the
obligation has the activity of every entry as it stood before the frame. -/
theorem not_settingsAreWritten : ¬ Obligations.SettingsAreWritten := by
  intro holds
  obtain ⟨-, -, -, writes⟩ := holds.1 firstDriveFrame 1 0 0 100 State.reset ⟨rfl, by decide⟩
  obtain ⟨-, taken⟩ := writes .pitchLeft rfl rfl (.inl rfl) rfl rfl
  obtain ⟨t, answers, -, -, -, entries, -⟩ := taken (by decide)
  obtain ⟨t', answers', inactive⟩ := reset_takes_pitch
  have same : t.answered firstDriveFrame 7 .done [] = t'.answered firstDriveFrame 7 .done [] :=
    Host.Outcome.next.inj (answers.symm.trans answers')
  have ceiling : t.ceiling = t'.ceiling := by
    have answered := congrArg (fun x : State => x.ceiling) same
    exact answered
  have stands := (entries .driveLoss).1
  rw [ceiling, inactive] at stands
  exact absurd stands (by decide)

/-! ### The cap posts (R49) -/

section
variable {k : Setting} {value : Half} {s t : State}

/-- An accepted cap value is no negative number, so both readings of it agree. -/
theorem Half.toInt_toNat {v : Half} (h : 0 ≤ v.toInt) : v.toInt.toNat = v.toNat := by
  have := BitVec.toInt_eq_toNat_cond v
  have := v.isLt
  split at * <;> omega

/-- The caps of group 2 take no value below 20. -/
theorem Setting.accepts_nonneg {x : Settings} {v : Int} {n : Nat} (hk : settingAt 2 0 n = some k) (ha : k.accepts x v = true) :
    0 ≤ v := by
  have mem : k ∈ singleItems 2 := List.mem_of_getElem? hk
  simp only [Setting.accepts, Bool.and_eq_true, decide_eq_true_eq] at ha
  simp only [singleItems, List.mem_cons, List.not_mem_nil, or_false] at mem
  rcases mem with rfl | rfl | rfl | rfl | rfl | rfl | rfl | rfl | rfl | rfl | rfl | rfl | rfl <;>
    exact Int.le_trans (by decide) ha.1.1

theorem Setting.owner_of_caps {n : Nat} (hk : settingAt 2 0 n = some k) : k.owner = .drive := by
  have mem : k ∈ singleItems 2 := List.mem_of_getElem? hk
  simp only [singleItems, List.mem_cons, List.not_mem_nil, or_false] at mem
  rcases mem with rfl | rfl | rfl | rfl | rfl | rfl | rfl | rfl | rfl | rfl | rfl | rfl | rfl <;> rfl

/-- The entry that a cap setting posts to, and the cap it posts (R49, R51, R54, R55). -/
def Setting.post (s : State) : Setting → Option (Source × Nat)
  | .transportMax => some (.mode, s.modeCap)
  | .shiftSpeed => some (.rangeShift, s.settings.caps.shiftSpeed)
  | .armMove => some (.armTransition, s.settings.caps.armMove)
  | .yieldCap => some (.armYield, s.settings.caps.yieldCap)
  | .slopeCap1 | .slopeCap2 =>
    if s.scan.slope = .zero then none else some (.slope, slopeCap s.settings.caps s.scan.slope)
  | .traction => some (.traction, s.settings.caps.traction)
  | .oilCap => some (.oilHot, s.settings.caps.oilCap)
  | .sensorCap => some (.sensorFault, s.settings.caps.sensorCap)
  | .crawl => some (.bodyLoss, s.settings.caps.crawl)
  | _ => none

theorem State.postCap_eq (k : Setting) (s : State) : s.postCap k = match k.post s with
    | some (src, cap) => s.updateCap src cap
    | none => s := by
  cases k with
  | slopeCap1 | slopeCap2 =>
    unfold State.postCap Setting.post
    dsimp only
    split <;> rfl
  | _ => rfl

theorem State.postCap_some {src : Source} {cap : Nat} (h : k.post s = some (src, cap)) :
    ((s.postCap k).ceiling.entry src).cap = cap := by
  rw [State.postCap_eq, h]
  exact (State.updateCap_spec src cap s).2.1

theorem State.postCap_active (k : Setting) (s : State) (src : Source) :
    ((s.postCap k).ceiling.entry src).active = (s.ceiling.entry src).active := by
  rw [State.postCap_eq]
  split
  · next x cap _ =>
    by_cases hs : src = x
    · subst hs; exact (State.updateCap_spec src cap s).1
    · exact (State.updateCap_other (s := s) cap hs).1
  · rfl

theorem State.takeSetting_cap {n : Nat} {v : Int} (hk : settingAt 2 0 n = some k) :
    s.takeSetting k v = (s.modSettings fun x => x.put v k).postCap k := by
  have mem : k ∈ singleItems 2 := List.mem_of_getElem? hk
  simp only [singleItems, List.mem_cons, List.not_mem_nil, or_false] at mem
  rcases mem with rfl | rfl | rfl | rfl | rfl | rfl | rfl | rfl | rfl | rfl | rfl | rfl | rfl <;> rfl

end

/-- Step 1 of R180 touches the link's loss entry alone. -/
theorem State.taken_entry (h : Head) (s : State) {src : Source} (hs : src ≠ lossEntry h.link) :
    (s.taken h).ceiling.sameEntry s.ceiling src := by
  by_cases becomes : ((s.taken h).link h.link).state = .live ∧ (s.link h.link).state ≠ .live
  · rw [State.taken_becomesLive becomes.1 becomes.2]
    exact State.deactivate_other (s := s.refreshed h) hs
  · rw [State.taken_stays (by tauto)]
    exact ⟨rfl, rfl, rfl⟩

theorem State.settingsOpen_mode {s : State} (h : s.settingsOpen = true) : s.unit.mode = .transport ∨ s.unit.mode = .service := by
  simp only [State.settingsOpen, Bool.and_eq_true, Bool.or_eq_true, beq_iff_eq] at h
  exact h.1.1

theorem State.modeCap_parked {s : State} (h : s.unit.mode = .transport ∨ s.unit.mode = .service) :
    s.modeCap = if s.unit.mode = .service then 0 else s.settings.caps.transportMax := by
  unfold State.modeCap
  rcases h with h | h <;> rw [h] <;> rfl

/-- Settles O19: a taken cap write is one post of the value that its setting then has. -/
theorem capSettingsPosted : Obligations.CapSettingsPosted := by
  intro h item value s t k hp hk he _ opened hl ha
  have taken := State.writeSetting_taken (group := 2) (index := 0) (l := h.link) (s := s.taken h) hk
    (by rw [hl]; exact Setting.owner_of_caps hk) (by rw [State.taken_settingsOpen]; exact opened)
    (by rw [State.taken_settings]; exact ha)
  have acts : exec (.writeSetting h 2 0 item value) s = _ := congrArg Host.Outcome.next (State.serve_eq_answered hp taken)
  have ceiling : t.ceiling = ((s.taken h).takeSetting k value.toInt).ceiling := by
    rw [← Host.Outcome.next.inj (acts.symm.trans he)]
    rfl
  rw [State.takeSetting_cap hk] at ceiling
  have word := Half.toInt_toNat (Setting.accepts_nonneg hk ha)
  have posted {src : Source} {cap : Nat} (hs : k.post ((s.taken h).modSettings fun x => x.put value.toInt k) = some (src, cap)) :
      (t.ceiling.entry src).cap = cap := by
    rw [ceiling]; exact State.postCap_some hs
  rw [← word]
  refine ⟨?_, ?_, ?_, ?_, ?_, ?_, ?_, ?_, ?_, ?_, ?_, fun src => by rw [ceiling]; exact State.postCap_active _ _ _⟩
  case _ | _ | _ | _ | _ | _ | _ => rintro rfl; exact posted rfl
  · rintro rfl
    rw [posted rfl, State.modeCap_parked (s := (s.taken h).modSettings _)
      (show ((s.taken h).unit.mode = _ ∨ (s.taken h).unit.mode = _) by
        rw [State.taken_unit]; exact State.settingsOpen_mode opened)]
    show (if (s.taken h).unit.mode = _ then _ else _) = _
    rw [State.taken_unit]
    rfl
  · rintro rfl hs
    rw [posted (if_neg (by show ¬(s.taken h).scan.slope = _; rw [State.taken_scan, hs]; decide))]
    show slopeCap _ (s.taken h).scan.slope = _
    rw [State.taken_scan, hs]
    rfl
  · rintro rfl hs
    rw [posted (if_neg (by show ¬(s.taken h).scan.slope = _; rw [State.taken_scan, hs]; decide))]
    show slopeCap _ (s.taken h).scan.slope = _
    rw [State.taken_scan, hs]
    rfl
  · intro hk hs
    have none : k.post ((s.taken h).modSettings fun x => x.put value.toInt k) = none := by
      have zero : (s.taken h).scan.slope = .zero := by rw [State.taken_scan]; exact hs
      rcases hk with rfl | rfl <;> exact if_pos zero
    rw [ceiling, State.postCap_eq, none]
    exact (State.taken_entry h s (by cases h.link <;> decide)).2.1

end Sys2Proof.Machine
end

section
/-! The travel unit beside its own record: the restart window over rises of ground speed (R187), and TRACTION (R39). -/

namespace Sys2Proof.Machine

/-! ### The restart window (R187) -/

/-- The unit's own record has changed from `u` to `t`, with the restart window as its rises of ground speed leave it. -/
structure State.WindowRun (rises : Prop) (u t : State) : Prop where
  follows : State.WindowFollows rises u t
  events : ∀ (l : Link) (k : EventKind), k ≠ .restartLapsed → (t.notices.events l).sameKind (u.notices.events l) k
  masks : ∀ l : Link, (t.notices.events l).mask = (u.notices.events l).mask
  alarms : t.notices.alarms = u.notices.alarms
  rest : t = { u with travel := t.travel, links := t.links, notices := t.notices }

section
variable {p q : Prop} {r s t u v : State}

/-- The window over two changes in turn: the first that rises closes it. -/
theorem State.WindowFollows.trans (h : State.WindowFollows p u v) (k : State.WindowFollows q v t) :
    State.WindowFollows (p ∨ q) u t := by
  obtain ⟨links, closes, stands⟩ := h
  obtain ⟨links', closes', stands'⟩ := k
  refine ⟨fun l => (links' l).trans (links l), fun hpq a ha => ?_, fun hn => ?_⟩
  · by_cases hp : p
    · obtain ⟨none, told, counted, other⟩ := closes hp a ha
      obtain ⟨same, kinds⟩ := stands' (.inr none)
      refine ⟨by rw [same]; exact none, ?_, ?_, EventSet.sameKind_trans other (kinds _)⟩
      · exact (kinds a.holder).1.trans told
      · exact (kinds a.holder).2.trans counted
    · obtain ⟨same, kinds⟩ := stands (.inl hp)
      obtain ⟨none, told, counted, other⟩ := closes' (hpq.resolve_left hp) a (by rw [same]; exact ha)
      refine ⟨none, told, ?_, EventSet.sameKind_trans (kinds _) other⟩
      rw [counted, show (v.notices.events a.holder).counts[10] = _ from (kinds a.holder).2]
      rfl
  · have first : v.links = u.links ∧ ∀ l : Link, (v.notices.events l).sameKind (u.notices.events l) .restartLapsed :=
      stands (hn.imp (fun h hp => h (.inl hp)) id)
    have second := stands' (hn.imp (fun h hq => h (.inr hq)) fun h => by rw [first.1]; exact h)
    exact ⟨second.1.trans first.1, fun l => EventSet.sameKind_trans (first.2 l) (second.2 l)⟩

/-- The window depends on the links and on RESTART_LAPSED alone. -/
theorem State.windowFollows_of_same (links : t.links = u.links)
    (events : ∀ l : Link, (t.notices.events l).sameKind (u.notices.events l) .restartLapsed) :
    State.WindowFollows False u t :=
  ⟨fun l => by unfold State.link; rw [links], False.elim, fun _ => ⟨links, events⟩⟩

theorem State.WindowFollows.iff (h : State.WindowFollows p u t) (hpq : p ↔ q) : State.WindowFollows q u t := propext hpq ▸ h

theorem State.WindowRun.trans (h : State.WindowRun p u v) (k : State.WindowRun q v t) : State.WindowRun (p ∨ q) u t where
  follows := h.follows.trans k.follows
  events l x hx := EventSet.sameKind_trans (h.events l x hx) (k.events l x hx)
  masks l := (k.masks l).trans (h.masks l)
  alarms := k.alarms.trans h.alarms
  rest := by
    have second := k.rest
    rw [h.rest] at second
    exact second

theorem State.WindowRun.iff (h : State.WindowRun p u t) (hpq : p ↔ q) : State.WindowRun q u t := propext hpq ▸ h

theorem State.windowRun_of_travel (h : t = { u with travel := t.travel }) : State.WindowRun False u t := by
  have links : t.links = u.links := by rw [h]
  have notices : t.notices = u.notices := by rw [h]
  refine ⟨State.windowFollows_of_same links fun l => by rw [notices]; exact ⟨rfl, rfl⟩,
    fun l k _ => by rw [notices]; exact ⟨rfl, rfl⟩, fun l => by rw [notices], by rw [notices], ?_⟩
  rw [links, notices]
  exact h

theorem State.windowRun_refl : State.WindowRun False u u := State.windowRun_of_travel rfl

/-- An open window that lapses is told to its holder alone, and nothing else moves. -/
theorem State.lapseWindow_rest (s : State) :
    (∀ (l : Link) (k : EventKind), k ≠ .restartLapsed → (s.lapseWindow.notices.events l).sameKind (s.notices.events l) k) ∧
    (∀ l : Link, (s.lapseWindow.notices.events l).mask = (s.notices.events l).mask) ∧
    s.lapseWindow.notices.alarms = s.notices.alarms ∧
    s.lapseWindow = { s with links := s.lapseWindow.links, notices := s.lapseWindow.notices } := by
  cases hw : s.links.window with
  | none =>
    have e : s.lapseWindow = s := by simp only [State.lapseWindow, hw]
    rw [e]
    exact ⟨fun _ _ _ => ⟨rfl, rfl⟩, fun _ => rfl, rfl, rfl⟩
  | some w =>
    obtain ⟨-, own, other, alarms, rest⟩ := State.lapseWindow_open hw
    have posted := EventSet.post_spec .restartLapsed (s.notices.events w.holder)
    refine ⟨fun l k hk => ?_, fun l => ?_, alarms, rest⟩
    · by_cases hl : l = w.holder
      · rw [hl, own]; exact posted.2.2.2 k hk
      · rw [Link.ne_iff_eq_other.1 hl, other]; exact ⟨rfl, rfl⟩
    · by_cases hl : l = w.holder
      · rw [hl, own]; exact posted.2.2.1
      · rw [Link.ne_iff_eq_other.1 hl, other]

theorem State.formGround_run (s : State) : State.WindowRun (Travel.Rises s.travel s.formGround.travel) s s.formGround := by
  obtain ⟨travel, -, follows⟩ := State.formGround_spec s
  have whole : (∀ (l : Link) (k : EventKind), k ≠ .restartLapsed →
      (s.formGround.notices.events l).sameKind (s.notices.events l) k) ∧
      (∀ l : Link, (s.formGround.notices.events l).mask = (s.notices.events l).mask) ∧
      s.formGround.notices.alarms = s.notices.alarms ∧
      s.formGround = { s with
        travel := s.formGround.travel, links := s.formGround.links, notices := s.formGround.notices } := by
    obtain ⟨v, hv⟩ : ∃ v : State, v = s.modTravel fun t => { t with ground := t.groundOf, dir := t.dirOf } := ⟨_, rfl⟩
    by_cases rises : v.travel.ground ≠ s.travel.ground ∧ 0 < v.travel.ground
    · have e : s.formGround = v.lapseWindow := by rw [hv] at rises ⊢; exact if_pos rises
      obtain ⟨events, masks, alarms, rest⟩ := State.lapseWindow_rest v
      rw [← e] at events masks alarms rest
      have vNotices : v.notices = s.notices := by rw [hv]; rfl
      rw [vNotices] at events masks alarms
      refine ⟨events, masks, alarms, ?_⟩
      rw [hv] at rest
      rw [travel]
      exact rest
    · have e : s.formGround = v := by rw [hv] at rises ⊢; exact if_neg rises
      rw [e, hv]
      exact ⟨fun _ _ _ => ⟨rfl, rfl⟩, fun _ => rfl, rfl, rfl⟩
  obtain ⟨events, masks, alarms, rest⟩ := whole
  exact ⟨follows, events, masks, alarms, rest⟩

theorem State.checkWatch_run (s : State) : State.WindowRun False s s.checkWatch := by
  refine State.windowRun_of_travel ?_
  rw [(State.checkWatch_spec s).2]

/-! ### TRACTION (R39), beside what has been posted before -/

/-- What a change of the Ceiling Table reports does not depend on what other blocks have posted: the same change of `r`, which
has the table, the time and the reference of `s`, reports alike. -/
theorem State.changeCeiling_alike (f : CeilingTable → CeilingTable) (ceiling : r.ceiling = s.ceiling) (now : r.now = s.now)
    (vRef : r.gov.vRef = s.gov.vRef)
    (events : ∀ l : Link, (r.notices.events l).sameKind (s.notices.events l) .ceilingBinding)
    (stops : r.bank.tallies[Tally.index .urgentStops] = s.bank.tallies[Tally.index .urgentStops]) :
    (r.changeCeiling f).ceiling = (s.changeCeiling f).ceiling ∧
    (∀ l : Link, ((r.changeCeiling f).notices.events l).sameKind ((s.changeCeiling f).notices.events l) .ceilingBinding) ∧
    (r.changeCeiling f).bank.tallies[Tally.index .urgentStops] = (s.changeCeiling f).bank.tallies[Tally.index .urgentStops] := by
  have posted (x y : State) (h : ∀ l : Link, (x.notices.events l).sameKind (y.notices.events l) .ceilingBinding) (l : Link) :
      ((x.postBoth .ceilingBinding).notices.events l).sameKind ((y.postBoth .ceilingBinding).notices.events l)
        .ceilingBinding := by
    rw [State.postBoth_events, State.postBoth_events]
    have a := EventSet.post_spec .ceilingBinding (x.notices.events l)
    have b := EventSet.post_spec .ceilingBinding (y.notices.events l)
    exact ⟨a.1.trans b.1.symm, by rw [a.2.1, b.2.1, (h l).2]⟩
  by_cases stays : (f s.ceiling).reported = s.ceiling.reported
  · have er : r.changeCeiling f = r.modCeiling f := if_pos (by show (f r.ceiling).reported = _; rw [ceiling]; exact stays)
    have es : s.changeCeiling f = s.modCeiling f := if_pos stays
    rw [er, es]
    exact ⟨congrArg f ceiling, events, stops⟩
  · obtain ⟨x, hx⟩ : ∃ x : State → State, x = fun y => ((y.modCeiling f).modCeiling fun t =>
        { t.modEntry (f s.ceiling).reported (fun e => { e with engagements := min 65535 (e.engagements + 1) }) with
          lastChange := y.now }).postBoth .ceilingBinding := ⟨_, rfl⟩
    obtain ⟨counts, hc⟩ : ∃ c : Bool, c = ((f s.ceiling).reported.urgent && !s.ceiling.reported.urgent &&
        decide (0 < s.gov.vRef)) := ⟨_, rfl⟩
    have es : s.changeCeiling f = if counts = true then (x s).bump .urgentStops else x s := by
      rw [hc, hx]; exact if_neg stays
    have er : r.changeCeiling f = if counts = true then (x r).bump .urgentStops else x r := by
      have e : r.changeCeiling f = _ := if_neg (show ¬(f r.ceiling).reported = r.ceiling.reported by rw [ceiling]; exact stays)
      rw [hc, hx, e]
      show (if ((f r.ceiling).reported.urgent && !r.ceiling.reported.urgent && decide (0 < r.gov.vRef)) = true then _ else _) = _
      rw [ceiling, vRef]
      show (if _ then (((r.modCeiling f).modCeiling fun t =>
        { t.modEntry (f r.ceiling).reported _ with lastChange := r.now }).postBoth .ceilingBinding).bump .urgentStops
        else ((r.modCeiling f).modCeiling fun t =>
        { t.modEntry (f r.ceiling).reported _ with lastChange := r.now }).postBoth .ceilingBinding) = _
      rw [ceiling]
    have table : (x r).ceiling = (x s).ceiling := by
      rw [hx]
      show ({ (f r.ceiling).modEntry _ _ with lastChange := r.now } : CeilingTable) =
        { (f s.ceiling).modEntry _ _ with lastChange := s.now }
      rw [ceiling, now]
    have kinds : ∀ l : Link, ((x r).notices.events l).sameKind ((x s).notices.events l) .ceilingBinding := by
      rw [hx]
      exact posted _ _ events
    have tallies : (x r).bank.tallies[Tally.index .urgentStops] = (x s).bank.tallies[Tally.index .urgentStops] := by
      rw [hx]; exact stops
    rw [er, es]
    cases counts with
    | false => exact ⟨table, kinds, tallies⟩
    | true =>
      refine ⟨table, kinds, ?_⟩
      rw [if_pos rfl, if_pos rfl]
      exact ((State.bumpBy_tallies .urgentStops 1 (x r)).1.trans (by rw [tallies])).trans
        (State.bumpBy_tallies .urgentStops 1 (x s)).1.symm

end

end Sys2Proof.Machine
end

section
/-! O29: the timed events of the travel unit (R34, R35, R39 to R43, R187). -/

namespace Sys2Proof.Machine

/-! ### The records of the wheels -/

section
variable {w : Wheel} {f : WheelRec → WheelRec} {s : State}

@[simp] theorem Travel.modWheel_same (w : Wheel) (f : WheelRec → WheelRec) (t : Travel) :
    (t.modWheel w f).wheel w = f (t.wheel w) := by cases w <;> rfl

@[simp] theorem Travel.modWheel_other (w : Wheel) (f : WheelRec → WheelRec) (t : Travel) :
    (t.modWheel w f).wheel w.other = t.wheel w.other := by cases w <;> rfl

theorem Travel.modWheel_rest (w : Wheel) (f : WheelRec → WheelRec) (t : Travel) :
    t.modWheel w f = { t with left := (t.modWheel w f).left, right := (t.modWheel w f).right } := by cases w <;> rfl

/-- A wheel's record has changed, and ground speed and direction have been formed again (R40, R41, R187). -/
structure State.WheelFormed (w : Wheel) (f : WheelRec → WheelRec) (s t : State) : Prop where
  own : t.travel.wheel w = f (s.travel.wheel w)
  other : t.travel.wheel w.other = s.travel.wheel w.other
  travel : t.travel = { s.travel with
    left := t.travel.left, right := t.travel.right, ground := t.travel.ground, dir := t.travel.dir }
  formed : t.travel.Formed s.travel.dir
  run : State.WindowRun (Travel.Rises s.travel t.travel) s t

theorem State.modWheel_formed (w : Wheel) (f : WheelRec → WheelRec) (s : State) :
    State.WheelFormed w f s (s.modWheel w f).formGround := by
  obtain ⟨v, hv⟩ : ∃ v, v = s.modWheel w f := ⟨_, rfl⟩
  obtain ⟨travel, formed, -⟩ := State.formGround_spec v
  have run := State.formGround_run v
  have marked : State.WindowRun False s v := State.windowRun_of_travel (by rw [hv]; rfl)
  have vTravel : v.travel = s.travel.modWheel w f := by rw [hv]; rfl
  rw [← hv]
  generalize v.formGround = t at *
  have ground : v.travel.ground = s.travel.ground := by rw [vTravel]; cases w <;> rfl
  have dir : v.travel.dir = s.travel.dir := by rw [vTravel]; cases w <;> rfl
  have wheel : ∀ k, t.travel.wheel k = v.travel.wheel k := fun k => by rw [travel]; cases k <;> rfl
  refine ⟨by rw [wheel, vTravel]; simp, by rw [wheel, vTravel]; simp, ?_, by rw [← dir]; exact formed, ?_⟩
  · have rest := Travel.modWheel_rest w f s.travel
    rw [← vTravel] at rest
    have left : t.travel.left = v.travel.left := by rw [travel]
    have right : t.travel.right = v.travel.right := by rw [travel]
    have groundOf : t.travel.ground = v.travel.groundOf := by rw [travel]
    have dirOf : t.travel.dir = v.travel.dirOf := by rw [travel]
    rw [left, right, groundOf, dirOf, travel]
    exact congrArg (fun x : Travel => { x with ground := v.travel.groundOf, dir := v.travel.dirOf }) rest
  · refine (marked.trans run).iff ?_
    unfold Travel.Rises
    rw [false_or, ground]

end

/-! ### The travel update (R34) -/

/-- What a travel update makes of one wheel's speed, from `a` to `b` (R34, R40 to R42). -/
def State.Decays (u : State) (w : Wheel) (a b : Travel) : Prop :=
  let x := a.wheel w
  let y := b.wheel w
  b = { a with left := b.left, right := b.right, watch := b.watch, ground := b.ground, dir := b.dir } ∧
  b.wheel w.other = a.wheel w.other ∧
  y = { x with speed := y.speed, movingSince := if x.speed = 0 ∧ 0 < y.speed then some u.now else x.movingSince } ∧
  (x.history = [] → y.speed = x.speed) ∧
  (x.history ≠ [] → ∀ e, x.lastEdge = some e → y.speed =
    u.settings.travel.pitch w * 100000 / max (x.history.sum / x.history.length) (since u.nowUs e)) ∧
  (y.speed = x.speed → b = a) ∧ (y.speed ≠ x.speed → b.Formed a.dir ∧ Travel.WatchChecked u.now a b)

/-- A wheel with no history keeps its speed, and one whose speed decays has everything formed again. -/
theorem State.decayWheel_spec (w : Wheel) (s : State) :
    State.Decays s w s.travel (s.decayWheel w).travel ∧
    State.WindowRun (Travel.Rises s.travel (s.decayWheel w).travel) s (s.decayWheel w) := by
  obtain ⟨v, hv⟩ : ∃ v, v = (s.travel.wheel w).decayed s.nowUs (s.settings.travel.pitch w) := ⟨_, rfl⟩
  have value : ∀ e, (s.travel.wheel w).lastEdge = some e → v = s.settings.travel.pitch w * 100000 /
      max ((s.travel.wheel w).history.sum / (s.travel.wheel w).history.length) (since s.nowUs e) := fun e he => by
    rw [hv]; simp only [WheelRec.decayed, he]; rfl
  by_cases moves : (s.travel.wheel w).history ≠ [] ∧ v ≠ (s.travel.wheel w).speed
  · have e : s.decayWheel w = ((s.modWheel w (WheelRec.withSpeed s.now v)).formGround).checkWatch := by
      unfold State.decayWheel
      dsimp only
      rw [← hv, if_pos moves]
    obtain ⟨own, other, travel, formed, run⟩ := State.modWheel_formed w (WheelRec.withSpeed s.now v) s
    generalize (s.modWheel w (WheelRec.withSpeed s.now v)).formGround = x at *
    obtain ⟨checked, rest⟩ := State.checkWatch_spec x
    have run' := run.trans (State.checkWatch_run x)
    rw [← e] at checked rest run'
    generalize s.decayWheel w = t at *
    have tTravel : t.travel = { x.travel with watch := t.travel.watch } := congrArg (fun z : State => z.travel) rest
    have wheel : ∀ k, t.travel.wheel k = x.travel.wheel k := fun k => by rw [tTravel]; cases k <;> rfl
    have watch : x.travel.watch = s.travel.watch := by rw [travel]
    have now : x.now = s.now := by unfold State.now; rw [run.rest]
    have ground : t.travel.ground = x.travel.ground := by rw [tTravel]
    have speed : (t.travel.wheel w).speed = v := by rw [wheel, own]; rfl
    refine ⟨⟨?_, by rw [wheel]; exact other, ?_, fun hh => absurd hh moves.1, fun _ e he => by rw [speed]; exact value e he,
      fun hs => absurd (speed.symm.trans hs) moves.2, fun _ => ⟨?_, ?_⟩⟩, ?_⟩
    · have left : t.travel.left = x.travel.left := by rw [tTravel]
      have right : t.travel.right = x.travel.right := by rw [tTravel]
      have dir : t.travel.dir = x.travel.dir := by rw [tTravel]
      rw [left, right, ground, dir]
      refine tTravel.trans ?_
      exact congrArg (fun z : Travel => { z with watch := t.travel.watch }) travel
    · rw [speed, wheel, own]
      rfl
    · rw [tTravel]; exact formed
    · unfold Travel.WatchChecked at checked ⊢
      rw [watch, now] at checked
      exact checked
    · refine run'.iff ?_
      unfold Travel.Rises
      rw [or_false, ground]
  · have e : s.decayWheel w = s := by
      unfold State.decayWheel
      dsimp only
      rw [← hv, if_neg moves]
    rw [e]
    refine ⟨⟨rfl, rfl, ?_, fun _ => rfl, fun hh e he => ?_, fun _ => rfl, fun hn => absurd rfl hn⟩, ?_⟩
    · rw [if_neg fun h => by omega]
    · rw [← value e he]
      by_contra hn
      exact moves ⟨hh, fun hv => hn hv.symm⟩
    · exact State.windowRun_refl.iff (by simp [Travel.Rises])

/-! ### TRACTION goes (R39) -/

/-- TRACTION is released from `u` to `t`, with the report of it. -/
def State.TractionReleased (u t : State) : Prop :=
  (t.ceiling.entry .traction).active = false ∧ (∀ src, src ≠ .traction → t.ceiling.sameEntry u.ceiling src) ∧
  ∃ r : State, State.CeilingReports u r ∧ t.ceiling = r.ceiling ∧
    t.bank.tallies[Tally.index .urgentStops] = r.bank.tallies[Tally.index .urgentStops] ∧
    ∀ l : Link, (t.notices.events l).sameKind (r.notices.events l) .ceilingBinding

/-- Nothing that the Ceiling Table reads or posts has moved from `u` to `s`. -/
structure State.CeilingKept (u s : State) : Prop where
  ceiling : s.ceiling = u.ceiling
  now : s.now = u.now
  vRef : s.gov.vRef = u.gov.vRef
  events : ∀ l : Link, (s.notices.events l).sameKind (u.notices.events l) .ceilingBinding
  stops : s.bank.tallies[Tally.index .urgentStops] = u.bank.tallies[Tally.index .urgentStops]

theorem State.WindowRun.kept {p : Prop} {u s : State} (h : State.WindowRun p u s) : State.CeilingKept u s where
  ceiling := by rw [h.rest]
  now := by unfold State.now; rw [h.rest]
  vRef := by rw [h.rest]
  events l := h.events l _ (by decide)
  stops := by rw [h.rest]

theorem State.CeilingKept.trans {u s t : State} (h : State.CeilingKept u s) (k : State.CeilingKept s t) :
    State.CeilingKept u t where
  ceiling := k.ceiling.trans h.ceiling
  now := k.now.trans h.now
  vRef := k.vRef.trans h.vRef
  events l := EventSet.sameKind_trans (h.events l) (k.events l)
  stops := k.stops.trans h.stops

theorem State.stopSlip_releases {u s t : State} (h : State.CeilingKept u s) (k : State.CeilingKept s.stopSlip t) :
    State.TractionReleased u t := by
  obtain ⟨ceiling, events, stops⟩ := State.changeCeiling_alike
    (CeilingTable.modEntry .traction fun e => { e with active := false })
    (r := s.modTravel fun t => { t with slipHold := none }) (s := u) h.ceiling h.now h.vRef h.events h.stops
  have table : t.ceiling = (u.deactivate .traction).ceiling := k.ceiling.trans ceiling
  exact ⟨by rw [table]; exact (State.deactivate_spec .traction u).1,
    fun src hs => by rw [table]; exact State.deactivate_other (s := u) hs,
    u.deactivate .traction, State.deactivate_reports .traction u, table, k.stops.trans stops,
    fun l => EventSet.sameKind_trans (events l) (k.events l)⟩

/-! ### The wheel-sensor fault begins (R43) -/

/-- A wheel-sensor fault of `w` begins, from `s` to `t`, in a unit whose ceiling stands as in `u`. -/
structure State.SensorFaultBegins (w : Wheel) (u s t : State) : Prop where
  travel : t.travel = { s.travel with
    watch := none, sensorFault := some w, slipHold := none, ground := t.travel.ground, dir := t.travel.dir }
  formed : t.travel.Formed s.travel.dir
  raises : State.Raises .wheelSensor (wheelDetail w) s t
  releases : s.travel.slipHold.isSome = true → State.TractionReleased u t
  stands : s.travel.slipHold = none → State.CeilingKept s t
  tallies : ∀ i : Tally, i ≠ .urgentStops → i ≠ .overflows → t.bank.tallies[i.index] = s.bank.tallies[i.index]
  events : ∀ (l : Link) (k : EventKind), k ∉ [EventKind.alarmRaised, .ceilingBinding, .restartLapsed] →
    (t.notices.events l).sameKind (s.notices.events l) k
  masks : ∀ l : Link, (t.notices.events l).mask = (s.notices.events l).mask
  follows : State.WindowFollows (Travel.Rises s.travel t.travel) s t
  rest : t = { s with
    travel := t.travel, ceiling := t.ceiling, links := t.links, notices := t.notices
    bank := { s.bank with tallies := t.bank.tallies } }

/-- Slip hold ends, where it runs, as a fault begins: the slip flag, and the post to TRACTION (R39). -/
theorem State.slipEnd_spec (s : State) :
    let t := if s.travel.slipHold.isSome then s.stopSlip else s
    t.travel = { s.travel with slipHold := none } ∧ (s.travel.slipHold = none → t = s) ∧
    (s.travel.slipHold.isSome = true → t = s.stopSlip) ∧ t.notices.alarms = s.notices.alarms ∧ t.now = s.now ∧
    (∀ l : Link, (t.notices.events l).mask = (s.notices.events l).mask ∧
      ∀ k : EventKind, k ≠ .ceilingBinding → (t.notices.events l).sameKind (s.notices.events l) k) ∧
    (∀ x : Tally, x ≠ .urgentStops → t.bank.tallies[x.index] = s.bank.tallies[x.index]) ∧
    t = { s with travel := t.travel, ceiling := t.ceiling, notices := t.notices
                 bank := { s.bank with tallies := t.bank.tallies } } := by
  intro t
  cases hs : s.travel.slipHold with
  | none =>
    have e : t = s := if_neg (by rw [hs]; decide)
    clear_value t
    subst e
    exact ⟨by rw [← hs], fun _ => rfl, (fun h => nomatch h), rfl, rfl, fun _ => ⟨rfl, fun _ _ => ⟨rfl, rfl⟩⟩, fun _ _ => rfl, rfl⟩
  | some e =>
    have e : t = s.stopSlip := if_pos (by rw [hs]; rfl)
    clear_value t
    obtain ⟨alarms, events, tallies, rest⟩ := State.changeCeiling_beside
      (CeilingTable.modEntry .traction fun e => { e with active := false }) (s.modTravel fun t => { t with slipHold := none })
    rw [show (s.modTravel fun t => { t with slipHold := none }).changeCeiling _ = s.stopSlip from rfl, ← e] at alarms events tallies rest
    have travel : t.travel = { s.travel with slipHold := none } := by rw [rest]; rfl
    exact ⟨travel, (fun h => nomatch h), fun _ => e, alarms, by unfold State.now; rw [rest]; rfl, events, tallies,
      by rw [travel]; exact rest⟩

theorem State.beginSensorFault_spec (w : Wheel) {u s : State} (before : State.CeilingKept u s) :
    State.SensorFaultBegins w u s (s.beginSensorFault w) := by
  obtain ⟨a, ha⟩ : ∃ a, a = s.modTravel fun t => { t with watch := none, sensorFault := some w } := ⟨_, rfl⟩
  obtain ⟨b, hb⟩ : ∃ b, b = a.raiseAlarm .wheelSensor (wheelDetail w) := ⟨_, rfl⟩
  obtain ⟨c, hc⟩ : ∃ c, c = if b.travel.slipHold.isSome then b.stopSlip else b := ⟨_, rfl⟩
  have e : s.beginSensorFault w = c.formGround := by rw [hc, hb, ha]; rfl
  have raises := State.raiseAlarm_raises .wheelSensor (wheelDetail w) a
  have posted := State.raiseAlarm_events .wheelSensor (wheelDetail w) a
  have counted := State.raiseAlarm_tallies .wheelSensor (wheelDetail w) a
  have frame := State.raiseAlarm_rest .wheelSensor (wheelDetail w) a
  have bBank : b.bank = { a.bank with tallies := b.bank.tallies } := by
    rw [hb]; unfold State.raiseAlarm; split <;> rfl
  rw [← hb] at raises posted counted frame
  have slip := State.slipEnd_spec b
  rw [← hc] at slip
  obtain ⟨cTravel, cStays, cStops, cAlarms, cNow, cEvents, cTallies, cRest⟩ := slip
  obtain ⟨travel, formed, -⟩ := State.formGround_spec c
  have last := State.formGround_run c
  rw [e]
  generalize c.formGround = t at *
  have aNotices : a.notices = s.notices := by rw [ha]; rfl
  have aBank : a.bank = s.bank := by rw [ha]; rfl
  have bTravel : b.travel = { s.travel with watch := none, sensorFault := some w } := by rw [frame, ha]; rfl
  have bSlip : b.travel.slipHold = s.travel.slipHold := by rw [bTravel]
  have ground : c.travel.ground = s.travel.ground := by rw [cTravel, bTravel]
  have dir : c.travel.dir = s.travel.dir := by rw [cTravel, bTravel]
  have tTravel : t.travel = { s.travel with
      watch := none, sensorFault := some w, slipHold := none, ground := t.travel.ground, dir := t.travel.dir } := by
    have groundOf : t.travel.ground = c.travel.groundOf := by rw [travel]
    have dirOf : t.travel.dir = c.travel.dirOf := by rw [travel]
    rw [groundOf, dirOf, travel, cTravel, bTravel]
  have kept : State.CeilingKept s b := ⟨by rw [frame, ha]; rfl, by unfold State.now; rw [frame, ha]; rfl, by rw [frame, ha]; rfl,
    fun l => by rw [posted, aNotices]; exact (EventSet.post_spec .alarmRaised _).2.2.2 _ (by decide),
    by rw [counted _ (by decide), aBank]⟩
  have bLinks : b.links = s.links := by rw [frame, ha]; rfl
  have cLinks : c.links = s.links := by rw [cRest]; exact bLinks
  have tBank : t.bank = c.bank := by rw [last.rest]
  refine ⟨tTravel, by rw [← dir]; exact formed, ⟨?_, fun l => ?_⟩, fun hs => ?_, fun hs => ?_, fun i h1 h2 => ?_,
    fun l k hk => ?_, fun l => ?_, ?_, ?_⟩
  · have now : t.now = b.now := by
      rw [← cNow]; unfold State.now; rw [last.rest]
    rw [now, last.alarms, cAlarms, ← aNotices]
    exact raises.1
  · rw [(last.events l .alarmRaised (by decide)).1, ((cEvents l).2 .alarmRaised (by decide)).1]
    exact raises.2 l
  · have stops := cStops (by rw [bSlip]; exact hs)
    have after := last.kept
    rw [stops] at after
    exact State.stopSlip_releases (before.trans kept) after
  · have stays := cStays (by rw [bSlip]; exact hs)
    rw [stays] at last
    exact kept.trans last.kept
  · rw [tBank, cTallies i h1, counted i h2, aBank]
  · simp only [List.mem_cons, List.not_mem_nil, or_false, not_or] at hk
    refine EventSet.sameKind_trans (EventSet.sameKind_trans ?_ ((cEvents l).2 k hk.2.1)) (last.events l k hk.2.2)
    rw [posted, aNotices]
    exact (EventSet.post_spec .alarmRaised _).2.2.2 k hk.1
  · rw [last.masks, (cEvents l).1, posted, aNotices]
    exact (EventSet.post_spec .alarmRaised _).2.2.1
  · have first : State.WindowFollows False s c := State.windowFollows_of_same cLinks fun l => by
      refine EventSet.sameKind_trans ?_ ((cEvents l).2 .restartLapsed (by decide))
      rw [posted, aNotices]
      exact (EventSet.post_spec .alarmRaised _).2.2.2 _ (by decide)
    refine (first.trans last.follows).iff ?_
    unfold Travel.Rises
    rw [false_or, ground]
  · have whole := last.rest
    have cBank : c.bank = { s.bank with tallies := c.bank.tallies } := by
      have : c.bank = { b.bank with tallies := c.bank.tallies } := by rw [cRest]
      rw [bBank, aBank] at this
      exact this
    have tCeiling : t.ceiling = c.ceiling := by rw [last.rest]
    rw [tBank, tCeiling]
    rw [← cBank]
    have cWhole : c = { s with travel := c.travel, ceiling := c.ceiling, notices := c.notices, bank := c.bank } := by
      have second := cRest
      have : c.bank = { b.bank with tallies := c.bank.tallies } := by rw [cRest]
      rw [← this, frame, ha] at second
      exact second
    rw [cWhole] at whole
    exact whole

end Sys2Proof.Machine
end

section
/-! O29: travel update, pulse timeout and the end of slip hold (R34, R35, R39). -/

namespace Sys2Proof.Machine

section
variable {s t u : State}

/-- The update from which the faults are judged: both wheels decayed, the left first (R34, entry 40). -/
def State.decayed (s : State) : State := (s.decayWheel .left).decayWheel .right

theorem State.Decays.rises {w : Wheel} {a b : Travel} (h : State.Decays u w a b) :
    b = { a with left := b.left, right := b.right, watch := b.watch, ground := b.ground, dir := b.dir } := h.1

theorem State.travelUpdate_stands (h : s.decayed.travel.sensorFault ≠ none ∨
    ∀ x, s.decayed.travel.watch = some x → since s.decayed.now x.since < 3000) : s.travelUpdate = s.decayed := by
  unfold State.travelUpdate
  dsimp only
  rw [show (s.decayWheel .left).decayWheel .right = s.decayed from rfl]
  generalize s.decayed = d at *
  cases hw : d.travel.watch with
  | none => rfl
  | some x =>
    refine if_neg fun ⟨fault, time⟩ => h.elim (fun hn => hn (Option.isNone_iff_eq_none.1 fault)) fun hn => ?_
    have := hn x hw
    omega

theorem State.travelUpdate_faults {x : Watch} (hf : s.decayed.travel.sensorFault = none) (hw : s.decayed.travel.watch = some x)
    (ht : 3000 ≤ since s.decayed.now x.since) : s.travelUpdate = s.decayed.beginSensorFault x.wheel := by
  unfold State.travelUpdate
  dsimp only
  rw [show (s.decayWheel .left).decayWheel .right = s.decayed from rfl, hw]
  exact if_pos ⟨by rw [hf]; rfl, ht⟩

/-- A pulse timeout clears its wheel and has everything formed again (R35). -/
theorem State.pulseTimeout_spec (w : Wheel) (s : State) :
    let t := s.pulseTimeout w
    t.travel.wheel w = { s.travel.wheel w with
      history := [], lastEdge := none, edgeSpeed := none, speed := 0, movingSince := none, timeout := none } ∧
    t.travel.wheel w.other = s.travel.wheel w.other ∧
    t.travel = { s.travel with
      left := t.travel.left, right := t.travel.right, watch := t.travel.watch, ground := t.travel.ground
      dir := t.travel.dir } ∧
    t.travel.Formed s.travel.dir ∧ ((s.travel.wheel w).speed = 0 → t.travel.watch = s.travel.watch) ∧
    ((s.travel.wheel w).speed ≠ 0 → Travel.WatchChecked s.now s.travel t.travel) ∧
    State.WindowRun (Travel.Rises s.travel t.travel) s t := by
  intro t
  obtain ⟨own, other, travel, formed, run⟩ :=
    State.modWheel_formed w (fun x => { x.restart with lastEdge := none, timeout := none }) s
  obtain ⟨x, hx⟩ : ∃ x, x = (s.modWheel w fun x => { x.restart with lastEdge := none, timeout := none }).formGround := ⟨_, rfl⟩
  rw [← hx] at own other travel formed run
  have e : t = if (s.travel.wheel w).speed ≠ 0 then x.checkWatch else x := by rw [hx]; rfl
  clear_value t
  have watch : x.travel.watch = s.travel.watch := by rw [travel]
  by_cases moved : (s.travel.wheel w).speed ≠ 0
  · rw [if_pos moved] at e
    obtain ⟨checked, rest⟩ := State.checkWatch_spec x
    have run' := run.trans (State.checkWatch_run x)
    rw [← e] at checked rest run'
    have tTravel : t.travel = { x.travel with watch := t.travel.watch } := congrArg (fun z : State => z.travel) rest
    have wheel : ∀ k, t.travel.wheel k = x.travel.wheel k := fun k => by rw [tTravel]; cases k <;> rfl
    have now : x.now = s.now := by unfold State.now; rw [run.rest]
    have ground : t.travel.ground = x.travel.ground := by rw [tTravel]
    refine ⟨(wheel w).trans own, (wheel _).trans other, ?_, by rw [tTravel]; exact formed, fun h => absurd h moved,
      fun _ => ?_, run'.iff (by unfold Travel.Rises; rw [or_false, ground])⟩
    · have left : t.travel.left = x.travel.left := by rw [tTravel]
      have right : t.travel.right = x.travel.right := by rw [tTravel]
      have dir : t.travel.dir = x.travel.dir := by rw [tTravel]
      rw [left, right, ground, dir]
      exact tTravel.trans (congrArg (fun z : Travel => { z with watch := t.travel.watch }) travel)
    · unfold Travel.WatchChecked at checked ⊢
      rw [watch, now] at checked
      exact checked
  · rw [if_neg moved] at e
    subst e
    refine ⟨own, other, ?_, formed, fun _ => watch, fun h => absurd h moved, run⟩
    rw [watch]
    exact travel

/-- Only the travel unit's own blocks, its posts and their counts have moved from `u` to `t`. -/
def State.OnlyTravel (kinds : List EventKind) (u t : State) : Prop :=
  (∀ l : Link, (t.notices.events l).mask = (u.notices.events l).mask ∧
    ∀ k : EventKind, k ∉ kinds → (t.notices.events l).sameKind (u.notices.events l) k) ∧
  t = { u with
    travel := t.travel, periods := t.periods, ceiling := t.ceiling, links := t.links, notices := t.notices
    bank := { u.bank with tallies := t.bank.tallies } }

/-- Beside its record and the restart window nothing has moved. -/
def State.TravelQuiet (u t : State) : Prop :=
  t.ceiling = u.ceiling ∧ t.notices.alarms = u.notices.alarms ∧ t.bank = u.bank ∧ State.OnlyTravel [.restartLapsed] u t

/-- The periods of the timers aside, `p` is `u`. -/
def State.PeriodMoved (u p : State) : Prop := p = { u with periods := p.periods }

theorem State.WindowRun.quiet {q : Prop} {p : State} (h : State.WindowRun q p t) (hp : State.PeriodMoved u p) :
    State.TravelQuiet u t := by
  have rest := h.rest
  have events := h.events
  have masks := h.masks
  have alarms := h.alarms
  have notices : p.notices = u.notices := by rw [hp]
  have ceiling : t.ceiling = u.ceiling := by rw [rest, hp]
  have bank : t.bank = u.bank := by rw [rest, hp]
  have periods : t.periods = p.periods := by rw [rest]
  rw [notices] at events masks alarms
  refine ⟨ceiling, alarms, bank, fun l => ⟨masks l, fun k hk => events l k (by simpa using hk)⟩, ?_⟩
  rw [ceiling, bank, periods]
  rw [hp] at rest
  exact rest

theorem State.SensorFaultBegins.only {w : Wheel} {q : Prop} {p d v : State} (h : State.SensorFaultBegins w v d t)
    (run : State.WindowRun q p d) (hp : State.PeriodMoved u p) :
    State.OnlyTravel [.alarmRaised, .ceilingBinding, .restartLapsed] u t := by
  have first := run.rest
  have events := run.events
  have masks := run.masks
  have notices : p.notices = u.notices := by rw [hp]
  have bank : d.bank = u.bank := by rw [first, hp]
  have periods : t.periods = p.periods := by rw [h.rest]; show d.periods = _; rw [first]
  rw [notices] at events masks
  refine ⟨fun l => ⟨(h.masks l).trans (masks l), fun k hk => ?_⟩, ?_⟩
  · exact EventSet.sameKind_trans (events l k (by simp at hk; tauto)) (h.events l k hk)
  · have second := h.rest
    rw [bank, first, hp] at second
    rw [periods]
    exact second

end

/-- Settles O29: a change of a wheel's speed is `State.modWheel_formed` with the watch's check, a fault
`State.beginSensorFault_spec`. -/
theorem travelTimersAct : Obligations.TravelTimersAct := by
  intro after s
  refine ⟨fun hr => ?_, fun w e he hr => ?_, fun e he hr => ?_⟩
  · obtain ⟨p, hp⟩ : ∃ p : State, p = (s.elapse after).modPeriods fun p => { p with travel := later p.travel 10 } := ⟨_, rfl⟩
    have acts : exec (.travelUpdateExpiry after) s = .next p.travelUpdate := by rw [hp]; exact if_pos hr
    obtain ⟨left, leftRun⟩ := State.decayWheel_spec .left p
    obtain ⟨right, rightRun⟩ := State.decayWheel_spec .right (p.decayWheel .left)
    have leftNow : (p.decayWheel .left).now = p.now ∧ (p.decayWheel .left).nowUs = p.nowUs := by
      unfold State.now State.nowUs; rw [leftRun.rest]; exact ⟨rfl, rfl⟩
    have leftSet : (p.decayWheel .left).settings = p.settings := by rw [leftRun.rest]
    have run := leftRun.trans rightRun
    have stands := State.travelUpdate_stands (s := p)
    have faults := @State.travelUpdate_faults p
    unfold State.decayed at stands faults
    generalize (p.decayWheel .left).decayWheel .right = d at *
    generalize p.decayWheel .left = m at *
    have dNow : d.now = (s.elapse after).now := by unfold State.now; rw [run.rest, hp]; rfl
    have right : State.Decays p .right m.travel d.travel := by
      unfold State.Decays at right ⊢
      rw [leftNow.1, leftNow.2, leftSet] at right
      exact right
    rw [dNow] at stands faults
    have moved : State.PeriodMoved (s.elapse after) p := by rw [hp]; rfl
    have pTravel : p.travel = s.travel := by rw [hp]; rfl
    rw [hp] at left right
    refine ⟨m.travel, d.travel, p.travelUpdate, acts, ?_, left, right, fun hn => ?_, fun hf x hx ht => ?_, ?_⟩
    · simp [hp]
    · rw [stands hn]
      exact ⟨rfl, run.quiet moved⟩
    · rw [faults hf hx ht]
      have kept : State.CeilingKept (s.elapse after) d := by
        have := run.kept
        rw [hp] at this
        exact ⟨this.ceiling, this.now, this.vRef, this.events, this.stops⟩
      have begins := State.beginSensorFault_spec x.wheel kept
      generalize d.beginSensorFault x.wheel = t at *
      have only := begins.only run moved
      have alarms : d.notices.alarms = (s.elapse after).notices.alarms := by rw [run.alarms, hp]; rfl
      have raises := begins.raises
      unfold State.Raises at raises
      rw [alarms] at raises
      refine ⟨begins.travel, begins.formed, by cases hw : x.wheel <;> rw [hw] at raises <;> exact raises, fun hs => ?_, fun hs => ?_, fun i h1 h2 => ?_, only⟩
      · exact begins.releases hs
      · have stays := kept.trans (begins.stands hs)
        exact ⟨stays.ceiling, stays.stops, stays.events⟩
      · rw [begins.tallies i h1 h2, run.rest, hp]
        rfl
    · have follows : State.WindowFollows (Travel.Rises s.travel m.travel ∨ Travel.Rises m.travel d.travel)
          (s.elapse after) d := by
        have follows := run.follows
        rw [pTravel] at follows
        rw [hp] at follows
        exact follows
      by_cases fault : d.travel.sensorFault = none ∧ ∃ x, d.travel.watch = some x ∧ 3000 ≤ since (s.elapse after).now x.since
      · obtain ⟨hf, x, hx, ht⟩ := fault
        rw [faults hf hx ht]
        exact (follows.trans (State.beginSensorFault_spec x.wheel run.kept).follows).iff or_assoc
      · have rests : d.travel.sensorFault ≠ none ∨
            ∀ x, d.travel.watch = some x → since (s.elapse after).now x.since < 3000 := by
          by_cases hf : d.travel.sensorFault = none
          · exact .inr fun x hx => by
              by_contra hn
              exact fault ⟨hf, x, hx, by omega⟩
          · exact .inl hf
        rw [stands rests]
        refine follows.iff ?_
        simp [Travel.Rises]
  · have acts : exec (.pulseTimeoutExpiry after w) s = .next ((s.elapse after).pulseTimeout w) :=
      if_pos (due_some (now := (s.elapse after).now) he hr)
    obtain ⟨own, other, travel, formed, stays, checked, run⟩ := State.pulseTimeout_spec w (s.elapse after)
    exact ⟨_, acts, own, other, travel, formed, stays, checked, run.follows, by rw [run.rest]; rfl,
      State.WindowRun.quiet (u := s.elapse after) (p := s.elapse after) run rfl⟩
  · obtain ⟨u, hu⟩ : ∃ u, u = s.elapse after := ⟨_, rfl⟩
    have runs : u.travel.slipHold.isSome = true := by
      have same : u.travel.slipHold = s.travel.slipHold := by rw [hu]; rfl
      rw [same, he]; rfl
    have acts : exec (.slipHoldExpiry after) s = .next u.stopSlip.formGround := by
      rw [hu]; exact if_pos (due_some (now := (s.elapse after).now) he hr)
    have slip := State.slipEnd_spec u
    rw [if_pos runs] at slip
    obtain ⟨travel, -, -, alarms, -, events, tallies, rest⟩ := slip
    have releases : State.TractionReleased u u.stopSlip.formGround :=
      State.stopSlip_releases State.windowRun_refl.kept (State.formGround_run u.stopSlip).kept
    obtain ⟨formedTravel, formed, -⟩ := State.formGround_spec u.stopSlip
    have run := State.formGround_run u.stopSlip
    refine ⟨_, acts, ?_⟩
    generalize u.stopSlip.formGround = t at *
    generalize u.stopSlip = v at *
    have vLinks : v.links = u.links := by rw [rest]
    have ground : v.travel.ground = s.travel.ground := by rw [travel, hu]; rfl
    have tBank : t.bank = v.bank := by rw [run.rest]
    have first : State.WindowFollows False u v := State.windowFollows_of_same vLinks fun l => (events l).2 _ (by decide)
    refine ⟨?_, ?_, ?_, ?_, fun i hi => ?_, ?_, by rw [run.rest, rest, hu]; rfl, fun l => ⟨?_, fun k hk => ?_⟩, ?_⟩
    · have groundOf : t.travel.ground = v.travel.groundOf := by rw [formedTravel]
      have dirOf : t.travel.dir = v.travel.dirOf := by rw [formedTravel]
      rw [groundOf, dirOf, formedTravel, travel, hu]
      rfl
    · have dir : v.travel.dir = s.travel.dir := by rw [travel, hu]; rfl
      rw [← dir]; exact formed
    · rw [hu] at releases; exact releases
    · rw [run.alarms, alarms, hu]; rfl
    · rw [tBank, tallies i hi, hu]
    · have follows := (first.trans run.follows).iff (q := Travel.Rises s.travel t.travel) (by
        unfold Travel.Rises
        rw [false_or, ground])
      rw [hu] at follows
      exact follows
    · rw [run.masks, (events l).1, hu]; rfl
    · simp only [List.mem_cons, List.not_mem_nil, or_false, not_or] at hk
      have kinds := EventSet.sameKind_trans ((events l).2 k hk.1) (run.events l k hk.2)
      rw [hu] at kinds
      exact kinds
    · have whole := run.rest
      have vBank : v.bank = { u.bank with tallies := v.bank.tallies } := by rw [rest]
      have tCeiling : t.ceiling = v.ceiling := by rw [run.rest]
      have periods : t.periods = u.periods := by rw [run.rest, rest]
      rw [rest] at whole
      rw [tBank, tCeiling, periods]
      rw [← hu]
      exact whole

end Sys2Proof.Machine
end

section
/-! Slip hold and TRACTION at an edge (R37 to R39), beside the wheel's record. -/

namespace Sys2Proof.Machine

/-- The post to TRACTION at the start of slip hold (R39). -/
def State.tractionPosted (u : State) : State := u.activate .traction u.settings.caps.traction

/-- A slip detection starts slip hold from `u` to `t`, beside the timer (R39). -/
structure State.SlipStarts (u t : State) : Prop where
  once : u.postedOnce .slip t
  counted : t.bank.tallies[Tally.index .slips] = min 65535 (u.bank.tallies[Tally.index .slips] + 1)
  traction : State.CeilingKept u.tractionPosted t

/-- Nothing of what a start of slip hold moves has moved from `u` to `t`. -/
structure State.SlipStands (u t : State) : Prop where
  kept : State.CeilingKept u t
  events : ∀ l : Link, (t.notices.events l).sameKind (u.notices.events l) .slip
  tally : t.bank.tallies[Tally.index .slips] = u.bank.tallies[Tally.index .slips]

section
variable {p q m n : Prop} {u v t : State}

theorem State.SlipStands.trans (h : State.SlipStands u v) (k : State.SlipStands v t) : State.SlipStands u t :=
  ⟨h.kept.trans k.kept, fun l => EventSet.sameKind_trans (h.events l) (k.events l), k.tally.trans h.tally⟩

theorem State.SlipStarts.stands (h : State.SlipStarts u v) (k : State.SlipStands v t) : State.SlipStarts u t :=
  ⟨fun l => ⟨(k.events l).1.trans (h.once l).1, (k.events l).2.trans (h.once l).2⟩, k.tally.trans h.counted,
    h.traction.trans k.kept⟩

theorem State.CeilingKept.traction (h : State.CeilingKept u v) (settings : v.settings = u.settings) :
    State.CeilingKept u.tractionPosted v.tractionPosted := by
  have now := h.now
  obtain ⟨ceiling, events, stops⟩ := State.changeCeiling_alike (CeilingTable.modEntry .traction fun e =>
    if e.active then { e with cap := u.settings.caps.traction } else
      { e with active := true, cap := u.settings.caps.traction, since := u.now }) h.ceiling h.now h.vRef h.events h.stops
  have eu : u.tractionPosted = u.changeCeiling _ := rfl
  have ev : v.tractionPosted = v.changeCeiling (CeilingTable.modEntry .traction fun e =>
    if e.active then { e with cap := u.settings.caps.traction } else
      { e with active := true, cap := u.settings.caps.traction, since := u.now }) := by
    rw [← settings, ← now]; rfl
  have gov : ∀ x : State, x.tractionPosted.gov = x.gov ∧ x.tractionPosted.now = x.now := fun x => by
    unfold State.tractionPosted State.now; simp
  refine ⟨by rw [eu, ev]; exact ceiling, ?_, ?_, by rw [eu, ev]; exact events, by rw [eu, ev]; exact stops⟩
  · rw [(gov u).2, (gov v).2, now]
  · rw [(gov u).1, (gov v).1, h.vRef]

theorem State.SlipStands.starts (h : State.SlipStands u v) (settings : v.settings = u.settings) (k : State.SlipStarts v t) :
    State.SlipStarts u t :=
  ⟨fun l => ⟨(k.once l).1, by rw [(k.once l).2, (h.events l).2]⟩, by rw [k.counted, h.tally],
    (h.kept.traction settings).trans k.traction⟩

/-- A change of the travel unit from `u` to `t`, with slip detections where `m`, and rises of ground speed as `p` has them. -/
structure State.SlipRun (m p : Prop) (u t : State) : Prop where
  hold : m → t.travel.slipHold = some (later u.now u.settings.travel.slipHold)
  rests : ¬m → t.travel.slipHold = u.travel.slipHold
  starts : m → u.travel.slipHold = none → State.SlipStarts u t
  stands : ¬m ∨ u.travel.slipHold.isSome = true → State.SlipStands u t
  rises : Travel.Rises u.travel t.travel → p
  follows : State.WindowFollows p u t
  events : ∀ (l : Link) (k : EventKind), k ∉ [EventKind.slip, .ceilingBinding, .restartLapsed] →
    (t.notices.events l).sameKind (u.notices.events l) k
  masks : ∀ l : Link, (t.notices.events l).mask = (u.notices.events l).mask
  alarms : t.notices.alarms = u.notices.alarms
  tallies : ∀ x : Tally, x ≠ .slips → x ≠ .urgentStops → t.bank.tallies[x.index] = u.bank.tallies[x.index]
  rest : t = { u with
    travel := t.travel, ceiling := t.ceiling, links := t.links, notices := t.notices
    bank := { u.bank with tallies := t.bank.tallies } }

theorem Travel.Rises.split {a b c : Travel} (h : Travel.Rises a c) : Travel.Rises a b ∨ Travel.Rises b c := by
  obtain ⟨moved, pos⟩ := h
  by_cases same : c.ground = b.ground
  · exact .inl ⟨by rw [← same]; exact moved, by rw [← same]; exact pos⟩
  · exact .inr ⟨same, pos⟩

theorem State.SlipRun.now (h : State.SlipRun m p u t) : t.now = u.now := by
  unfold State.now; rw [h.rest]

theorem State.SlipRun.settings (h : State.SlipRun m p u t) : t.settings = u.settings := by rw [h.rest]

theorem State.SlipRun.trans (h : State.SlipRun m p u v) (k : State.SlipRun n q v t) : State.SlipRun (m ∨ n) (p ∨ q) u t where
  hold hmn := by
    by_cases hn : n
    · rw [k.hold hn, h.now, h.settings]
    · rw [k.rests hn]; exact h.hold (hmn.resolve_right hn)
  rests hmn := (k.rests fun hn => hmn (.inr hn)).trans (h.rests fun hm => hmn (.inl hm))
  starts hmn hs := by
    by_cases hm : m
    · exact (h.starts hm hs).stands (k.stands (.inr (by rw [h.hold hm]; rfl)))
    · have hold : v.travel.slipHold = none := (h.rests hm).trans hs
      exact (h.stands (.inl hm)).starts h.settings (k.starts (hmn.resolve_left hm) hold)
  stands hmn := by
    refine (h.stands (hmn.imp (fun hn hm => hn (.inl hm)) id)).trans (k.stands ?_)
    rcases hmn with hmn | hs
    · exact .inl fun hn => hmn (.inr hn)
    · by_cases hm : m
      · exact .inr (by rw [h.hold hm]; rfl)
      · exact .inr (by rw [h.rests hm]; exact hs)
  rises hr := hr.split.imp h.rises k.rises
  follows := h.follows.trans k.follows
  events l x hx := EventSet.sameKind_trans (h.events l x hx) (k.events l x hx)
  masks l := (k.masks l).trans (h.masks l)
  alarms := k.alarms.trans h.alarms
  tallies x h1 h2 := (k.tallies x h1 h2).trans (h.tallies x h1 h2)
  rest := by
    have first := h.rest
    have bank : v.bank = { u.bank with tallies := v.bank.tallies } := by rw [first]
    have second := k.rest
    rw [bank, first] at second
    exact second

theorem State.SlipRun.iff (h : State.SlipRun m p u t) (hmn : m ↔ n) : State.SlipRun n p u t := propext hmn ▸ h

theorem State.WindowRun.stands (h : State.WindowRun p u t) : State.SlipStands u t :=
  ⟨h.kept, fun l => h.events l _ (by decide), by rw [h.rest]⟩

/-- A change of the unit's record that leaves slip hold, with the window as its rise has it. -/
theorem State.WindowRun.slipRun (h : State.WindowRun p u t) (hold : t.travel.slipHold = u.travel.slipHold)
    (rises : Travel.Rises u.travel t.travel → p) : State.SlipRun False p u t where
  hold := False.elim
  rests _ := hold
  starts := False.elim
  stands _ := h.stands
  rises := rises
  follows := h.follows
  events l k hk := h.events l k fun e => hk (by simp [e])
  masks := h.masks
  alarms := h.alarms
  tallies x _ _ := by rw [h.rest]
  rest := by
    have rest := h.rest
    have bank : t.bank = u.bank := by rw [rest]
    have ceiling : t.ceiling = u.ceiling := by rw [rest]
    rw [bank, ceiling]
    exact rest

theorem State.windowRun_formed (s : State) : State.SlipRun False (Travel.Rises s.travel s.formGround.travel) s s.formGround :=
  (State.formGround_run s).slipRun (by rw [(State.formGround_spec s).1]) id

/-! ### A slip detection (R39) -/

/-- What a slip detection makes of the unit's record: the timer, and with the start of slip hold ground speed formed again. -/
theorem State.slipDetected_travel (s : State) :
    s.slipDetected.travel = { s.travel with
      slipHold := some (later s.now s.settings.travel.slipHold)
      ground := s.slipDetected.travel.ground, dir := s.slipDetected.travel.dir } ∧
    (s.travel.slipHold.isSome = true → s.slipDetected.travel.ground = s.travel.ground ∧
      s.slipDetected.travel.dir = s.travel.dir) ∧
    (s.travel.slipHold = none → s.slipDetected.travel.Formed s.travel.dir) := by
  obtain ⟨v, hv⟩ : ∃ v, v = s.modTravel fun t => { t with slipHold := some (later s.now s.settings.travel.slipHold) } := ⟨_, rfl⟩
  have vTravel : v.travel = { s.travel with slipHold := some (later s.now s.settings.travel.slipHold) } := by rw [hv]; rfl
  cases hs : s.travel.slipHold with
  | some e =>
    have eq : s.slipDetected = v := by
      rw [hv]; exact if_pos (by rw [hs]; rfl)
    rw [eq, vTravel]
    exact ⟨rfl, fun _ => ⟨rfl, rfl⟩, fun h => nomatch h⟩
  | none =>
    obtain ⟨x, hx⟩ : ∃ x, x = ((v.activate .traction v.settings.caps.traction).postBoth .slip).bump .slips := ⟨_, rfl⟩
    have eq : s.slipDetected = x.formGround := by
      rw [hx, hv]; exact if_neg (by rw [hs]; decide)
    obtain ⟨travel, formed, -⟩ := State.formGround_spec x
    have xTravel : x.travel = v.travel := by rw [hx]; simp
    rw [eq]
    generalize x.formGround = t at *
    have ground : t.travel.ground = x.travel.groundOf := by rw [travel]
    have dir : t.travel.dir = x.travel.dirOf := by rw [travel]
    refine ⟨?_, fun h => (nomatch h), fun _ => ?_⟩
    · rw [ground, dir, travel, xTravel, vTravel]
    · rw [xTravel, vTravel] at formed; exact formed

theorem State.slipDetected_run (s : State) :
    State.SlipRun True (Travel.Rises s.travel s.slipDetected.travel) s s.slipDetected := by
  obtain ⟨travel, grounds, -⟩ := State.slipDetected_travel s
  obtain ⟨v, hv⟩ : ∃ v, v = s.modTravel fun t => { t with slipHold := some (later s.now s.settings.travel.slipHold) } := ⟨_, rfl⟩
  have marked : State.WindowRun False s v := State.windowRun_of_travel (by rw [hv]; rfl)
  have hold : s.slipDetected.travel.slipHold = some (later s.now s.settings.travel.slipHold) := by rw [travel]
  by_cases running : s.travel.slipHold.isSome = true
  · have eq : s.slipDetected = v := by rw [hv]; exact if_pos running
    have same := (grounds running).1
    have whole := marked.rest
    rw [← eq] at marked
    exact {
      hold := fun _ => hold
      rests := fun hn => absurd trivial hn
      starts := fun _ hs => by rw [hs] at running; cases running
      stands := fun _ => marked.stands
      rises := id
      follows := marked.follows.iff (by unfold Travel.Rises; rw [same]; simp)
      events := fun l k hk => marked.events l k fun e => hk (by simp [e])
      masks := marked.masks
      alarms := marked.alarms
      tallies := fun x _ _ => by rw [eq, hv]; rfl
      rest := by rw [eq, hv]; rfl }
  · obtain ⟨a, ha⟩ : ∃ a, a = v.activate .traction v.settings.caps.traction := ⟨_, rfl⟩
    obtain ⟨x, hx⟩ : ∃ x, x = (a.postBoth .slip).bump .slips := ⟨_, rfl⟩
    have eq : s.slipDetected = x.formGround := by rw [hx, ha, hv]; exact if_neg running
    obtain ⟨alarms, events, tallies, rest⟩ := State.changeCeiling_beside (CeilingTable.modEntry .traction fun e =>
      if e.active then { e with cap := v.settings.caps.traction } else
        { e with active := true, cap := v.settings.caps.traction, since := v.now }) v
    rw [show v.changeCeiling _ = a from ha.symm] at alarms events tallies rest
    obtain ⟨counted, uncounted⟩ := State.bumpBy_tallies .slips 1 (a.postBoth .slip)
    rw [show (a.postBoth .slip).bumpBy .slips 1 = x from hx.symm] at counted uncounted
    have posted := State.postBoth_events .slip a
    have xNotices : x.notices = (a.postBoth .slip).notices := by rw [hx]; rfl
    have xBank : x.bank = { a.bank with tallies := x.bank.tallies } := by rw [hx]; rfl
    have xRest : x = { a with notices := x.notices, bank := x.bank } := by rw [hx]; rfl
    have last := State.formGround_run x
    have vTravel : v.travel.ground = s.travel.ground := by rw [hv]; rfl
    have aTravel : a.travel = v.travel := by rw [rest]
    have xTravel : x.travel = v.travel := by rw [xRest]; exact aTravel
    rw [eq] at hold travel ⊢
    generalize x.formGround = t at *
    have vNotices : v.notices = s.notices := by rw [hv]; rfl
    have vBank : v.bank = s.bank := by rw [hv]; rfl
    rw [vNotices] at alarms events
    rw [vBank] at tallies
    have aLinks : a.links = s.links := by rw [rest, hv]; rfl
    have xEvents : ∀ l, x.notices.events l = (a.notices.events l).post .slip := fun l => by rw [xNotices]; exact posted l
    have xKind : ∀ (l : Link) (k : EventKind), k ≠ .slip → (x.notices.events l).sameKind (a.notices.events l) k := fun l k hk => by
      rw [xEvents]; exact (EventSet.post_spec .slip _).2.2.2 k hk
    have tBank : t.bank = x.bank := by rw [last.rest]
    have traction : State.CeilingKept s.tractionPosted a := by
      have kept := marked.kept.traction (by rw [hv]; rfl)
      rw [show v.tractionPosted = a from ha.symm] at kept
      exact kept
    have gov : x.gov = a.gov ∧ x.now = a.now ∧ x.ceiling = a.ceiling := by
      unfold State.now; rw [xRest]; exact ⟨rfl, rfl, rfl⟩
    have after : State.CeilingKept a x := ⟨gov.2.2, gov.2.1, by rw [gov.1], fun l => xKind l _ (by decide),
      by rw [uncounted _ (by decide)]; rfl⟩
    exact {
      hold := fun _ => hold
      rests := fun hn => absurd trivial hn
      starts := fun _ _ => {
        once := fun l => by
          have stays := last.events l .slip (by decide)
          have posted := EventSet.post_spec .slip (a.notices.events l)
          have before := (events l).2 .slip (by decide)
          rw [← xEvents] at posted
          exact ⟨stays.1.trans posted.1, stays.2.trans (posted.2.1.trans (by rw [before.2]))⟩
        counted := by
          rw [tBank, counted]
          show min 65535 (a.bank.tallies[Tally.index .slips] + 1) = _
          rw [tallies _ (by decide)]
        traction := (traction.trans after).trans last.kept }
      stands := fun h => by
        rcases h with h | h
        · exact absurd trivial h
        · exact absurd h running
      rises := id
      follows := by
        have first : State.WindowFollows False s x := State.windowFollows_of_same (by rw [xRest]; exact aLinks) fun l =>
          EventSet.sameKind_trans ((events l).2 _ (by decide)) (xKind l _ (by decide))
        refine (first.trans last.follows).iff ?_
        unfold Travel.Rises
        rw [false_or, xTravel, vTravel]
      events := fun l k hk => by
        simp only [List.mem_cons, List.not_mem_nil, or_false, not_or] at hk
        exact EventSet.sameKind_trans (EventSet.sameKind_trans ((events l).2 k hk.2.1) (xKind l k hk.1)) (last.events l k hk.2.2)
      masks := fun l => by
        rw [last.masks, xEvents, (EventSet.post_spec .slip _).2.2.1, (events l).1]
      alarms := by
        rw [last.alarms, xNotices, State.postBoth_alarms, alarms]
      tallies := fun z h1 h2 => by
        rw [tBank, uncounted z h1]
        exact tallies z h2
      rest := by
        have whole := last.rest
        have aBank : a.bank = { s.bank with tallies := a.bank.tallies } := by
          have : a.bank = { v.bank with tallies := a.bank.tallies } := by rw [rest]
          rw [vBank] at this; exact this
        have bank : x.bank = { s.bank with tallies := x.bank.tallies } := by rw [xBank, aBank]
        have tCeiling : t.ceiling = a.ceiling := by rw [last.rest]; exact gov.2.2
        rw [tBank, ← bank, tCeiling]
        rw [xRest, rest, hv] at whole
        exact whole }

end

end Sys2Proof.Machine
end

section
/-! A wheel edge before its distance (R32, R33, R37, R38, R42, R43): the record, slip, the watch, and the end of a fault. -/

namespace Sys2Proof.Machine

/-! ### Ground speed and direction formed twice -/

section
variable {a b : Travel} {was : Dir}

/-- Formed again after a first forming, or after a step that left the direction, the values are as formed once. -/
theorem Travel.Formed.from (h : b.Formed a.dir) (first : a.dir = was ∨ a.Formed was) (left : b.left = a.left)
    (right : b.right = a.right) (fault : b.sensorFault = a.sensorFault) : b.Formed was := by
  rcases first with first | first
  · rw [← first]; exact h
  · obtain ⟨none, some⟩ := h
    refine ⟨fun hf => ⟨(none hf).1, ?_⟩, fun w hf => ⟨(some w hf).1, ?_⟩⟩
    · have dir := (none hf).2
      have before := (first.1 (fault ▸ hf)).2
      rw [← left, ← right] at before
      split at dir
      · next still => rw [if_pos still] at before ⊢; rw [dir, before]
      · next moves => rw [if_neg moves]; exact dir
    · have dir := (some w hf).2
      have before := (first.2 w (fault ▸ hf)).2
      have wheel : b.wheel w.other = a.wheel w.other := by cases w <;> assumption
      rw [← wheel] at before
      split at dir
      · next moves => rw [if_pos moves]; exact dir
      · next still => rw [if_neg still] at before ⊢; rw [dir, before]

/-- The values formed do not depend on how long slip hold still runs. -/
theorem Travel.Formed.held (h : a.Formed was) (b : Travel) (left : b.left = a.left) (right : b.right = a.right)
    (fault : b.sensorFault = a.sensorFault) (hold : b.slipHold.isSome = a.slipHold.isSome) (ground : b.ground = a.ground)
    (dir : b.dir = a.dir) : b.Formed was := by
  have wheel : ∀ w, b.wheel w = a.wheel w := fun w => by cases w <;> assumption
  unfold Travel.Formed at h ⊢
  simp only [wheel, left, right, fault, hold, ground, dir]
  exact h

end

/-! ### The edge's record (R32, R33, R37, R38) -/

/-- The record that an edge leaves on its wheel (R32, R33). -/
def State.edged (w : Wheel) (dir : Dir) (s : State) : WheelRec :=
  let x := (s.travel.wheel w).stamp s.now s.nowUs dir s.settings.travel.pulseTimeout
  match (s.travel.wheel w).period s.nowUs dir with
  | none => x.restart
  | some p => x.timed s.now (s.settings.travel.pitch w) p

/-- The spin test of an edge (R37). -/
def State.spinsAt (w : Wheel) (dir : Dir) (s : State) : Prop :=
  ∃ p, (s.travel.wheel w).period s.nowUs dir = some p ∧
    (s.travel.wheel w).spins s.settings.travel.spinLimit (s.settings.travel.pitch w) p = true

/-- The stillness test of an edge (R38, entry 30). -/
def State.stillAt (w : Wheel) (dir : Dir) (s : State) : Prop :=
  ((s.travel.wheel w).period s.nowUs dir).isSome = true ∧ s.travel.sensorFault = none ∧ (s.travel.wheel w.other).speed = 0 ∧
    300 ≤ since s.now ((s.travel.wheel w.other).lastEdgeTime.getD 0) ∧
    ∃ m, (s.edged w dir).movingSince = some m ∧ 300 ≤ since s.now m

theorem State.stillness_iff {w : Wheel} {s : State} : s.stillness w = true ↔
    s.travel.sensorFault = none ∧ (s.travel.wheel w.other).speed = 0 ∧
    300 ≤ since s.now ((s.travel.wheel w.other).lastEdgeTime.getD 0) ∧
    ∃ m, (s.travel.wheel w).movingSince = some m ∧ 300 ≤ since s.now m := by
  unfold State.stillness
  dsimp only
  simp only [Bool.and_eq_true, Option.isNone_iff_eq_none, beq_iff_eq, decide_eq_true_eq, and_assoc]
  refine and_congr_right fun _ => and_congr_right fun _ => and_congr ?_ ?_
  · cases (s.travel.wheel w.other).lastEdgeTime <;> rfl
  · cases (s.travel.wheel w).movingSince <;> simp

section
variable {s : State} {was : Dir}

/-- A slip detection leaves the direction, or forms it again. -/
theorem State.slipDetected_dir (s : State) :
    s.slipDetected.travel.dir = s.travel.dir ∨ s.slipDetected.travel.Formed s.travel.dir := by
  obtain ⟨-, running, starts⟩ := State.slipDetected_travel s
  cases hs : s.travel.slipHold with
  | none => exact .inr (starts hs)
  | some e => exact .inl (running (by rw [hs]; rfl)).2

/-- A slip detection where ground speed stands as formed leaves it so. -/
theorem State.slipDetected_formed (h : s.travel.Formed was) : s.slipDetected.travel.Formed was := by
  obtain ⟨travel, running, starts⟩ := State.slipDetected_travel s
  have left : s.slipDetected.travel.left = s.travel.left := by rw [travel]
  have right : s.slipDetected.travel.right = s.travel.right := by rw [travel]
  have fault : s.slipDetected.travel.sensorFault = s.travel.sensorFault := by rw [travel]
  cases hs : s.travel.slipHold with
  | none => exact (starts hs).from (.inr h) left right fault
  | some e =>
    obtain ⟨ground, dir⟩ := running (by rw [hs]; rfl)
    exact h.held _ left right fault (by rw [travel, hs]; rfl) ground dir

end

/-- The edge at the unit's record and slip hold, from `s` to `t` (R32, R33, R37 to R41). -/
structure State.EdgeApplied (w : Wheel) (dir : Dir) (s t : State) : Prop where
  run : ∃ p, State.SlipRun (s.spinsAt w dir ∨ s.stillAt w dir) p s t
  single : ¬(s.spinsAt w dir ∨ s.stillAt w dir) → State.WindowRun (Travel.Rises s.travel t.travel) s t
  own : t.travel.wheel w = s.edged w dir
  other : t.travel.wheel w.other = s.travel.wheel w.other
  travel : t.travel = { s.travel with
    left := t.travel.left, right := t.travel.right, slipHold := t.travel.slipHold, ground := t.travel.ground
    dir := t.travel.dir }
  formed : t.travel.Formed s.travel.dir

/-- The state with the edge in its wheel's record. -/
def State.stamped (w : Wheel) (dir : Dir) (s : State) : State := s.modWheel w fun _ => s.edged w dir

theorem Travel.modWheel_congr {w : Wheel} {f g : WheelRec → WheelRec} {t : Travel} (h : f (t.wheel w) = g (t.wheel w)) :
    t.modWheel w f = t.modWheel w g := by
  cases w
  · exact congrArg (fun x => { t with left := x }) h
  · exact congrArg (fun x => { t with right := x }) h

theorem State.modWheel_stamped {w : Wheel} {dir : Dir} {s : State} {f : WheelRec → WheelRec}
    (h : f (s.travel.wheel w) = s.edged w dir) : s.modWheel w f = s.stamped w dir :=
  congrArg (fun x : Travel => { s with travel := x }) (Travel.modWheel_congr (g := fun _ => s.edged w dir) h)

section
variable {w : Wheel} {dir : Dir} {s : State}

/-- An edge with no period has nothing to test (R32). -/
theorem State.applyEdge_untimed (h : (s.travel.wheel w).period s.nowUs dir = none) :
    s.applyEdge w dir = (s.stamped w dir).formGround := by
  unfold State.applyEdge
  simp only [h]
  rw [State.modWheel_stamped]
  unfold State.edged
  simp only [h]

/-- An edge with a period is tested for spin, and after ground speed is formed for stillness (R37, R38). -/
theorem State.applyEdge_timed {p : Nat} (h : (s.travel.wheel w).period s.nowUs dir = some p) :
    s.applyEdge w dir =
      let spins := (s.travel.wheel w).spins s.settings.travel.spinLimit (s.settings.travel.pitch w) p
      let c := (if spins then (s.stamped w dir).slipDetected else s.stamped w dir).formGround
      if c.stillness w then c.slipDetected else c := by
  unfold State.applyEdge
  simp only [h]
  rw [State.modWheel_stamped]
  unfold State.edged
  simp only [h]

end

section
variable {w : Wheel} {dir : Dir} {s a b c t : State} {m n p q : Prop}

/-- A change of slip hold, ground speed and direction alone. -/
def State.SlipOnly (s t : State) : Prop :=
  t.travel = { s.travel with slipHold := t.travel.slipHold, ground := t.travel.ground, dir := t.travel.dir }

theorem State.SlipOnly.trans (h : State.SlipOnly s a) (k : State.SlipOnly a t) : State.SlipOnly s t := by
  unfold State.SlipOnly at *
  rw [h] at k
  exact k

theorem State.SlipOnly.wheel (h : State.SlipOnly s t) (k : Wheel) : t.travel.wheel k = s.travel.wheel k := by
  rw [h]; cases k <;> rfl

theorem State.formGround_only (s : State) : State.SlipOnly s s.formGround := by
  have travel := (State.formGround_spec s).1
  unfold State.SlipOnly
  rw [travel]

theorem State.slipDetected_only (s : State) : State.SlipOnly s s.slipDetected := by
  have travel := (State.slipDetected_travel s).1
  unfold State.SlipOnly
  rw [travel]

/-- The spin test's slip, where it finds one. -/
theorem State.spinSlip_spec (c : Bool) (s : State) :
    let t := if c then s.slipDetected else s
    (∃ p, State.SlipRun (c = true) p s t) ∧ State.SlipOnly s t ∧
    (t.travel.dir = s.travel.dir ∨ t.travel.Formed s.travel.dir) := by
  intro t
  cases c with
  | false =>
    exact ⟨⟨_, (State.windowRun_refl.slipRun rfl fun h => absurd rfl h.1).iff (by simp)⟩, rfl, .inl rfl⟩
  | true =>
    exact ⟨⟨_, (State.slipDetected_run s).iff (by simp)⟩, State.slipDetected_only s, State.slipDetected_dir s⟩

/-- The stillness test's slip, where it finds one, in a unit with ground speed as formed. -/
theorem State.stillSlip_spec {was : Dir} (c : Bool) (h : s.travel.Formed was) :
    let t := if c then s.slipDetected else s
    (∃ p, State.SlipRun (c = true) p s t) ∧ State.SlipOnly s t ∧ t.travel.Formed was := by
  intro t
  obtain ⟨run, only, -⟩ := State.spinSlip_spec c s
  refine ⟨run, only, ?_⟩
  cases c with
  | false => exact h
  | true => exact State.slipDetected_formed h

theorem State.stamped_run (w : Wheel) (dir : Dir) (s : State) : State.SlipRun False False s (s.stamped w dir) := by
  have marked : State.WindowRun False s (s.stamped w dir) := State.windowRun_of_travel rfl
  refine marked.slipRun ?_ fun h => ?_
  · unfold State.stamped; cases w <;> rfl
  · have ground : (s.stamped w dir).travel.ground = s.travel.ground := by unfold State.stamped; cases w <;> rfl
    exact h.1 ground

theorem State.stillAt_iff (h : State.SlipOnly (s.stamped w dir) t) (now : t.now = s.now)
    (timed : ((s.travel.wheel w).period s.nowUs dir).isSome = true) : t.stillness w = true ↔ s.stillAt w dir := by
  have own : t.travel.wheel w = s.edged w dir := (h.wheel w).trans (Travel.modWheel_same _ _ _)
  have other : t.travel.wheel w.other = s.travel.wheel w.other := (h.wheel _).trans (Travel.modWheel_other _ _ _)
  have fault : t.travel.sensorFault = s.travel.sensorFault := by
    rw [h]; unfold State.stamped; cases w <;> rfl
  rw [State.stillness_iff, own, other, fault, now]
  unfold State.stillAt
  simp only [timed, true_and]

theorem State.applyEdge_spec (w : Wheel) (dir : Dir) (s : State) : State.EdgeApplied w dir s (s.applyEdge w dir) := by
  obtain ⟨a, ha⟩ : ∃ a, a = s.stamped w dir := ⟨_, rfl⟩
  have own : a.travel.wheel w = s.edged w dir := by rw [ha]; exact Travel.modWheel_same _ _ _
  have other : a.travel.wheel w.other = s.travel.wheel w.other := by rw [ha]; exact Travel.modWheel_other _ _ _
  have aDir : a.travel.dir = s.travel.dir := by rw [ha]; unfold State.stamped; cases w <;> rfl
  have aTravel : a.travel = { s.travel with left := a.travel.left, right := a.travel.right } := by
    rw [ha]; exact Travel.modWheel_rest w (fun _ => s.edged w dir) s.travel
  have travel {t : State} (only : State.SlipOnly a t) : t.travel = { s.travel with
      left := t.travel.left, right := t.travel.right, slipHold := t.travel.slipHold, ground := t.travel.ground
      dir := t.travel.dir } := by
    have left : t.travel.left = a.travel.left := by rw [only]
    have right : t.travel.right = a.travel.right := by rw [only]
    have whole : t.travel = { a.travel with
      slipHold := t.travel.slipHold, ground := t.travel.ground, dir := t.travel.dir } := only
    rw [left, right]
    refine whole.trans ?_
    exact congrArg (fun x : Travel => { x with
      slipHold := t.travel.slipHold, ground := t.travel.ground, dir := t.travel.dir }) aTravel
  have single := (State.modWheel_formed w (fun _ => s.edged w dir) s).run
  rw [show s.modWheel w (fun _ => s.edged w dir) = a from ha.symm] at single
  have first := State.stamped_run w dir s
  rw [← ha] at first
  cases hp : (s.travel.wheel w).period s.nowUs dir with
  | none =>
    have e := State.applyEdge_untimed hp
    have none : ¬(s.spinsAt w dir ∨ s.stillAt w dir) := by simp [State.spinsAt, State.stillAt, hp]
    rw [e, ← ha]
    have only := State.formGround_only a
    refine ⟨⟨_, (first.trans (State.windowRun_formed a)).iff (by simp [none])⟩, fun _ => single, (only.wheel w).trans own,
      (only.wheel _).trans other, travel only, ?_⟩
    rw [← aDir]
    exact (State.formGround_spec a).2.1
  | some p =>
    have e := State.applyEdge_timed hp
    rw [← ha] at e
    dsimp only at e
    obtain ⟨⟨p1, spinRun⟩, spinOnly, spinDir⟩ := State.spinSlip_spec
      ((s.travel.wheel w).spins s.settings.travel.spinLimit (s.settings.travel.pitch w) p) a
    have spins : s.spinsAt w dir ↔
        (s.travel.wheel w).spins s.settings.travel.spinLimit (s.settings.travel.pitch w) p = true := by
      simp [State.spinsAt, hp]
    have spinRun := spinRun.iff spins.symm
    obtain ⟨b, hb⟩ : ∃ b, b = if (s.travel.wheel w).spins s.settings.travel.spinLimit (s.settings.travel.pitch w) p = true
      then a.slipDetected else a := ⟨_, rfl⟩
    rw [← hb] at e spinRun spinOnly spinDir
    have formed := (State.formGround_spec b).2.1
    have formRun := State.windowRun_formed b
    have formOnly := State.formGround_only b
    have left : b.formGround.travel.left = b.travel.left := by rw [formOnly]
    have right : b.formGround.travel.right = b.travel.right := by rw [formOnly]
    have fault : b.formGround.travel.sensorFault = b.travel.sensorFault := by rw [formOnly]
    rw [aDir] at spinDir
    have formed := formed.from spinDir left right fault
    have one : b.formGround = a.formGround ∨ s.spinsAt w dir := by
      by_cases hs : s.spinsAt w dir
      · exact .inr hs
      · exact .inl (by rw [hb, if_neg fun h => hs (spins.2 h)])
    generalize b.formGround = c at *
    obtain ⟨⟨p2, stillRun⟩, stillOnly, still⟩ := State.stillSlip_spec (c.stillness w) formed
    have before := (first.trans spinRun).trans formRun
    have only := spinOnly.trans formOnly
    have stands : c.stillness w = true ↔ s.stillAt w dir :=
      State.stillAt_iff (by rw [← ha]; exact only) before.now (by rw [hp]; rfl)
    have stillRun := stillRun.iff stands
    rw [← e] at stillRun stillOnly still
    have last : ¬s.stillAt w dir → s.applyEdge w dir = c := fun hn => by rw [e, if_neg fun h => hn (stands.1 h)]
    generalize s.applyEdge w dir = t at *
    have whole := only.trans stillOnly
    refine ⟨⟨_, (before.trans stillRun).iff (by simp)⟩, fun hn => ?_, (whole.wheel w).trans own, (whole.wheel _).trans other,
      travel whole, still⟩
    rw [last fun hs => hn (.inr hs), one.resolve_right fun hs => hn (.inl hs)]
    exact single

end

end Sys2Proof.Machine
end

section
/-! A wheel edge up to its distance (R32 to R43): the watch, and the end of a fault, after the record and slip. -/

namespace Sys2Proof.Machine

/-- The slip detections of an edge, in the state that it finds (R37, R38). -/
def State.slipsAt (w : Wheel) (dir : Dir) (u : State) : Prop := u.spinsAt w dir ∨ u.stillAt w dir

/-- The watch after an edge of `w` has ended its own (R42). -/
def Travel.keptWatch (w : Wheel) (t : Travel) : Option Watch := t.watch.filter fun x => x.wheel != w

/-- The edge checks the watch (R42, R43). -/
def State.checksAt (w : Wheel) (dir : Dir) (u : State) : Prop :=
  u.travel.sensorFault = some w ∨ u.travel.sensorFault = none ∧ (u.edged w dir).speed ≠ (u.travel.wheel w).speed

/-- An accepted edge up to its distance, from `u` to `v`. -/
structure State.EdgeTaken (w : Wheel) (dir : Dir) (u v : State) : Prop where
  own : v.travel.wheel w = u.edged w dir
  other : v.travel.wheel w.other = u.travel.wheel w.other
  travel : v.travel = { u.travel with
    left := v.travel.left, right := v.travel.right, slipHold := v.travel.slipHold, watch := v.travel.watch
    sensorFault := v.travel.sensorFault, ground := v.travel.ground, dir := v.travel.dir }
  hold : u.slipsAt w dir → v.travel.slipHold = some (later u.now u.settings.travel.slipHold)
  rests : ¬u.slipsAt w dir → v.travel.slipHold = u.travel.slipHold
  starts : u.slipsAt w dir → u.travel.slipHold = none → State.SlipStarts u v
  stands : ¬u.slipsAt w dir ∨ u.travel.slipHold.isSome = true → State.SlipStands u v
  fault : v.travel.sensorFault = if u.travel.sensorFault = some w then none else u.travel.sensorFault
  gone : u.travel.sensorFault = some w → State.GoesAbsent .wheelSensor (wheelDetail w) u v
  alarms : u.travel.sensorFault ≠ some w → v.notices.alarms = u.notices.alarms ∧
    ∀ l : Link, (v.notices.events l).sameKind (u.notices.events l) .alarmGone
  unchecked : ¬u.checksAt w dir → v.travel.watch = u.travel.keptWatch w
  checked : u.checksAt w dir →
    Travel.WatchChecked u.now { u.travel with watch := u.travel.keptWatch w } v.travel
  formed : v.travel.Formed u.travel.dir
  follows : ∃ p, State.WindowFollows p u v ∧ (Travel.Rises u.travel v.travel → p)
  single : ¬u.slipsAt w dir → u.travel.sensorFault ≠ some w →
    State.WindowFollows (Travel.Rises u.travel v.travel) u v
  events : ∀ (l : Link) (k : EventKind), k ∉ [EventKind.slip, .ceilingBinding, .alarmGone, .restartLapsed] →
    (v.notices.events l).sameKind (u.notices.events l) k
  masks : ∀ l : Link, (v.notices.events l).mask = (u.notices.events l).mask
  tallies : ∀ x : Tally, x ≠ .slips → x ≠ .urgentStops → v.bank.tallies[x.index] = u.bank.tallies[x.index]
  rest : v = { u with
    travel := v.travel, ceiling := v.ceiling, links := v.links, notices := v.notices
    bank := { u.bank with tallies := v.bank.tallies } }

section
variable {w : Wheel} {dir : Dir} {p m : Prop} {s t u v : State}

/-- The watch of an edge's wheel ends first; neither test reads it. -/
theorem State.endWatch_same (w : Wheel) (dir : Dir) (u : State) :
    let s := u.modTravel (Travel.endWatchAt w)
    s.edged w dir = u.edged w dir ∧ (s.spinsAt w dir ↔ u.spinsAt w dir) ∧ (s.stillAt w dir ↔ u.stillAt w dir) ∧
    State.SlipRun False False u s := by
  intro s
  have wheel : ∀ k, s.travel.wheel k = u.travel.wheel k := fun k => by cases k <;> rfl
  have edged : s.edged w dir = u.edged w dir := by
    unfold State.edged
    rw [wheel]
    rfl
  refine ⟨edged, ?_, ?_, ?_⟩
  · unfold State.spinsAt; rw [wheel]; exact Iff.rfl
  · unfold State.stillAt; rw [wheel, wheel, edged]; exact Iff.rfl
  · exact (State.windowRun_of_travel rfl).slipRun rfl fun h => absurd rfl h.1

/-- The watch is checked where the speed has changed (R42). -/
theorem State.watchTest_spec (c : Prop) [Decidable c] (s : State) :
    let t := if c then s.checkWatch else s
    t = { s with travel := { s.travel with watch := t.travel.watch } } ∧ (¬c → t = s) ∧
    (c → Travel.WatchChecked s.now s.travel t.travel) := by
  intro t
  by_cases hc : c
  · have e : t = s.checkWatch := if_pos hc
    obtain ⟨checked, rest⟩ := State.checkWatch_spec s
    rw [e]
    exact ⟨rest, fun hn => absurd hc hn, fun _ => checked⟩
  · have e : t = s := if_neg hc
    rw [e]
    exact ⟨rfl, fun _ => rfl, fun h => absurd h hc⟩

/-- The end of a wheel-sensor fault (R43). -/
structure State.FaultEnds (w : Wheel) (s t : State) : Prop where
  travel : t.travel = { s.travel with
    watch := t.travel.watch, sensorFault := none, ground := t.travel.ground, dir := t.travel.dir }
  formed : t.travel.Formed s.travel.dir
  checked : Travel.WatchChecked s.now s.travel t.travel
  gone : State.GoesAbsent .wheelSensor (wheelDetail w) s t
  stands : State.SlipStands s t
  follows : State.WindowFollows (Travel.Rises s.travel t.travel) s t
  events : ∀ (l : Link) (k : EventKind), k ∉ [EventKind.alarmGone, .restartLapsed] →
    (t.notices.events l).sameKind (s.notices.events l) k
  masks : ∀ l : Link, (t.notices.events l).mask = (s.notices.events l).mask
  rest : t = { s with travel := t.travel, links := t.links, notices := t.notices }

theorem State.endSensorFault_spec (w : Wheel) (s : State) : State.FaultEnds w s (s.endSensorFault w) := by
  obtain ⟨a, ha⟩ : ∃ a, a = s.modTravel fun t => { t with sensorFault := none } := ⟨_, rfl⟩
  obtain ⟨b, hb⟩ : ∃ b, b = a.alarmGone .wheelSensor (wheelDetail w) := ⟨_, rfl⟩
  have e : s.endSensorFault w = b.formGround.checkWatch := by rw [hb, ha]; rfl
  have goes := State.alarmGone_goes .wheelSensor (wheelDetail w) a
  obtain ⟨posted, masks, -⟩ := State.alarmGone_events .wheelSensor (wheelDetail w) a
  have frame := State.alarmGone_rest .wheelSensor (wheelDetail w) a
  rw [← hb] at goes posted masks frame
  have aNotices : a.notices = s.notices := by rw [ha]; rfl
  have bTravel : b.travel = { s.travel with sensorFault := none } := by rw [frame, ha]; rfl
  obtain ⟨cTravel, formed, -⟩ := State.formGround_spec b
  have formRun := State.formGround_run b
  obtain ⟨checked, watchRest⟩ := State.checkWatch_spec b.formGround
  have run := formRun.trans (State.checkWatch_run b.formGround)
  rw [← e] at checked watchRest run
  generalize b.formGround = c at *
  rw [e] at *
  generalize c.checkWatch = t at *
  have tTravel : t.travel = { c.travel with watch := t.travel.watch } := congrArg (fun z : State => z.travel) watchRest
  have ground : t.travel.ground = c.travel.ground := by rw [tTravel]
  have bLinks : b.links = s.links := by rw [frame, ha]; rfl
  have bGround : b.travel.ground = s.travel.ground := by rw [bTravel]
  have bDir : b.travel.dir = s.travel.dir := by rw [bTravel]
  have cNow : c.now = s.now := by
    unfold State.now; rw [formRun.rest, frame, ha]; rfl
  have cWatch : c.travel.watch = s.travel.watch := by rw [cTravel, bTravel]
  rw [aNotices] at posted masks
  unfold State.GoesAbsent at goes
  rw [aNotices] at goes
  refine ⟨?_, ?_, ?_, ⟨?_, fun hx => ?_⟩, ⟨⟨?_, ?_, ?_, fun l => ?_, ?_⟩, fun l => ?_, ?_⟩, ?_, fun l k hk => ?_,
    fun l => (run.masks l).trans (masks l), ?_⟩
  · have groundOf : c.travel.ground = b.travel.groundOf := by rw [cTravel]
    have dirOf : t.travel.dir = c.travel.dir := by rw [tTravel]
    have dirOf' : c.travel.dir = b.travel.dirOf := by rw [cTravel]
    rw [ground, dirOf]
    refine tTravel.trans ?_
    rw [groundOf, dirOf', cTravel, bTravel]
  · rw [← bDir, tTravel]; exact formed
  · unfold Travel.WatchChecked at checked ⊢
    rw [cWatch, cNow] at checked
    exact checked
  · rw [run.alarms]; exact goes.1
  · intro l
    exact (run.events l _ (by decide)).1.trans (goes.2 hx l)
  · rw [run.rest]; show b.ceiling = _; rw [frame, ha]; rfl
  · unfold State.now; rw [run.rest, frame, ha]; rfl
  · rw [run.rest]; show b.gov.vRef = _; rw [frame, ha]; rfl
  · exact EventSet.sameKind_trans (posted l _ (by decide)) (run.events l _ (by decide))
  · rw [run.rest]; show b.bank.tallies[_] = _; rw [frame, ha]; rfl
  · exact EventSet.sameKind_trans (posted l _ (by decide)) (run.events l _ (by decide))
  · rw [run.rest]; show b.bank.tallies[_] = _; rw [frame, ha]; rfl
  · have first : State.WindowFollows False s b := State.windowFollows_of_same bLinks fun l => posted l _ (by decide)
    refine (first.trans run.follows).iff ?_
    unfold Travel.Rises
    rw [false_or, or_false, bGround, ground]
  · simp only [List.mem_cons, List.not_mem_nil, or_false, not_or] at hk
    exact EventSet.sameKind_trans (posted l k hk.1) (run.events l k hk.2)
  · have whole := run.rest
    rw [frame, ha] at whole
    exact whole

theorem Travel.speed_zero {a : Travel} (h : a.left.speed = 0 ∧ a.right.speed = 0) (k : Wheel) : (a.wheel k).speed = 0 := by
  cases k
  · exact h.1
  · exact h.2

theorem State.edgeTaken_spec (w : Wheel) (dir : Dir) (u : State) :
    let x := (u.modTravel (Travel.endWatchAt w)).applyEdge w dir
    let y := if (x.travel.wheel w).speed ≠ (u.travel.wheel w).speed then x.checkWatch else x
    State.EdgeTaken w dir u (if y.travel.sensorFault = some w then y.endSensorFault w else y) := by
  intro x y
  obtain ⟨edged, spins, still, ended⟩ := State.endWatch_same w dir u
  have applied := State.applyEdge_spec w dir (u.modTravel (Travel.endWatchAt w))
  rw [show (u.modTravel (Travel.endWatchAt w)).applyEdge w dir = x from rfl] at applied
  obtain ⟨⟨p, run⟩, single, own, other, travel, formed⟩ := applied
  rw [edged] at own
  rw [spins, still] at run single
  have run := (ended.trans run).iff (n := u.slipsAt w dir) (by simp [State.slipsAt])
  have uOther : (u.modTravel (Travel.endWatchAt w)).travel.wheel w.other = u.travel.wheel w.other := by cases w <;> rfl
  rw [uOther] at other
  have xWatch : x.travel.watch = u.travel.keptWatch w := by rw [travel]; rfl
  have xFault : x.travel.sensorFault = u.travel.sensorFault := by rw [travel]; rfl
  have xTravel : x.travel = { u.travel with
      left := x.travel.left, right := x.travel.right, slipHold := x.travel.slipHold, watch := x.travel.watch
      ground := x.travel.ground, dir := x.travel.dir } := by rw [xWatch]; exact travel
  have xNow := run.now
  have xSingle : ¬u.slipsAt w dir → State.WindowFollows (Travel.Rises u.travel x.travel) u x := fun hn => by
    have follows := (single hn).follows
    exact follows
  have test := State.watchTest_spec ((x.travel.wheel w).speed ≠ (u.travel.wheel w).speed) x
  rw [own] at test
  rw [show (if (u.edged w dir).speed ≠ (u.travel.wheel w).speed then x.checkWatch else x) = y by rw [← own]] at test
  clear_value x
  obtain ⟨yRest, yStays, yChecked⟩ := test
  clear_value y
  have yTravel : y.travel = { x.travel with watch := y.travel.watch } := congrArg (fun z : State => z.travel) yRest
  have yRun : State.WindowRun False x y := State.windowRun_of_travel (by rw [← yTravel] at yRest; exact yRest)
  have yWheel : ∀ k, y.travel.wheel k = x.travel.wheel k := fun k => by rw [yTravel]; cases k <;> rfl
  have yFault : y.travel.sensorFault = u.travel.sensorFault := by rw [yTravel]; exact xFault
  have yFormed : y.travel.Formed u.travel.dir := by rw [yTravel]; exact formed
  have ySlip := (run.trans (yRun.slipRun (by rw [yTravel]) fun h => h.1 (by rw [yTravel]))).iff (n := u.slipsAt w dir) (by simp)
  have yGround : y.travel.ground = x.travel.ground := by rw [yTravel]
  have ySingle : ¬u.slipsAt w dir → State.WindowFollows (Travel.Rises u.travel y.travel) u y := fun hn => by
    refine ((xSingle hn).trans yRun.follows).iff ?_
    unfold Travel.Rises
    rw [or_false, yGround]
  have checkedFrom {a : Travel} (h : Travel.WatchChecked u.now x.travel a) :
      Travel.WatchChecked u.now { u.travel with watch := u.travel.keptWatch w } a := by
    unfold Travel.WatchChecked at h ⊢
    rw [xWatch] at h
    exact h
  rw [xNow] at yChecked
  by_cases hf : u.travel.sensorFault = some w
  · rw [if_pos (by rw [yFault]; exact hf)]
    have ends := State.endSensorFault_spec w y
    generalize y.endSensorFault w = v at *
    have vTravel := ends.travel
    have wheel : ∀ k, v.travel.wheel k = y.travel.wheel k := fun k => by rw [vTravel]; cases k <;> rfl
    have hold : v.travel.slipHold = y.travel.slipHold := by rw [vTravel]
    have yWatch : y.travel.watch = x.travel.watch := by
      by_cases moved : (u.edged w dir).speed ≠ (u.travel.wheel w).speed
      · exact (yChecked moved).1 (by rw [yFault, hf]; simp)
      · rw [yStays moved]
    have alarms := ySlip.alarms
    have gone := ends.gone
    unfold State.GoesAbsent at gone
    rw [alarms] at gone
    exact {
      own := (wheel _).trans ((yWheel _).trans own)
      other := (wheel _).trans ((yWheel _).trans other)
      travel := by
        have left : v.travel.left = x.travel.left := by rw [vTravel, yTravel]
        have right : v.travel.right = x.travel.right := by rw [vTravel, yTravel]
        have slip : v.travel.slipHold = x.travel.slipHold := by rw [vTravel, yTravel]
        have fault : v.travel.sensorFault = none := by rw [vTravel]
        rw [left, right, slip, fault]
        rw [yTravel, xTravel] at vTravel
        exact vTravel
      hold := fun hs => hold.trans (ySlip.hold hs)
      rests := fun hn => hold.trans (ySlip.rests hn)
      starts := fun hs hr => (ySlip.starts hs hr).stands ends.stands
      stands := fun h => (ySlip.stands h).trans ends.stands
      fault := by rw [if_pos hf, vTravel]
      gone := fun _ => gone
      alarms := fun hn => absurd hf hn
      unchecked := fun hn => absurd (.inl hf) hn
      checked := fun _ => checkedFrom (by
        have checked := ends.checked
        unfold Travel.WatchChecked at checked ⊢
        rw [yWatch, ySlip.now] at checked
        exact checked)
      formed := by
        obtain ⟨none, -⟩ := ends.formed
        obtain ⟨-, some⟩ := yFormed
        have before := (some w (yFault.trans hf)).2
        have fault : v.travel.sensorFault = Option.none := by rw [vTravel]
        refine ⟨fun _ => ⟨(none fault).1, ?_⟩, fun k hk => by rw [fault] at hk; cases hk⟩
        have dir := (none fault).2
        split at dir
        · next stopped =>
          rw [if_pos stopped, dir, before, if_neg]
          have zero := Travel.speed_zero stopped w.other
          rw [wheel] at zero
          omega
        · next moves => rw [if_neg moves]; exact dir
      follows := ⟨_, ySlip.follows.trans ends.follows, fun hr => hr.split.imp ySlip.rises id⟩
      single := fun _ hn => absurd hf hn
      events := fun l k hk => by
        simp only [List.mem_cons, List.not_mem_nil, or_false, not_or] at hk
        exact EventSet.sameKind_trans (ySlip.events l k (by simp [hk])) (ends.events l k (by simp [hk]))
      masks := fun l => (ends.masks l).trans (ySlip.masks l)
      tallies := fun z h1 h2 => by
        have bank : v.bank = y.bank := by rw [ends.rest]
        rw [bank]; exact ySlip.tallies z h1 h2
      rest := by
        have first := ySlip.rest
        have second := ends.rest
        have ceiling : v.ceiling = y.ceiling := by rw [second]
        have bank : v.bank = y.bank := by rw [second]
        rw [ceiling, bank]
        rw [first] at second
        exact second }
  · rw [if_neg (by rw [yFault]; exact hf)]
    exact {
      own := (yWheel _).trans own
      other := (yWheel _).trans other
      travel := by
        have left : y.travel.left = x.travel.left := by rw [yTravel]
        have right : y.travel.right = x.travel.right := by rw [yTravel]
        have slip : y.travel.slipHold = x.travel.slipHold := by rw [yTravel]
        have dir : y.travel.dir = x.travel.dir := by rw [yTravel]
        rw [left, right, slip, yFault, yGround, dir]
        refine yTravel.trans ?_
        exact congrArg (fun z : Travel => { z with watch := y.travel.watch }) xTravel
      hold := ySlip.hold
      rests := ySlip.rests
      starts := ySlip.starts
      stands := ySlip.stands
      fault := by rw [if_neg hf]; exact yFault
      gone := fun h => absurd h hf
      alarms := fun _ => ⟨ySlip.alarms, fun l => ySlip.events l _ (by decide)⟩
      unchecked := fun hn => by
        rw [← xWatch]
        by_cases moved : (u.edged w dir).speed ≠ (u.travel.wheel w).speed
        · exact (yChecked moved).1 fun none => hn (.inr ⟨yFault.symm.trans none, moved⟩)
        · rw [yStays moved]
      checked := fun hc => checkedFrom (yChecked (hc.resolve_left hf).2)
      formed := yFormed
      follows := ⟨_, ySlip.follows, ySlip.rises⟩
      single := fun hn _ => ySingle hn
      events := fun l k hk => ySlip.events l k (by simp at hk ⊢; tauto)
      masks := ySlip.masks
      tallies := ySlip.tallies
      rest := ySlip.rest }

end

end Sys2Proof.Machine
end

section
/-! Distance ticks, whatever the counts (R45, R112, R122): what they leave as it was. -/

namespace Sys2Proof.Machine

/-- Of the travel unit's counts, the bars' records and the tallies of ticks, nothing else moves from `s` to `t`. -/
structure State.TicksBeside (s t : State) : Prop where
  travel : t.travel = { s.travel with
    tickCount := t.travel.tickCount, metreRem := t.travel.metreRem, odometer := t.travel.odometer }
  spray : t.spray = { s.spray with left := t.spray.left, right := t.spray.right, main := t.spray.main }
  bank : t.bank = { s.bank with
    tallies := t.bank.tallies, sweptLeft := t.bank.sweptLeft, sweptRight := t.bank.sweptRight
    sweptMain := t.bank.sweptMain }
  tallies : ∀ x : Tally, x ≠ .shortfall → (∀ a, x ≠ .swept a) → t.bank.tallies[x.index] = s.bank.tallies[x.index]

section
variable {s t u : State}

theorem State.ticksBeside_refl (s : State) : State.TicksBeside s s := ⟨rfl, rfl, rfl, fun _ _ _ => rfl⟩

theorem State.TicksBeside.trans (h : State.TicksBeside s t) (k : State.TicksBeside t u) : State.TicksBeside s u where
  travel := by
    have first := h.travel
    have second := k.travel
    rw [first] at second
    exact second
  spray := by
    have first := h.spray
    have second := k.spray
    rw [first] at second
    exact second
  bank := by
    have first := h.bank
    have second := k.bank
    rw [first] at second
    exact second
  tallies x h1 h2 := (k.tallies x h1 h2).trans (h.tallies x h1 h2)

theorem State.modBar_beside (b : Bar) (f : BarRec → BarRec) (s : State) : State.TicksBeside s (s.modBar b f) :=
  ⟨rfl, by cases b <;> rfl, rfl, fun _ _ _ => rfl⟩

theorem State.bumpBy_beside {i : Tally} (hi : i = .shortfall ∨ ∃ a, i = .swept a) (n : Nat) (s : State) :
    State.TicksBeside s (s.bumpBy i n) :=
  ⟨rfl, rfl, rfl, fun x h1 h2 => (State.bumpBy_tallies i n s).2 x (by rintro rfl; exact hi.elim h1 fun ⟨a, ha⟩ => h2 a ha)⟩

theorem State.holdOwed_beside (b : Bar) (s : State) : State.TicksBeside s (s.holdOwed b) := by
  unfold State.holdOwed
  dsimp only
  split
  · exact ((State.modBar_beside _ _ _).trans (State.bumpBy_beside (.inl rfl) _ _)).trans (State.modBar_beside _ _ _)
  · exact State.ticksBeside_refl s

theorem State.barTick_beside (b : Bar) (s : State) : State.TicksBeside s (s.barTick b) := by
  unfold State.barTick
  split
  · exact (State.modBar_beside _ _ _).trans (State.holdOwed_beside _ _)
  · exact State.ticksBeside_refl s

theorem State.setSwept_beside (a : Arm) (n : Nat) (s : State) :
    State.TicksBeside s (s.modBank (TallyBank.setSwept a n)) :=
  ⟨rfl, rfl, by cases a <;> rfl, fun _ _ _ => by cases a <;> rfl⟩

theorem State.sweptTick_beside (a : Arm) (s : State) : State.TicksBeside s (s.sweptTick a) := by
  unfold State.sweptTick
  split
  · split
    · exact (State.setSwept_beside a 0 s).trans (State.bumpBy_beside (.inr ⟨a, rfl⟩) _ _)
    · exact State.setSwept_beside a (s.bank.swept a + 1) s
  · exact State.ticksBeside_refl s

theorem State.tick_beside (s : State) : State.TicksBeside s s.tick := by
  have water := ((State.barTick_beside .left s).trans (State.barTick_beside .right _)).trans (State.barTick_beside .main _)
  have arms := ((State.sweptTick_beside .left s.sprayTick).trans (State.sweptTick_beside .right _)).trans
    (State.sweptTick_beside .main _)
  have counted (x : State) : State.TicksBeside x (x.modTravel Travel.countTick) := by
    refine ⟨?_, rfl, rfl, fun _ _ _ => rfl⟩
    show x.travel.countTick = _
    unfold State.modTravel Travel.countTick
    split <;> rfl
  exact (water.trans arms).trans (counted _)

theorem State.ticks_beside (n : Nat) (s : State) : State.TicksBeside s (State.ticks n s) := by
  induction n generalizing s with
  | zero => exact State.ticksBeside_refl s
  | succ n ih => exact (State.tick_beside s).trans (ih s.tick)

end

/-- Ticks taken from a state that agrees with another on all that they read. -/
theorem State.TicksTaken.congr {n : Nat} {u x t : State} (h : State.TicksTaken n x t) (travel : x.travel.tickCount = u.travel.tickCount ∧
      x.travel.metreRem = u.travel.metreRem ∧ x.travel.odometer = u.travel.odometer) (arms : x.arms = u.arms)
    (unit : x.unit = u.unit) (settings : x.settings = u.settings) (spray : x.spray = u.spray)
    (swept : ∀ a, x.bank.swept a = u.bank.swept a)
    (tallies : ∀ i : Tally, i = .shortfall ∨ (∃ a, i = .swept a) → x.bank.tallies[i.index] = u.bank.tallies[i.index]) :
    State.TicksTaken n u t := by
  obtain ⟨counts, rem, odometer⟩ := travel
  have program : x.program = u.program := by unfold State.program State.inForce; rw [unit]
  have arm : ∀ a, x.arm a = u.arm a := fun a => by unfold State.arm; rw [arms]
  have owed : ∀ b, x.owedWith b n = u.owedWith b n := fun b => by unfold State.owedWith; rw [spray, program]
  have short : ∀ b, x.shortOf b n = u.shortOf b n := fun b => by unfold State.shortOf; rw [owed, spray, program, settings]
  obtain ⟨h1, h2, h3, h4, h5, h6⟩ := h
  rw [counts, rem, odometer] at h1
  simp only [arm, swept] at h2 h3
  rw [spray] at h4 h5 h6
  rw [program, settings] at h5
  simp only [owed, short] at h5
  rw [short, short, short, tallies _ (.inl rfl)] at h6
  refine ⟨h1, fun a ha => ?_, fun a ha => ?_, h4, h5, h6⟩
  · obtain ⟨count, tally⟩ := h2 a ha
    exact ⟨count, by rw [tally, tallies _ (.inr ⟨a, rfl⟩)]⟩
  · obtain ⟨count, tally⟩ := h3 a ha
    exact ⟨count, by rw [tally, tallies _ (.inr ⟨a, rfl⟩)]⟩

end Sys2Proof.Machine
end

section
/-! O28: the wheel edge as a whole (R30 to R45). -/

namespace Sys2Proof.Machine

/-! ### The record of an edge, in its three cases (R32, R33, R37) -/

section
variable {w : Wheel} {dir : Dir} {e : Micros} {u : State}

theorem WheelRec.period_eq_none {nowUs : Micros} {x : WheelRec} (h : x.lastEdge = none ∨ x.dir ≠ dir) :
    x.period nowUs dir = none := by
  unfold WheelRec.period
  cases hx : x.lastEdge with
  | none => rfl
  | some e => exact if_neg (h.resolve_left (by rw [hx]; simp))

theorem WheelRec.period_eq_some {nowUs : Micros} {x : WheelRec} (he : x.lastEdge = some e) (hd : x.dir = dir) :
    x.period nowUs dir = some (since nowUs e) := by
  unfold WheelRec.period
  rw [he]
  exact if_pos hd

theorem WheelRec.period_isSome {nowUs : Micros} {x : WheelRec} :
    (x.period nowUs dir).isSome = true ↔ x.lastEdge.isSome = true ∧ x.dir = dir := by
  unfold WheelRec.period
  cases x.lastEdge with
  | none => simp
  | some e => by_cases hd : x.dir = dir <;> simp [hd]

/-- Every edge stamps its record (R32). -/
theorem State.edged_stamp (w : Wheel) (dir : Dir) (u : State) :
    (u.edged w dir).lastEdge = some u.nowUs ∧ (u.edged w dir).lastEdgeTime = some u.now ∧ (u.edged w dir).dir = dir ∧
    (u.edged w dir).timeout = some (later u.now u.settings.travel.pulseTimeout) := by
  unfold State.edged
  dsimp only
  split <;> exact ⟨rfl, rfl, rfl, rfl⟩

/-- A first edge and a reversal clear the history and the speeds (R32). -/
theorem State.edged_untimed (h : (u.travel.wheel w).lastEdge = none ∨ (u.travel.wheel w).dir ≠ dir) :
    (u.edged w dir).history = [] ∧ (u.edged w dir).edgeSpeed = none ∧ (u.edged w dir).speed = 0 ∧
    (u.edged w dir).movingSince = none ∧ (u.edged w dir).accel = (u.travel.wheel w).accel := by
  unfold State.edged
  rw [WheelRec.period_eq_none h]
  exact ⟨rfl, rfl, rfl, rfl, rfl⟩

theorem State.edged_eq_timed (he : (u.travel.wheel w).lastEdge = some e) (hd : (u.travel.wheel w).dir = dir) :
    u.edged w dir = ((u.travel.wheel w).stamp u.now u.nowUs dir u.settings.travel.pulseTimeout).timed u.now
      (u.settings.travel.pitch w) (since u.nowUs e) := by
  unfold State.edged
  rw [WheelRec.period_eq_some he hd]

/-- Another edge gives a period, the speed of the mean, and the acceleration of the spin test (R33, R37). -/
theorem State.edged_timed (he : (u.travel.wheel w).lastEdge = some e) (hd : (u.travel.wheel w).dir = dir) :
    let x := u.travel.wheel w
    let y := u.edged w dir
    let p := since u.nowUs e
    y.history = (x.history ++ [p]).drop (x.history.length + 1 - 4) ∧
    y.speed = u.settings.travel.pitch w * 100000 / (y.history.sum / y.history.length) ∧ y.edgeSpeed = some y.speed ∧
    y.movingSince = (if x.speed = 0 ∧ 0 < y.speed then some u.now else x.movingSince) ∧
    (x.edgeSpeed = none → y.accel = x.accel) ∧
    (∀ prev, x.edgeSpeed = some prev →
      y.accel = max (-2147483648) (min 2147483647 ((((y.speed : Int) - prev) * 1000000).tdiv p))) := by
  intro x y p
  have hy : y = (x.stamp u.now u.nowUs dir u.settings.travel.pulseTimeout).timed u.now (u.settings.travel.pitch w) p :=
    State.edged_eq_timed he hd
  clear_value y
  subst hy
  refine ⟨rfl, rfl, rfl, rfl, fun h => ?_, fun prev h => ?_⟩
  · simp only [WheelRec.timed, WheelRec.stamp, h]
  · simp only [WheelRec.timed, WheelRec.stamp, h] <;> rfl

/-- The spin test, by the record that the edge leaves (R37). -/
theorem State.spinsAt_iff : u.spinsAt w dir ↔ ∃ e prev, (u.travel.wheel w).lastEdge = some e ∧ (u.travel.wheel w).dir = dir ∧
    (u.travel.wheel w).edgeSpeed = some prev ∧ (u.settings.travel.spinLimit : Int) <
      ((((u.edged w dir).speed : Int) - prev) * 1000000).tdiv (since u.nowUs e) := by
  constructor
  · rintro ⟨p, hp, spins⟩
    obtain ⟨some, hd⟩ := WheelRec.period_isSome.1 (by rw [hp]; rfl)
    obtain ⟨e, he⟩ := Option.isSome_iff_exists.1 some
    rw [WheelRec.period_eq_some he hd] at hp
    cases hp
    unfold WheelRec.spins at spins
    cases hs : (u.travel.wheel w).edgeSpeed with
    | none => rw [hs] at spins; cases spins
    | some prev =>
      rw [hs] at spins
      refine ⟨e, prev, he, hd, rfl, ?_⟩
      rw [State.edged_eq_timed he hd]
      exact of_decide_eq_true spins
  · rintro ⟨e, prev, he, hd, hs, beyond⟩
    refine ⟨_, WheelRec.period_eq_some he hd, ?_⟩
    unfold WheelRec.spins
    rw [hs]
    rw [State.edged_eq_timed he hd] at beyond
    exact decide_eq_true beyond

theorem State.stillAt_iff_record : u.stillAt w dir ↔ (u.travel.wheel w).lastEdge.isSome = true ∧
    (u.travel.wheel w).dir = dir ∧ u.travel.sensorFault = none ∧ (u.travel.wheel w.other).speed = 0 ∧
    300 ≤ since u.now ((u.travel.wheel w.other).lastEdgeTime.getD 0) ∧
    ∃ m, (u.edged w dir).movingSince = some m ∧ 300 ≤ since u.now m := by
  unfold State.stillAt
  rw [WheelRec.period_isSome, and_assoc]

end

/-! ### Distance (R44, R45) -/

/-- An edge's distance, and the ticks that it completes, from `x` to `v`. -/
structure State.EdgeDistance (w : Wheel) (x v : State) : Prop where
  travel : v.travel = { x.travel with
    accumulator := v.travel.accumulator, tickCount := v.travel.tickCount, metreRem := v.travel.metreRem
    odometer := v.travel.odometer }
  accumulator : v.travel.accumulator =
    (x.travel.accumulator + x.travel.distance w (x.settings.travel.pitch w)) % 200
  ticks : x.CountLaw → State.TicksTaken
    ((x.travel.accumulator + x.travel.distance w (x.settings.travel.pitch w)) / 200) x v
  spray : v.spray = { x.spray with left := v.spray.left, right := v.spray.right, main := v.spray.main }
  bank : v.bank = { x.bank with
    tallies := v.bank.tallies, sweptLeft := v.bank.sweptLeft, sweptRight := v.bank.sweptRight
    sweptMain := v.bank.sweptMain }
  tallies : ∀ i : Tally, i ≠ .shortfall → (∀ a, i ≠ .swept a) → v.bank.tallies[i.index] = x.bank.tallies[i.index]
  rest : v = { x with travel := v.travel, spray := v.spray, bank := v.bank }

theorem State.addDistance_spec (w : Wheel) (x : State) : State.EdgeDistance w x (x.addDistance w) := by
  obtain ⟨n, hn⟩ : ∃ n, n = x.travel.accumulator + x.travel.distance w (x.settings.travel.pitch w) := ⟨_, rfl⟩
  obtain ⟨y, hy⟩ : ∃ y, y = x.modTravel fun t => { t with accumulator := n % 200 } := ⟨_, rfl⟩
  have e : x.addDistance w = State.ticks (n / 200) y := by rw [hy, hn]; rfl
  have beside := State.ticks_beside (n / 200) y
  have counted := fun h => (State.ticks_spec (n / 200) y _ h rfl).1
  obtain ⟨clock, periods, unit, ceiling, gov, arms, scan, output, links, notices, settings, freeCount, pending⟩ :=
    State.ticks_frame (n / 200) y
  rw [e]
  generalize State.ticks (n / 200) y = v at *
  have yTravel : y.travel = { x.travel with accumulator := n % 200 } := by rw [hy]; rfl
  have accumulator : v.travel.accumulator = n % 200 := by rw [beside.travel, yTravel]
  refine ⟨?_, by rw [← hn]; exact accumulator, fun h => ?_, ?_, ?_, fun i h1 h2 => ?_, ?_⟩
  · have travel := beside.travel
    rw [yTravel] at travel
    rw [accumulator]
    exact travel
  · rw [← hn]
    have law : y.CountLaw := by
      rw [hy]; exact ⟨Nat.mod_lt _ (by decide), h.2⟩
    exact (counted law).congr (by rw [yTravel]; exact ⟨rfl, rfl, rfl⟩) (by rw [hy]; rfl) (by rw [hy]; rfl) (by rw [hy]; rfl)
      (by rw [hy]; rfl) (fun _ => by rw [hy]; rfl) fun _ _ => by rw [hy]; rfl
  · rw [hy] at beside; exact beside.spray
  · rw [hy] at beside; exact beside.bank
  · rw [beside.tallies i h1 h2, hy]; rfl
  · rw [hy] at clock periods unit ceiling gov arms scan output links notices settings freeCount pending
    exact State.eq_of_fields clock periods unit rfl ceiling gov arms rfl scan output links notices rfl settings freeCount pending

end Sys2Proof.Machine
end

section
/-! O28: the wheel edge, from the parts that `State.EdgeTaken` and `State.EdgeDistance` have. -/

namespace Sys2Proof.Machine

/-- The state that the work of an edge has reached before its distance. -/
def State.edgeBefore (w : Wheel) (dir : Dir) (u : State) : State :=
  let x := (u.modTravel (Travel.endWatchAt w)).applyEdge w dir
  let y := if (x.travel.wheel w).speed ≠ (u.travel.wheel w).speed then x.checkWatch else x
  if y.travel.sensorFault = some w then y.endSensorFault w else y

theorem State.acceptEdge_eq (w : Wheel) (dir : Dir) (u : State) :
    u.acceptEdge w dir =
      let v := (u.edgeBefore w dir).addDistance w
      if v.unit.mode = .service then v.leaveService else v := rfl

theorem State.edgeBefore_countLaw {w : Wheel} {dir : Dir} {u : State} (h : u.CountLaw) : (u.edgeBefore w dir).CountLaw := by
  have k := countLaw_keptCore
  have edge : ((u.modTravel (Travel.endWatchAt w)).applyEdge w dir).CountLaw := k.applyEdge (k.travel (fun _ => ⟨rfl, rfl⟩) h)
  unfold State.edgeBefore
  dsimp only
  have watched : ∀ (c : Prop) [Decidable c] (x : State), x.CountLaw → (if c then x.checkWatch else x).CountLaw :=
    fun c _ x hx => iteInduction (fun _ => k.checkWatch hx) fun _ => hx
  have ended : ∀ y : State, y.CountLaw → (if y.travel.sensorFault = some w then y.endSensorFault w else y).CountLaw :=
    fun y hy => iteInduction (fun _ => k.checkWatch (k.formGround (k.alarmGone (k.travel (fun _ => ⟨rfl, rfl⟩) hy)))) fun _ => hy
  exact ended _ (watched _ _ edge)

/-- An edge up to the end of SERVICE: the parts before its distance and its distance, from `u` over `x` to `v`. -/
structure State.EdgeRun (w : Wheel) (dir : Dir) (u x v : State) : Prop where
  taken : State.EdgeTaken w dir u x
  distance : State.EdgeDistance w x v
  law : u.CountLaw → x.CountLaw

theorem State.edgeRun_spec (w : Wheel) (dir : Dir) (u : State) :
    ∃ x, State.EdgeRun w dir u x ((u.edgeBefore w dir).addDistance w) :=
  ⟨u.edgeBefore w dir, State.edgeTaken_spec w dir u, State.addDistance_spec w _, State.edgeBefore_countLaw⟩

section
variable {w : Wheel} {dir : Dir} {u x v : State}

theorem State.EdgeDistance.wheel (h : State.EdgeDistance w x v) (k : Wheel) : v.travel.wheel k = x.travel.wheel k := by
  rw [h.travel]; cases k <;> rfl

theorem State.EdgeDistance.slipStands (h : State.EdgeDistance w x v) : State.SlipStands x v := by
  have rest := h.rest
  have notices : v.notices = x.notices := by rw [rest]
  exact ⟨⟨by rw [rest], by unfold State.now; rw [rest], by rw [rest], fun l => by rw [notices]; exact ⟨rfl, rfl⟩,
    h.tallies _ (by decide) (by simp)⟩, fun l => by rw [notices]; exact ⟨rfl, rfl⟩, h.tallies _ (by decide) (by simp)⟩

/-- What the distance adds is by the state of the unit after the edge (R44). -/
theorem Travel.distance_eq (t : Travel) (w : Wheel) (pitch : Nat) : t.distance w pitch =
    if t.sensorFault ≠ none then 2 * pitch else if t.slipHold = none then pitch
    else if (t.wheel w).speed < (t.wheel w.other).speed then 2 * pitch
    else if (t.wheel w.other).speed < (t.wheel w).speed then 0 else pitch := by
  unfold Travel.distance
  cases t.sensorFault with
  | some k => simp
  | none => cases t.slipHold <;> simp

/-- The watch after the edge (R42, R43). -/
theorem State.EdgeTaken.watch (h : State.EdgeTaken w dir u v) :
    let holds := fun (a : Wheel) => (v.travel.wheel a).speed = 0 ∧ 500 < (v.travel.wheel a.other).speed
    u.checksAt w dir →
    (∀ a, u.travel.keptWatch w = some a → holds a.wheel → v.travel.watch = some a) ∧
    ((∀ a, u.travel.keptWatch w = some a → ¬holds a.wheel) → v.travel.watch =
      (if holds .left then some ⟨.left, u.now⟩ else if holds .right then some ⟨.right, u.now⟩ else none)) := by
  intro holds hc
  have fault : v.travel.sensorFault = none := by
    rw [h.fault]
    rcases hc with hf | ⟨hf, -⟩
    · rw [if_pos hf]
    · rw [if_neg (by simp [hf])]; exact hf
  exact (h.checked hc).2 fault

/-- Ground speed and direction after the edge (R40, R41). -/
theorem State.EdgeTaken.ground (h : State.EdgeTaken w dir u v) (hf : v.travel.sensorFault ≠ none) :
    v.travel.ground = (v.travel.wheel w).speed ∧
    v.travel.dir = if 0 < (v.travel.wheel w).speed then dir else u.travel.dir := by
  obtain ⟨k, hk⟩ := Option.ne_none_iff_exists'.1 hf
  have other : k.other = w := by
    have fault := h.fault
    rw [hk] at fault
    split at fault
    · cases fault
    · next hn =>
      have : k ≠ w := fun hw => hn (by rw [← fault, hw])
      revert this; cases k <;> cases w <;> decide
  have formed := h.formed.2 k hk
  rw [other] at formed
  have dir' : (v.travel.wheel w).dir = dir := by rw [h.own]; exact (State.edged_stamp w dir u).2.2.1
  rw [dir'] at formed
  exact formed

/-- The restart window after the edge (R187). -/
theorem State.EdgeTaken.window (h : State.EdgeTaken w dir u v) (rises : Travel.Rises u.travel v.travel) :
    v.links.window = none ∧ ∀ a, u.links.window = some a → (v.notices.events a.holder).pending.getLsbD 10 = true := by
  obtain ⟨p, ⟨-, closes, stands⟩, hp⟩ := h.follows
  cases hw : u.links.window with
  | none =>
    have same := (stands (.inr hw)).1
    exact ⟨by rw [same]; exact hw, fun a ha => nomatch ha⟩
  | some a =>
    obtain ⟨none, told, -⟩ := closes (hp rises) a hw
    refine ⟨none, fun b hb => ?_⟩
    cases hb
    exact told

/-- The whole edge, before SERVICE is left, moves nothing but what the rules of R30 to R45 name. -/
theorem State.EdgeRun.rest (h : State.EdgeRun w dir u x v) : v = { u with
    travel := v.travel, ceiling := v.ceiling, links := v.links, notices := v.notices
    spray := { u.spray with left := v.spray.left, right := v.spray.right, main := v.spray.main }
    bank := { u.bank with
      tallies := v.bank.tallies, sweptLeft := v.bank.sweptLeft, sweptRight := v.bank.sweptRight
      sweptMain := v.bank.sweptMain } } := by
  have first := h.taken.rest
  have second := h.distance.rest
  have spray := h.distance.spray
  have bank := h.distance.bank
  have xSpray : x.spray = u.spray := by rw [first]
  have xBank : x.bank = { u.bank with tallies := x.bank.tallies } := by rw [first]
  have ceiling : v.ceiling = x.ceiling := by rw [second]
  have links : v.links = x.links := by rw [second]
  have notices : v.notices = x.notices := by rw [second]
  rw [xSpray] at spray
  rw [xBank] at bank
  rw [ceiling, links, notices]
  rw [first, spray, bank] at second
  exact second

end

end Sys2Proof.Machine
end

section
/-! O28: the wheel edge as a whole, from its run. -/

namespace Sys2Proof.Machine

theorem execWheelEdge_discarded {after : Nat} {w : Wheel} {dir : Dir} {s : State} {e : Micros}
    (he : (s.travel.wheel w).lastEdge = some e) (hs : since (s.elapse after).nowUs e < 100) :
    exec (.wheelEdge after w dir) s = .next (s.elapse after) := by
  refine if_neg ?_
  have same : (s.elapse after).travel = s.travel := (State.elapse_frame after s).2.2.1
  unfold State.acceptsEdge
  rw [same, he]
  simp
  exact hs

theorem execWheelEdge_accepted {after : Nat} {w : Wheel} {dir : Dir} {s : State}
    (h : ∀ e, (s.travel.wheel w).lastEdge = some e → 100 ≤ since (s.elapse after).nowUs e) :
    exec (.wheelEdge after w dir) s = .next ((s.elapse after).acceptEdge w dir) := by
  refine if_pos ?_
  have same : (s.elapse after).travel = s.travel := (State.elapse_frame after s).2.2.1
  unfold State.acceptsEdge
  rw [same]
  cases he : (s.travel.wheel w).lastEdge with
  | none => rfl
  | some e => exact decide_eq_true (h e he)

/-- The last edge has no place in the record of its own: SERVICE is left last (R13). -/
theorem State.acceptEdge_leaves (w : Wheel) (dir : Dir) (u : State) :
    let v := (u.edgeBefore w dir).addDistance w
    (v.unit.mode ≠ .service → u.acceptEdge w dir = v) ∧
    (v.unit.mode = .service → State.LeavesService v (u.acceptEdge w dir)) := by
  intro v
  rw [State.acceptEdge_eq]
  refine ⟨fun h => if_neg h, fun h => ?_⟩
  rw [show (let v := (u.edgeBefore w dir).addDistance w; if v.unit.mode = .service then v.leaveService else v) =
    v.leaveService from if_pos h]
  exact State.leaveService_spec v

section
variable {w : Wheel} {dir : Dir} {u x v : State}

/-- A start of slip hold, as the whole edge leaves it (R39). -/
theorem State.EdgeRun.slipStarts (h : State.EdgeRun w dir u x v) (slips : u.slipsAt w dir) (hold : u.travel.slipHold = none) :
    State.SlipStarts u v := (h.taken.starts slips hold).stands h.distance.slipStands

theorem State.EdgeRun.slipStands (h : State.EdgeRun w dir u x v) (none : ¬u.slipsAt w dir ∨ u.travel.slipHold.isSome = true) :
    State.SlipStands u v := (h.taken.stands none).trans h.distance.slipStands

theorem State.SlipStarts.entry (h : State.SlipStarts u v) :
    (v.ceiling.entry .traction).active = true ∧ (v.ceiling.entry .traction).cap = u.settings.caps.traction ∧
    (∀ src, src ≠ .traction → v.ceiling.sameEntry u.ceiling src) ∧ State.CeilingReports u u.tractionPosted := by
  obtain ⟨active, cap, -⟩ := State.activate_spec .traction u.settings.caps.traction u
  rw [h.traction.ceiling]
  exact ⟨active, cap, fun src hs => State.activate_other (s := u) u.settings.caps.traction hs, State.activate_reports _ _ u⟩

/-- The distance of the edge, by the speeds and the states that it leaves (R44). -/
theorem State.EdgeRun.accumulator (h : State.EdgeRun w dir u x v) :
    let pitch := u.settings.travel.pitch w
    let d := if v.travel.sensorFault ≠ none then 2 * pitch else if v.travel.slipHold = none then pitch
      else if (v.travel.wheel w).speed < (u.travel.wheel w.other).speed then 2 * pitch
      else if (u.travel.wheel w.other).speed < (v.travel.wheel w).speed then 0 else pitch
    v.travel.accumulator = (u.travel.accumulator + d) % 200 ∧
    (u.CountLaw → State.TicksTaken ((u.travel.accumulator + d) / 200) u v) := by
  intro pitch d
  have first := h.taken
  have rest := first.rest
  have settings : x.settings = u.settings := by rw [rest]
  have same : x.travel.distance w (x.settings.travel.pitch w) = d := by
    have fault : v.travel.sensorFault = x.travel.sensorFault := by rw [h.distance.travel]
    have hold : v.travel.slipHold = x.travel.slipHold := by rw [h.distance.travel]
    rw [Travel.distance_eq, ← fault, ← hold, ← h.distance.wheel, first.other, settings]
  have sum : x.travel.accumulator = u.travel.accumulator := by rw [first.travel]
  have moved := h.distance.accumulator
  have ticks := h.distance.ticks
  rw [same, sum] at moved ticks
  refine ⟨moved, fun law => (ticks (h.law law)).congr (by rw [first.travel]; exact ⟨rfl, rfl, rfl⟩) (by rw [rest])
    (by rw [rest]) settings (by rw [rest]) (fun a => ?_) fun i hi => first.tallies i ?_ ?_⟩
  · rw [rest]; cases a <;> rfl
  · rintro rfl; rcases hi with hi | ⟨a, hi⟩
    · cases hi
    · cases hi
  · rintro rfl; rcases hi with hi | ⟨a, hi⟩
    · cases hi
    · cases hi

end


/-- The records and the states of the unit are those that the edge leaves before its distance. -/
structure State.EdgeSame (x v : State) : Prop where
  wheel : ∀ k, x.travel.wheel k = v.travel.wheel k
  left : x.travel.left = v.travel.left
  right : x.travel.right = v.travel.right
  hold : x.travel.slipHold = v.travel.slipHold
  fault : x.travel.sensorFault = v.travel.sensorFault
  watch : x.travel.watch = v.travel.watch
  ground : x.travel.ground = v.travel.ground
  dir : x.travel.dir = v.travel.dir
  notices : x.notices = v.notices
  links : x.links = v.links
  ceiling : x.ceiling = v.ceiling

theorem State.EdgeDistance.same {w : Wheel} {x v : State} (h : State.EdgeDistance w x v) : State.EdgeSame x v := by
  have travel := h.travel
  have rest := h.rest
  exact ⟨fun k => (h.wheel k).symm, by rw [travel], by rw [travel], by rw [travel], by rw [travel], by rw [travel],
    by rw [travel], by rw [travel], by rw [rest], by rw [rest], by rw [rest]⟩

/-- Ground speed and direction, as they are formed last (R40, R41). -/
theorem State.EdgeRun.formed {w : Wheel} {dir : Dir} {u x v : State} (h : State.EdgeRun w dir u x v) :
    (v.travel.sensorFault = none → v.travel.ground = (if v.travel.slipHold.isSome = true then
        min v.travel.left.speed v.travel.right.speed else (v.travel.left.speed + v.travel.right.speed) / 2) ∧
      v.travel.dir = (if v.travel.left.speed = 0 ∧ v.travel.right.speed = 0 then u.travel.dir
        else if v.travel.left.speed < v.travel.right.speed then v.travel.right.dir else v.travel.left.dir)) ∧
    (v.travel.sensorFault ≠ none → v.travel.ground = (v.travel.wheel w).speed ∧
      v.travel.dir = if 0 < (v.travel.wheel w).speed then dir else u.travel.dir) := by
  have same := h.distance.same
  have working := h.taken.ground
  have both := h.taken.formed.1
  rw [same.fault, same.ground, same.dir, same.wheel] at working
  rw [same.fault, same.ground, same.dir, same.left, same.right, same.hold] at both
  exact ⟨both, working⟩

/-- The watch, as the edge leaves it (R42, R43). -/
theorem State.EdgeRun.watch {w : Wheel} {dir : Dir} {u x v : State} (h : State.EdgeRun w dir u x v) :
    let holds := fun (a : Wheel) => (v.travel.wheel a).speed = 0 ∧ 500 < (v.travel.wheel a.other).speed
    (¬u.checksAt w dir → v.travel.watch = u.travel.keptWatch w) ∧
    (u.checksAt w dir →
      (∀ a, u.travel.keptWatch w = some a → holds a.wheel → v.travel.watch = some a) ∧
      ((∀ a, u.travel.keptWatch w = some a → ¬holds a.wheel) → v.travel.watch =
        (if holds .left then some ⟨.left, u.now⟩ else if holds .right then some ⟨.right, u.now⟩ else none))) := by
  have same := h.distance.same
  have checked := h.taken.watch
  have unchecked := h.taken.unchecked
  simp only [same.watch, same.wheel] at checked unchecked
  exact ⟨unchecked, checked⟩

/-- The restart window, as the edge leaves it (R187). -/
theorem State.EdgeRun.window {w : Wheel} {dir : Dir} {u x v : State} (h : State.EdgeRun w dir u x v) :
    (Travel.Rises u.travel v.travel → v.links.window = none ∧
      ∀ a, u.links.window = some a → (v.notices.events a.holder).pending.getLsbD 10 = true) ∧
    (¬u.slipsAt w dir → u.travel.sensorFault ≠ some w → ¬Travel.Rises u.travel v.travel →
      v.links = u.links ∧ ∀ l : Link, (v.notices.events l).sameKind (u.notices.events l) .restartLapsed) ∧
    (∀ l, v.link l = u.link l) := by
  have same := h.distance.same
  have rises : Travel.Rises u.travel x.travel ↔ Travel.Rises u.travel v.travel := by unfold Travel.Rises; rw [same.ground]
  have closes := h.taken.window
  have single := h.taken.single
  obtain ⟨p, ⟨links, -⟩, -⟩ := h.taken.follows
  unfold State.link at links ⊢
  rw [rises, same.links, same.notices] at closes
  rw [same.links] at links
  refine ⟨closes, fun hs hf hr => ?_, links⟩
  have stands := (single hs hf).2.2 (.inl fun h => hr (rises.1 h))
  rw [same.links, same.notices] at stands
  exact stands

/-- Settles O28: up to the end of SERVICE, the edge is `State.edgeRun_spec`. -/
theorem wheelEdgesTaken : Obligations.WheelEdgesTaken := by
  unfold Obligations.WheelEdgesTaken
  intro after w dir s
  refine ⟨fun e he hs => execWheelEdge_discarded he hs, fun accepts => ?_⟩
  obtain ⟨same, elapsed⟩ := State.acceptEdge_leaves w dir (s.elapse after)
  refine ⟨((s.elapse after).edgeBefore w dir).addDistance w, _, execWheelEdge_accepted accepts, ?_⟩
  obtain ⟨x, run⟩ := State.edgeRun_spec w dir (s.elapse after)
  have tallies := State.elapse_tallies after s
  have law : s.CountLaw → (s.elapse after).CountLaw := countLaw_keptCore.elapse
  have mode : (((s.elapse after).edgeBefore w dir).addDistance w).unit = s.unit := by rw [run.rest]; simp
  rw [mode] at same elapsed
  generalize (s.elapse after).acceptEdge w dir = t at *
  generalize ((s.elapse after).edgeBefore w dir).addDistance w = v at *
  have taken := run.taken
  have kept := run.distance.same
  have own : v.travel.wheel w = (s.elapse after).edged w dir := (kept.wheel w).symm.trans taken.own
  obtain ⟨lastEdge, lastTime, ran, timeout⟩ := State.edged_stamp w dir (s.elapse after)
  have untimed := State.edged_untimed (u := s.elapse after) (w := w) (dir := dir)
  have timed := fun e he hd => State.edged_timed (u := s.elapse after) (w := w) (dir := dir) (e := e) he hd
  have slips : (s.elapse after).slipsAt w dir ↔ _ := or_congr State.spinsAt_iff State.stillAt_iff_record
  have slipStarts := run.slipStarts
  have slipStands := run.slipStands
  have slipHold := taken.hold
  have slipRests := taken.rests
  have watch := run.watch
  have window := run.window
  unfold State.checksAt at watch
  rw [← own] at lastEdge lastTime ran timeout untimed slips watch
  simp only [← own] at timed
  rw [slips] at slipStarts slipStands slipHold slipRests window
  rw [kept.hold] at slipHold slipRests
  have eventsGone := taken.alarms
  have fault := taken.fault
  have gone := taken.gone
  rw [kept.notices] at eventsGone
  rw [kept.fault] at fault
  have accumulator := run.accumulator
  refine ⟨lastEdge, lastTime, ran, timeout, untimed, timed, (kept.wheel _).symm.trans taken.other, slipHold, fun hs hn => ?_,
    slipRests, fun hn => ?_, fault, fun hf => ?_, eventsGone, watch, run.formed.1, run.formed.2,
    fun moved pos => window.1 ⟨moved, pos⟩, fun hs hf stands => ?_, window.2.2,
    ⟨accumulator.1, fun h => accumulator.2 (law h)⟩, fun l k hk => ?_, fun l => ?_, fun i hi ha => ?_, run.rest, same, elapsed⟩
  · have starts := slipStarts hs hn
    obtain ⟨active, cap, others, reports⟩ := starts.entry
    refine ⟨starts.once, ?_, active, cap, others, _, reports, starts.traction.ceiling, starts.traction.events,
      starts.traction.stops⟩
    rw [← tallies]
    exact starts.counted
  · have stands := slipStands hn
    exact ⟨stands.kept.ceiling, stands.events, stands.kept.events, stands.tally.trans (by rw [tallies]),
      stands.kept.stops.trans (by rw [tallies])⟩
  · have absent := gone hf
    unfold State.GoesAbsent State.told at absent ⊢
    rw [kept.notices] at absent
    cases w <;> exact absent
  · refine window.2.1 hs hf fun rises => ?_
    rcases stands with h | h
    · exact rises.1 h
    · exact absurd rises.2 (by rw [h]; decide)
  · have moved := taken.events l k hk
    rw [kept.notices] at moved
    exact moved
  · have masks := taken.masks l
    rw [kept.notices] at masks
    exact masks
  · simp only [List.mem_cons, List.not_mem_nil, or_false, not_or] at hi
    have moved := (run.distance.tallies i hi.2.2 ha).trans (taken.tallies i hi.1 hi.2.1)
    rw [tallies] at moved
    exact moved

end Sys2Proof.Machine
end

section
/-! O41, O42: the requests to the Spray Controller and its timers. -/

namespace Sys2Proof.Machine

/-! ### SPRAY_ENABLE (R118) -/

theorem Bar.ofNumber_eq_none {n : Nat} (h : 2 < n) : Bar.ofNumber n = none := by
  match n, h with
  | n + 3, _ => rfl

theorem Bar.ofNumber_eq_some {n : Nat} {b : Bar} (h : n = match b with | .left => 0 | .right => 1 | .main => 2) :
    Bar.ofNumber n = some b := by
  subst h
  cases b <;> rfl

theorem State.sprayEnable_unknown {n on : Byte} {s : State} (h : 2 < n.toNat ∨ 1 < on.toNat) :
    State.sprayEnable n on s = answer .unknown s := by
  unfold State.sprayEnable
  rcases h with h | h
  · rw [Bar.ofNumber_eq_none h]
  · cases Bar.ofNumber n.toNat with
    | none => rfl
    | some b => exact if_pos h

theorem State.sprayEnable_taken {n on : Byte} {b : Bar} {s : State} (hb : Bar.ofNumber n.toNat = some b) (ho : on.toNat ≤ 1) :
    State.sprayEnable n on s = answer .done (s.modBar b fun x => { x with enable := on.toNat == 1 }).judgeBars := by
  unfold State.sprayEnable
  rw [hb]
  exact if_neg (Nat.not_lt.2 ho)

theorem State.modBar_rest (b : Bar) (f : BarRec → BarRec) (s : State) :
    s.modBar b f = { s with spray := { s.spray with
      left := (s.modBar b f).spray.left, right := (s.modBar b f).spray.right, main := (s.modBar b f).spray.main } } := by
  cases b <;> rfl

/-! ### CLEAR_SPRAY_FAULT (R133) -/

theorem State.clearSprayFault_idle {s : State} (h : s.spray.latch = false) : s.clearSprayFault = answer .notActive s :=
  if_pos (by rw [h]; rfl)

theorem State.clearSprayFault_faulty {s : State} (h : s.spray.latch = true) (hf : s.output.channels[(14 : Channel)].fault ≠ .none) :
    s.clearSprayFault = answer .state s :=
  (if_neg (by rw [h]; decide)).trans (if_pos ((Output.stateOf_eq_fault _ _).2 hf))

theorem State.clearSprayFault_taken {s : State} (h : s.spray.latch = true)
    (hf : s.output.channels[(14 : Channel)].fault = .none) : s.clearSprayFault = answer .done s.clearDryLatch :=
  (if_neg (by rw [h]; decide)).trans (if_neg fun e => (Output.stateOf_eq_fault _ _).1 e hf)

/-- Settles O41: each answer is a branch of the request, and a taken one is judged by `State.judgeBars_spec`. -/
theorem sprayRequestsTaken : Obligations.SprayRequestsTaken := by
  unfold Obligations.SprayRequestsTaken
  intro h n on s
  rw [← State.taken_spray h s, ← State.taken_output h s]
  refine ⟨fun hp => ?_, fun hp => ?_⟩
  · have run {c : Code} {t : State} (ha : bodyOnly h.link (State.sprayEnable n on) (s.taken h) = answer c t) :
        exec (.sprayEnable h n on) s = .next (t.answered h 23 c []) :=
      congrArg Host.Outcome.next (State.serve_eq_answered hp ha)
    have body (hl : h.link = .body) : bodyOnly h.link (State.sprayEnable n on) (s.taken h) = (s.taken h).sprayEnable n on := by
      rw [hl]; rfl
    generalize s.taken h = u at *
    refine ⟨⟨fun hl => run (by rw [hl]; rfl), fun hl hn => run ((body hl).trans (State.sprayEnable_unknown hn))⟩,
      fun b hl hn ho => ?_⟩
    have taken := run ((body hl).trans (State.sprayEnable_taken (Bar.ofNumber_eq_some hn) ho))
    obtain ⟨v, hv⟩ : ∃ v, v = u.modBar b fun x => { x with enable := on.toNat == 1 } := ⟨_, rfl⟩
    rw [← hv] at taken
    obtain ⟨settles, judged, settled⟩ := State.judgeBars_spec v
    exact ⟨v, _, taken, by rw [hv]; exact Spray.modBar_same _ _ _, fun k hk => by rw [hv]; exact Spray.modBar_other hk _ _,
      by rw [hv]; exact State.modBar_rest _ _ _, settles, settled, judged⟩
  · have run {c : Code} {t : State} (ha : bodyOnly h.link State.clearSprayFault (s.taken h) = answer c t) :
        exec (.clearSprayFault h) s = .next (t.answered h 24 c []) :=
      congrArg Host.Outcome.next (State.serve_eq_answered hp ha)
    have body (hl : h.link = .body) : bodyOnly h.link State.clearSprayFault (s.taken h) = (s.taken h).clearSprayFault := by
      rw [hl]; rfl
    generalize s.taken h = u at *
    refine ⟨⟨fun hl => run (by rw [hl]; rfl), fun hl hk => run ((body hl).trans (State.clearSprayFault_idle hk)),
      fun hl hk hf => run ((body hl).trans (State.clearSprayFault_faulty hk hf))⟩, fun hl hk hf => ?_⟩
    have taken := run ((body hl).trans (State.clearSprayFault_taken hk hf))
    obtain ⟨v, hv⟩ : ∃ v, v = u.modSpray fun y => { y with latch := false } := ⟨_, rfl⟩
    obtain ⟨x, hx⟩ : ∃ x, x = v.alarmGone .pumpDry 0 := ⟨_, rfl⟩
    have e : u.clearDryLatch = x.judgeBars := by rw [hx, hv]; rfl
    rw [e] at taken
    have gone := State.alarmGone_goes .pumpDry 0 v
    have rest := State.alarmGone_rest .pumpDry 0 v
    rw [← hx] at gone rest
    have notices : v.notices = u.notices := by rw [hv]; rfl
    unfold State.GoesAbsent at gone ⊢
    rw [notices] at gone
    obtain ⟨settles, judged, settled⟩ := State.judgeBars_spec x
    exact ⟨x, _, taken, gone, by rw [hv] at rest; exact rest, settles, settled, judged⟩

/-! ### The pump period and the end of a pulse (R126, R131, R132) -/

/-- A bar is active only while the latch is clear (R117). -/
theorem State.barMayBeActive_of_latch {b : Bar} {s : State} (h : s.spray.latch = true) : s.barMayBeActive b = false := by
  unfold State.barMayBeActive
  rw [h]
  simp

/-- The setting of the pump-dry latch, with a bar active (R132). -/
theorem State.setDryLatch_spec {s : State} (hl : s.spray.latch = false) (ha : s.spray.anyActive = true) :
    let t := s.setDryLatch
    t.spray.latch = true ∧ (∀ b : Bar, (t.spray.bar b).active = false) ∧ t.spray.duty = 0 ∧ t.spray.dryCount = 0 ∧
    t.output.channels[(14 : Channel)].setpoint = 0 ∧
    (t.ceiling.entry .drySweep).active = decide (s.unit.mode = .sweep) ∧
    State.Raises .pumpDry 0 s t ∧ t.unit = s.unit ∧ t.gov = s.gov ∧ t.arms = s.arms := by
  intro t
  obtain ⟨v, hv⟩ : ∃ v, v = s.modSpray fun y => { y with latch := true, dryCount := 0 } := ⟨_, rfl⟩
  obtain ⟨x, hx⟩ : ∃ x, x = v.raiseAlarm .pumpDry 0 := ⟨_, rfl⟩
  have e : t = x.judgeBars := by
    rw [hx, hv]; exact if_neg (by rw [hl]; decide)
  obtain ⟨settles, judged, settled⟩ := State.judgeBars_spec x
  have raises := State.raiseAlarm_raises .pumpDry 0 v
  have rest := State.raiseAlarm_rest .pumpDry 0 v
  rw [← hx] at raises rest
  rw [← e] at settles judged settled
  clear_value t
  have frame := settles.rest
  have spray : x.spray = { s.spray with latch := true, dryCount := 0 } := by rw [rest, hv]; rfl
  have unit : t.unit = s.unit := by rw [frame, rest, hv]; rfl
  have now : t.now = x.now := by unfold State.now; rw [frame]
  have notices : v.notices = s.notices := by rw [hv]; rfl
  have latch : t.spray.latch = true := by rw [settles.tank.2.2.1, spray]
  have off : ∀ b : Bar, (t.spray.bar b).active = false := fun b => (judged.1 b).trans (State.barMayBeActive_of_latch latch)
  have none : t.spray.anyActive = false := by
    rw [Bool.eq_false_iff, ne_eq, Spray.anyActive_iff]
    rintro ⟨b, hb⟩
    rw [off b] at hb
    cases hb
  obtain ⟨duty, dry, setpoint⟩ := settled.2.2.1 (by rw [spray]; exact ha) none
  obtain ⟨raised, told⟩ := raises
  refine ⟨latch, off, duty, dry, setpoint, ?_, ⟨?_, ?_⟩, unit, by rw [frame, rest, hv]; rfl, by rw [frame, rest, hv]; rfl⟩
  · have holds := judged.2.1
    rw [unit, latch] at holds
    rw [Bool.eq_iff_iff, holds]
    simp
  · rw [now, settles.alarms, ← notices]; exact raised
  · exact fun l => (settles.events l .alarmRaised (by simp) (by decide)).1.trans (told l)

/-- Settles O42: the step of the duty is `State.pumpPeriod`, the latch `State.setDryLatch_spec`. -/
theorem sprayTimersAct : Obligations.SprayTimersAct := by
  unfold Obligations.SprayTimersAct
  intro after s
  refine ⟨fun hr => ⟨fun ha => ?_, fun ha => ?_⟩, fun b e he hr => ?_⟩
  · exact (if_pos hr).trans (if_neg (by show ¬s.spray.anyActive = true; rw [ha]; decide))
  · intro r set stepped duty dry
    obtain ⟨v, hv⟩ : ∃ v, v = { s.elapse after with periods := { s.periods with pump := later s.periods.pump 100 } } := ⟨_, rfl⟩
    have run : exec (.sprayPumpPeriodExpiry after) s = .next v.pumpPeriod := by
      rw [hv]; exact (if_pos hr).trans (if_pos ha)
    rw [← hv]
    obtain ⟨y, hy⟩ : ∃ y, y = v.modSpray fun z => { z with duty := duty, dryCount := dry, pressure := some r.value.toNat } :=
      ⟨_, rfl⟩
    obtain ⟨x, hx⟩ : ∃ x, x = y.postSetpoint 14 duty := ⟨_, rfl⟩
    have e : v.pumpPeriod = if 30 ≤ dry then x.setDryLatch else x := by rw [hx, hy, hv]; rfl
    obtain ⟨setpoint, channels, -⟩ := State.postSetpoint_spec 14 duty y
    have rest := State.postSetpoint_rest 14 duty y
    rw [← hx] at setpoint channels rest
    have spray : x.spray = { s.spray with duty := duty, dryCount := dry, pressure := some r.value.toNat } := by
      rw [rest, hy, hv]; rfl
    refine ⟨_, run, fun hd => ?_, fun hd hl => ?_⟩
    · rw [e, if_neg (Nat.not_le.2 hd)]
      refine ⟨by rw [spray], setpoint, fun ch hc => (channels ch hc).trans (by rw [hy, hv]; rfl), ?_⟩
      rw [rest, hy]; rfl
    · rw [e, if_pos hd]
      have set := State.setDryLatch_spec (s := x) (by rw [spray]; exact hl) (by rw [spray]; exact ha)
      have unit : x.unit = s.unit := by rw [rest, hy, hv]; rfl
      have gov : x.gov = s.gov := by rw [rest, hy, hv]; rfl
      have arms : x.arms = s.arms := by rw [rest, hy, hv]; rfl
      have notices : x.notices = s.notices := by rw [rest, hy, hv]; rfl
      unfold State.Raises at set ⊢
      rw [unit, gov, arms, notices] at set
      exact set
  · obtain ⟨x, hx⟩ : ∃ x, x = (s.elapse after).postSetpoint b.valve 0 := ⟨_, rfl⟩
    have run : exec (.pulseEnd after b) s = .next (x.modBar b fun y => { y with pulseEnd := none }) := by
      rw [hx]; exact if_pos (due_some he hr)
    obtain ⟨setpoint, channels, -⟩ := State.postSetpoint_spec b.valve 0 (s.elapse after)
    have rest := State.postSetpoint_rest b.valve 0 (s.elapse after)
    rw [← hx] at setpoint channels rest
    have spray : x.spray = s.spray := by rw [rest]; rfl
    refine ⟨_, run, ?_, fun k hk => ?_, setpoint, channels, ?_⟩
    · rw [← spray]; exact Spray.modBar_same _ _ _
    · rw [← spray]; exact Spray.modBar_other hk _ _
    · have frame := State.modBar_rest b (fun y => { y with pulseEnd := none }) x
      rw [spray] at frame
      exact frame.trans (by rw [rest]; rfl)

end Sys2Proof.Machine
end

section
/-! The entry of a channel into FAULT (R167), with the act of its owner (R83, R98, R120, R134). -/

namespace Sys2Proof.Machine

/-! ### What posts of setpoints keep of a channel's record (R160) -/

/-- A post of a setpoint that `ok` allows to channel `ch` keeps `P` of its record. -/
def ChannelRec.KeptByPosts (ch : Channel) (ok : Nat → Prop) (P : ChannelRec → Prop) : Prop :=
  ∀ (cut : Bool) (r : RangeSettings) (c : ChannelRec) (v : Nat), ok v → P c → P (({ c with setpoint := v } : ChannelRec).reform cut r ch)

section
variable {ch : Channel} {ok : Nat → Prop} {P : ChannelRec → Prop} {s : State}

theorem State.postSetpoint_keeps (kept : ChannelRec.KeptByPosts ch ok P) {k : Channel} {v : Nat} (hv : k = ch → ok v)
    (h : P s.output.channels[ch]) : P (s.postSetpoint k v).output.channels[ch] := by
  by_cases hk : ch = k
  · subst hk
    unfold State.postSetpoint
    rw [(State.changeChannel_spec ch (fun c => { c with setpoint := v }) s).1]
    exact kept _ _ _ _ (hv rfl) h
  · rw [(State.postSetpoint_spec k v s).2.1 ch hk]
    exact h

theorem State.judgeBar_keeps (kept : ChannelRec.KeptByPosts ch ok P) (zero : ok 0) {b : Bar} (h : P s.output.channels[ch]) :
    P (s.judgeBar b).output.channels[ch] := by
  have closes : P (s.deactivateBar b).output.channels[ch] := by
    unfold State.deactivateBar
    dsimp only
    split
    · exact State.postSetpoint_keeps kept (fun _ => zero) h
    · exact h
  unfold State.judgeBar
  dsimp only
  split
  · exact closes
  · split <;> exact h

/-- The judgement of the bars posts 0 to the valves, and other setpoints to the pump alone. -/
theorem State.judgeBars_keeps (kept : ChannelRec.KeptByPosts ch ok P) (zero : ok 0) (pump : ch = 14 → ∀ v, ok v)
    (h : P s.output.channels[ch]) : P s.judgeBars.output.channels[ch] := by
  have bars : P (Bar.all.foldl State.judgeBar s).output.channels[ch] :=
    State.judgeBar_keeps kept zero (State.judgeBar_keeps kept zero (State.judgeBar_keeps kept zero h))
  have pumped : ∀ (c : Bool) (x : State), P x.output.channels[ch] → P (x.judgePump c).output.channels[ch] := by
    intro c x hx
    unfold State.judgePump
    dsimp only
    split
    · exact State.postSetpoint_keeps kept (fun hk => pump hk.symm _) hx
    · split
      · exact State.postSetpoint_keeps kept (fun _ => zero) hx
      · exact hx
  have last : s.judgeBars.output = ((Bar.all.foldl State.judgeBar s).judgePump s.spray.anyActive).output := by
    unfold State.judgeBars State.judgeDrySweep
    simp
  rw [last]
  exact pumped _ _ bars

theorem State.postCoils_keeps (kept : ChannelRec.KeptByPosts ch ok P) (all : ∀ v, ok v) {a : Arm}
    (h : P s.output.channels[ch]) : P (s.postCoils a).output.channels[ch] := by
  have post {k : Channel} {v : Nat} {x : State} (hx : P x.output.channels[ch]) : P (x.postSetpoint k v).output.channels[ch] :=
    State.postSetpoint_keeps kept (fun _ => all v) hx
  have coils : ∀ c : Coils, P (s.postLiftLower a c).output.channels[ch] := by
    intro c
    unfold State.postLiftLower
    split <;> exact post (post h)
  have pressed : ∀ (v : Nat) (x : State), P x.output.channels[ch] → P (x.postForce a v).output.channels[ch] := by
    intro v x hx
    unfold State.postForce
    cases a.force with
    | none => exact hx
    | some k => exact post hx
  exact post (pressed _ _ (coils _))

/-- A move of an arm posts its coils; what follows it moves no channel below the pump's. -/
theorem State.moveArm_channel {a : Arm} {f : ArmRec → ArmRec} (hc : ch.val < 14) :
    (s.moveArm a f).output.channels[ch] = ((s.modArm a f).postCoils a).output.channels[ch] := by
  have e : s.moveArm a f = ((((s.modArm a f).postCoils a).judgeArmEntries.postBoth .armState).leavingCheck).judgeBars := rfl
  rw [e]
  generalize (s.modArm a f).postCoils a = u
  have entries := (State.judgeArmEntries_spec u).2
  have posted := State.postBoth_settlesTo .armState u.judgeArmEntries
  generalize u.judgeArmEntries = v at *
  generalize v.postBoth .armState = w at *
  obtain ⟨-, ⟨_, -, left⟩, -⟩ := State.leavingCheck_spec w
  generalize w.leavingCheck = x at *
  rw [(State.judgeBars_spec x).1.channels ch hc, left.channels ch hc, posted.channels ch hc, entries.channels ch hc]

/-- A new mode, before the bars are judged, moves no channel (R5). -/
theorem State.setMode_channel (m : Mode) (s : State) :
    ∃ x : State, x.output = s.output ∧ s.setMode m = x.judgeBars :=
  ⟨((s.modUnit fun u => { u with mode := m }).writeModeCap).postBoth .modeChanged, by simp [State.writeModeCap], rfl⟩

theorem State.sprayProgramChange_output (s : State) : s.sprayProgramChange.output = s.judgeBars.output := by
  simp [State.sprayProgramChange, Bar.all]

/-- A program change, before the bars are judged, moves no channel (R27). -/
theorem State.programChanged_channel (s : State) :
    ∃ x : State, x.output = s.output ∧ s.programChanged.output = x.judgeBars.output :=
  ⟨s.writeModeCap.updateCap .reverseArms s.writeModeCap.reverseCap, by simp [State.writeModeCap],
    State.sprayProgramChange_output _⟩

/-- What the judgement of the bars keeps, a new mode and an applied swap keep. -/
theorem State.reachTransport_keeps (bars : ∀ {x : State}, P x.output.channels[ch] → P x.judgeBars.output.channels[ch])
    (h : P s.output.channels[ch]) : P s.reachTransport.output.channels[ch] := by
  obtain ⟨x, same, e⟩ := State.setMode_channel .transport
    (s.modUnit fun u => { u with awaited := none, requested := false, reached := false })
  have moved : P x.judgeBars.output.channels[ch] := bars (by rw [same]; exact h)
  rw [← e] at moved
  unfold State.reachTransport
  generalize (s.modUnit fun u => { u with awaited := none, requested := false, reached := false }).setMode .transport = y at *
  unfold State.applySwap
  split
  · exact moved
  · next w _ =>
    obtain ⟨z, same', e'⟩ := State.programChanged_channel ((y.modUnit fun u =>
      { u with slots := u.slots.set w.target (some w.record), active := some w.target, swap := none }).postBoth .programSwapped)
    rw [e']
    exact bars (by rw [same']; exact moved)

/-- Every change of the Output Stage at a move of an arm is a post. -/
theorem State.moveArm_keeps (kept : ChannelRec.KeptByPosts ch (fun _ => True) P) {a : Arm} {f : ArmRec → ArmRec}
    (h : P s.output.channels[ch]) : P (s.moveArm a f).output.channels[ch] := by
  have bars {x : State} (hx : P x.output.channels[ch]) : P x.judgeBars.output.channels[ch] :=
    State.judgeBars_keeps kept trivial (fun _ _ => trivial) hx
  have coils : P ((s.modArm a f).postCoils a).judgeArmEntries.output.channels[ch] := by
    have same : ∀ x : State, x.judgeArmEntries.output = x.output := fun x => by simp
    rw [same]
    exact State.postCoils_keeps kept (fun _ => trivial) h
  have left : ∀ x : State, P x.output.channels[ch] → P x.leavingCheck.output.channels[ch] := by
    intro x hx
    unfold State.leavingCheck
    split
    · split
      · exact State.reachTransport_keeps bars hx
      · split
        · exact hx
        · simpa using hx
    · exact hx
  exact bars (left _ (by simpa using coils))

end

/-! ### A record in FAULT -/

/-- The record stands in FAULT with its output off (R159, R167). -/
structure ChannelRec.Faulted (ch : Channel) (kind : FaultKind) (c : ChannelRec) : Prop where
  fault : c.fault = kind
  holder : c.holder = none
  level : c.level = 0
  openSince : c.openSince = none
  target : c.target = 0
  commanded : c.commandedOn ch = 0

section
variable {ch : Channel} {kind : FaultKind}

theorem ChannelRec.reform_faulted {cut : Bool} {r : RangeSettings} {c : ChannelRec} (hk : kind ≠ .none) (hf : c.fault = kind)
    (hh : c.holder = none) (hl : c.level = 0) : (c.reform cut r ch).Faulted ch kind := by
  have state : c.stateWith cut = .fault := if_pos (by rw [hf]; exact hk)
  have target : targetIn (c.stateWith cut) r ch c = 0 := by rw [state]; rfl
  refine ⟨hf, hh, hl, ?_, target, ChannelRec.reform_commanded_zero target⟩
  unfold ChannelRec.reform
  rw [state]
  rfl

theorem ChannelRec.faulted_kept (hk : kind ≠ .none) :
    ChannelRec.KeptByPosts ch (fun _ => True) (ChannelRec.Faulted ch kind) :=
  fun _ _ _ _ _ h => ChannelRec.reform_faulted hk h.fault h.holder h.level

theorem ChannelRec.measured_kept (m : Half) :
    ChannelRec.KeptByPosts ch (fun _ => True) fun c => c.measured = m := fun _ _ _ _ _ h => h

end

end Sys2Proof.Machine
end

section
/-! The acts of the owners at the entry of a channel into FAULT (R83, R98, R120, R134), and the entry as a whole (R167). -/

namespace Sys2Proof.Machine

/-- What every owner's act at a report of FAULT keeps, from `s` to `t`: no record's fault, holder, level or measured current
moves, a record in FAULT stays as R167 leaves it, and ALARM_RAISED stays posted. -/
structure State.ReportKeeps (s t : State) : Prop where
  owners : ∀ k : Channel, t.output.channels[k].fault = s.output.channels[k].fault ∧
    t.output.channels[k].holder = s.output.channels[k].holder ∧ t.output.channels[k].level = s.output.channels[k].level
  records : ∀ (k : Channel) (P : ChannelRec → Prop), ChannelRec.KeptByPosts k (fun _ => True) P →
    P s.output.channels[k] → P t.output.channels[k]
  told : s.told .alarmRaised → t.told .alarmRaised
  now : t.now = s.now
  periods : t.periods = s.periods

section
variable {a : Arm} {b : Bar} {ch : Channel} {kind : FaultKind} {s t u v : State}

theorem State.reportKeeps_refl (s : State) : State.ReportKeeps s s :=
  ⟨fun _ => ⟨rfl, rfl, rfl⟩, fun _ _ _ => id, id, rfl, rfl⟩

theorem State.ReportKeeps.trans (h : State.ReportKeeps s t) (k : State.ReportKeeps t u) : State.ReportKeeps s u where
  owners ch := by
    obtain ⟨fault, holder, level⟩ := h.owners ch
    obtain ⟨fault', holder', level'⟩ := k.owners ch
    exact ⟨fault'.trans fault, holder'.trans holder, level'.trans level⟩
  records ch P kept hp := k.records ch P kept (h.records ch P kept hp)
  told ht := k.told (h.told ht)
  now := k.now.trans h.now
  periods := k.periods.trans h.periods

/-- What leaves the Output Stage, the clock and the posted ALARM_RAISED keeps all that a report keeps. -/
theorem State.reportKeeps_of_same (output : t.output = s.output) (clock : t.clock = s.clock) (periods : t.periods = s.periods)
    (told : s.told .alarmRaised → t.told .alarmRaised) : State.ReportKeeps s t :=
  ⟨fun _ => by rw [output]; exact ⟨rfl, rfl, rfl⟩, fun _ _ _ hp => by rw [output]; exact hp, told,
    by unfold State.now; rw [clock], periods⟩

theorem State.told_of_sameKind {k : EventKind} (h : ∀ l : Link, (t.notices.events l).sameKind (s.notices.events l) k)
    (told : s.told k) : t.told k := fun l => (h l).1.trans (told l)

theorem State.judgeBars_reportKeeps (s : State) : State.ReportKeeps s s.judgeBars := by
  have settles := (State.judgeBars_spec s).1
  exact ⟨settles.owners, fun k P kept hp => State.judgeBars_keeps kept trivial (fun _ _ => trivial) hp,
    State.told_of_sameKind fun l => settles.events l _ (by simp) (by decide), by unfold State.now; rw [settles.rest],
    by rw [settles.rest]⟩

theorem State.moveArm_reportKeeps (a : Arm) (f : ArmRec → ArmRec) (s : State) : State.ReportKeeps s (s.moveArm a f) := by
  have moves := (State.moveArm_spec a f s).1
  refine ⟨moves.owners, fun k P kept hp => ?_, State.told_of_sameKind fun l => moves.events l _ (by decide) (by decide)
    (.inl (by decide)), by unfold State.now; rw [moves.leaving], by rw [moves.leaving]⟩
  exact State.moveArm_keeps kept hp

/-! ### The drive's channels (R83) -/

/-- A drive channel's FAULT makes DRIVE_FAULT active with cap 0. -/
theorem State.driveChannelFault_spec (s : State) :
    let t := s.driveChannelFault
    State.ReportKeeps s t ∧ (t.ceiling.entry .driveFault).active = true ∧ (t.ceiling.entry .driveFault).cap = 0 ∧
    t.arms = s.arms ∧ t.spray = s.spray ∧ t.notices.alarms = s.notices.alarms := by
  intro t
  obtain ⟨active, cap, -, settles⟩ := State.activate_spec .driveFault 0 s
  exact ⟨State.reportKeeps_of_same (by simp [t, State.driveChannelFault]) (by simp [t, State.driveChannelFault])
    (by simp [t, State.driveChannelFault]) (State.told_of_sameKind fun l => settles.events l _ (by simp) (by decide)), active,
    cap, by simp [t, State.driveChannelFault], by simp [t, State.driveChannelFault], settles.alarms⟩

/-! ### An arm (R98) -/

/-- An arm has taken the report that a channel of its own entered FAULT (R98). -/
structure State.ArmFaults (a : Arm) (s t : State) : Prop where
  keeps : State.ReportKeeps s t
  state : (t.arm a).state = .fault
  record : (s.arm a).state ≠ .fault → (t.arm a).timer = none ∧ (t.arm a).pending = false ∧ (t.arm a).phase = none ∧
    t.armPosted a ∧ t.told .armState
  strikes : (t.arm a).strikes = (s.arm a).strikes
  others : ∀ b, b ≠ a → t.arm b = s.arm b
  flags : t.arms.lock = s.arms.lock ∧ t.arms.cutSeen = s.arms.cutSeen
  alarms : ((s.arm a).state = .fault → t.notices.alarms = s.notices.alarms) ∧
    ((s.arm a).state ≠ .fault → RaisedIn t.now .armFault a.number s.notices.alarms t.notices.alarms)

theorem State.faultArm_spec (a : Arm) (s : State) : State.ArmFaults a s (s.faultArm a) := by
  by_cases hs : (s.arm a).state = .fault
  · rw [show s.faultArm a = s from if_pos hs]
    exact ⟨State.reportKeeps_refl s, hs, fun h => absurd hs h, rfl, fun _ _ => rfl, ⟨rfl, rfl⟩, fun _ => rfl,
      fun h => absurd hs h⟩
  · obtain ⟨x, hx⟩ : ∃ x, x = (if (s.arm a).pending = true then s.postBoth .armState else s).clearHoldDone a := ⟨_, rfl⟩
    obtain ⟨y, hy⟩ : ∃ y, y = x.moveArm a fun r =>
      { r with state := .fault, phase := none, pending := false, timer := none } := ⟨_, rfl⟩
    have e : s.faultArm a = y.raiseAlarm .armFault a.number := by rw [hy, hx]; exact if_neg hs
    have first : State.ReportKeeps s x ∧ (∀ c, x.arm c = s.arm c) ∧ x.arms.lock = s.arms.lock ∧
        x.arms.cutSeen = s.arms.cutSeen ∧ x.notices.alarms = s.notices.alarms := by
      have posted : ∀ c : Bool, State.ReportKeeps s (if c = true then s.postBoth .armState else s) ∧
          (if c = true then s.postBoth .armState else s).arms = s.arms ∧
          (if c = true then s.postBoth .armState else s).notices.alarms = s.notices.alarms := by
        intro c
        cases c
        · exact ⟨State.reportKeeps_refl s, rfl, rfl⟩
        · exact ⟨State.reportKeeps_of_same rfl rfl rfl (State.told_postBoth _), rfl, State.postBoth_alarms _ _⟩
      obtain ⟨keeps, arms, alarms⟩ := posted (s.arm a).pending
      rw [hx]
      generalize (if (s.arm a).pending = true then s.postBoth .armState else s) = z at *
      unfold State.clearHoldDone
      have arm : ∀ c, z.arm c = s.arm c := fun c => by unfold State.arm; rw [arms]
      split
      · exact ⟨keeps.trans (State.reportKeeps_of_same rfl rfl rfl id), fun c => (by cases c <;> rfl : _ = z.arm c).trans (arm c),
          by rw [← arms]; rfl, by rw [← arms]; rfl, alarms⟩
      · exact ⟨keeps, arm, by rw [arms], by rw [arms], alarms⟩
    obtain ⟨keeps, arm, lock, cutSeen, listed⟩ := first
    obtain ⟨moves, record⟩ := State.moveArm_spec a (fun r =>
      { r with state := .fault, phase := none, pending := false, timer := none }) x
    have moved := State.moveArm_reportKeeps a (fun r =>
      { r with state := .fault, phase := none, pending := false, timer := none }) x
    rw [← hy] at moves record moved
    have raises := State.raiseAlarm_raises .armFault a.number y
    have rest := State.raiseAlarm_rest .armFault a.number y
    have told := fun k (h : y.told k) => State.raiseAlarm_told .armFault a.number h
    have clock : (y.raiseAlarm .armFault a.number).clock = y.clock := by simp
    rw [e]
    generalize y.raiseAlarm .armFault a.number = t at *
    have output : t.output = y.output := by rw [rest]
    have arms : t.arms = y.arms := by rw [rest]
    have tArm : ∀ c, t.arm c = y.arm c := fun c => by unfold State.arm; rw [arms]
    have last : State.ReportKeeps y t := State.reportKeeps_of_same output clock (by rw [rest]) (told _)
    refine ⟨(keeps.trans moved).trans last, ?_, fun _ => ⟨?_, ?_, ?_, ?_, ?_⟩, ?_, fun c hc => ?_, ?_, fun h => absurd h hs,
      fun _ => ?_⟩
    · rw [tArm, record]
    · rw [tArm, record]
    · rw [tArm, record]
    · rw [tArm, record]
    · refine State.armPosted_congr moves.posted arms (fun k _ => by rw [output]) fun hn => absurd (.inr ?_) hn
      rw [record]
    · exact told _ fun l => (moves.told l).1
    · rw [tArm, record, arm]
    · rw [tArm, moves.others c hc, arm]
    · rw [arms, moves.flags.2.1, moves.flags.2.2.1, lock, cutSeen]
      exact ⟨rfl, rfl⟩
    · rw [← listed, ← moves.alarms]
      exact raises.1

/-! ### A bar and the pump (R120, R134) -/

theorem State.valveFault_spec (b : Bar) (v : Bool) (s : State) :
    let t := s.valveFault b v
    State.ReportKeeps s t ∧ (t.spray.bar b).valveFault = v ∧ t.barsJudged ∧ t.arms = s.arms ∧
    t.notices.alarms = s.notices.alarms := by
  intro t
  obtain ⟨x, hx⟩ : ∃ x, x = s.modBar b fun y => { y with valveFault := v } := ⟨_, rfl⟩
  have e : t = x.judgeBars := by rw [hx]; rfl
  obtain ⟨settles, judged, -⟩ := State.judgeBars_spec x
  have keeps := State.judgeBars_reportKeeps x
  rw [← e] at settles judged keeps
  have first : State.ReportKeeps s x := State.reportKeeps_of_same (by rw [hx]; rfl) (by rw [hx]; rfl) (by rw [hx]; rfl)
    (by rw [hx]; exact id)
  refine ⟨first.trans keeps, ?_, judged, by rw [settles.rest, hx]; rfl, by rw [settles.alarms, hx]; rfl⟩
  rw [(settles.bars b).2.1, hx]
  exact congrArg BarRec.valveFault (Spray.modBar_same b _ _)

/-- The pump-dry latch stands after the report of channel 14 (R134). -/
theorem State.setDryLatch_reported (s : State) :
    let t := s.setDryLatch
    State.ReportKeeps s t ∧ t.spray.latch = true ∧ t.arms = s.arms ∧
    (s.spray.latch = true → t.notices.alarms = s.notices.alarms) ∧
    (s.spray.latch = false → RaisedIn t.now .pumpDry 0 s.notices.alarms t.notices.alarms) := by
  intro t
  cases hl : s.spray.latch with
  | true =>
    have e : t = s := if_pos hl
    rw [e]
    exact ⟨State.reportKeeps_refl s, hl, rfl, fun _ => rfl, (fun h => nomatch h)⟩
  | false =>
    obtain ⟨x, hx⟩ : ∃ x, x = s.modSpray fun y => { y with latch := true, dryCount := 0 } := ⟨_, rfl⟩
    obtain ⟨y, hy⟩ : ∃ y, y = x.raiseAlarm .pumpDry 0 := ⟨_, rfl⟩
    have e : t = y.judgeBars := by
      rw [hy, hx]; exact if_neg (by rw [hl]; decide)
    have raises := State.raiseAlarm_raises .pumpDry 0 x
    have rest := State.raiseAlarm_rest .pumpDry 0 x
    have clock : y.clock = x.clock := by rw [hy]; simp
    have told := fun k (h : x.told k) => State.raiseAlarm_told .pumpDry 0 h
    rw [← hy] at raises rest told
    have settles := (State.judgeBars_spec y).1
    have keeps := State.judgeBars_reportKeeps y
    rw [← e] at settles keeps
    clear_value t
    have first : State.ReportKeeps s x := State.reportKeeps_of_same (by rw [hx]; rfl) (by rw [hx]; rfl) (by rw [hx]; rfl)
      (by rw [hx]; exact id)
    have second : State.ReportKeeps x y := State.reportKeeps_of_same (by rw [rest]) clock (by rw [rest]) (told _)
    refine ⟨(first.trans second).trans keeps, by rw [settles.tank.2.2.1, rest, hx]; rfl, by rw [settles.rest, rest, hx]; rfl,
      (fun h => nomatch h), fun _ => ?_⟩
    rw [keeps.now, settles.alarms]
    rw [hx] at raises
    exact raises.1

end

end Sys2Proof.Machine
end

section
/-! O43: the entry into FAULT as a whole, and the departure from it (R167, R168). -/

namespace Sys2Proof.Machine

/-- The channels that no arm and no bar own, beyond the drive's, are the pump's (R158). -/
theorem eq_pump {ch : Channel} (hd : ¬ch.val ≤ 2) (ha : armOfChannel ch = none) (hb : barOfChannel ch = none) : ch = 14 := by
  have := ch.isLt
  unfold armOfChannel at ha
  unfold barOfChannel at hb
  apply Fin.ext
  show ch.val = 14
  split at ha
  · cases ha
  · split at ha
    · cases ha
    · split at ha
      · cases ha
      · split at hb
        · cases hb
        · split at hb
          · cases hb
          · split at hb
            · cases hb
            · omega

theorem barOfChannel_eq {ch : Channel} {b : Bar} : barOfChannel ch = some b ↔ ch = b.valve := by
  revert ch
  cases b <;> decide

/-- What an entry into FAULT leaves beside its own channel, from `u` to `t`. -/
structure State.FaultBeside (ch : Channel) (u t : State) : Prop where
  others : ∀ k : Channel, k ≠ ch → t.output.channels[k].fault = u.output.channels[k].fault ∧
    t.output.channels[k].holder = u.output.channels[k].holder
  measured : ∀ k : Channel, t.output.channels[k].measured = u.output.channels[k].measured
  told : t.told .alarmRaised
  periods : t.periods = u.periods

section
variable {ch : Channel} {kind : FaultKind} {u y t : State}

/-- The owner's part of an entry into FAULT, from the channel's own part. -/
structure State.OwnerActs (ch : Channel) (y t : State) : Prop where
  keeps : State.ReportKeeps y t
  drive : ch.val ≤ 2 → (t.ceiling.entry .driveFault).active = true ∧ (t.ceiling.entry .driveFault).cap = 0 ∧
    t.arms = y.arms ∧ t.spray = y.spray
  arm : ∀ a, armOfChannel ch = some a → State.ArmFaults a y t
  pump : ch = 14 → t.spray.latch = true ∧ t.arms = y.arms ∧
    (y.spray.latch = true → t.notices.alarms = y.notices.alarms) ∧
    (y.spray.latch = false → RaisedIn t.now .pumpDry 0 y.notices.alarms t.notices.alarms)
  valve : ∀ b : Bar, ch = b.valve → (t.spray.bar b).valveFault = true ∧ t.barsJudged ∧ t.arms = y.arms
  alarms : ch.val ≤ 2 ∨ 15 ≤ ch.val → t.notices.alarms = y.notices.alarms

theorem State.reportFault_spec (ch : Channel) (y : State) : State.OwnerActs ch y (y.reportFault ch) := by
  unfold State.reportFault
  by_cases hd : ch.val ≤ 2
  · rw [if_pos hd]
    obtain ⟨keeps, active, cap, arms, spray, alarms⟩ := State.driveChannelFault_spec y
    refine ⟨keeps, fun _ => ⟨active, cap, arms, spray⟩, fun a ha => ?_, fun h => ?_, fun b hb => ?_, fun _ => alarms⟩
    · have := armOfChannel_bounds ha; omega
    · rw [h] at hd; exact absurd hd (by decide)
    · have := Bar.valve_ge b; rw [← hb] at this; omega
  · rw [if_neg hd]
    cases ha : armOfChannel ch with
    | some a =>
      have bounds := armOfChannel_bounds ha
      have acts := State.faultArm_spec a y
      refine ⟨acts.keeps, fun h => absurd h hd, fun c hc => ?_, fun h => ?_, fun b hb => ?_, fun h => by omega⟩
      · rw [ha] at hc; cases hc; exact acts
      · rw [h] at bounds; exact absurd bounds.2 (by decide)
      · have := Bar.valve_ge b; rw [← hb] at this; omega
    | none =>
      cases hb : barOfChannel ch with
      | some b =>
        have valve := barOfChannel_eq.1 hb
        obtain ⟨keeps, fault, judged, arms, alarms⟩ := State.valveFault_spec b true y
        refine ⟨keeps, fun h => absurd h hd, (fun c hc => by rw [ha] at hc; cases hc), fun h => ?_, fun c hc => ?_, fun _ => alarms⟩
        · have := Bar.valve_ge b; rw [← valve, h] at this; exact absurd this (by decide)
        · have same : b = c := Bar.valve_injective.1 (valve.symm.trans hc)
          subst same
          exact ⟨fault, judged, arms⟩
      | none =>
        have pump := eq_pump hd ha hb
        obtain ⟨keeps, latch, arms, stands, raised⟩ := State.setDryLatch_reported y
        refine ⟨keeps, fun h => absurd h hd, (fun c hc => by rw [ha] at hc; cases hc), fun _ => ⟨latch, arms, stands, raised⟩, fun b hv => ?_,
          fun h => ?_⟩
        · rw [hv] at hb; cases b <;> cases hb
        · rw [pump] at h; exact absurd h (by decide)

theorem State.enterFault_spec (ch : Channel) (hk : kind ≠ .none) (u : State) :
    State.EntersFault ch kind u (u.enterFault ch kind) ∧ State.FaultBeside ch u (u.enterFault ch kind) := by
  obtain ⟨x, hx⟩ : ∃ x, x = u.changeChannel ch fun c => { c.release with fault := kind, openSince := none } := ⟨_, rfl⟩
  obtain ⟨y, hy⟩ : ∃ y, y = x.raiseAlarm kind.alarm ch.val := ⟨_, rfl⟩
  have e : u.enterFault ch kind = y.reportFault ch := by rw [hy, hx]; rfl
  obtain ⟨own, others, -⟩ := State.changeChannel_spec ch (fun c => { c.release with fault := kind, openSince := none }) u
  have rest : x = { u with output := x.output } := by rw [hx]; rfl
  rw [← hx] at own others
  have raises := State.raiseAlarm_raises kind.alarm ch.val x
  have yRest := State.raiseAlarm_rest kind.alarm ch.val x
  have yClock : (x.raiseAlarm kind.alarm ch.val).clock = x.clock := by simp
  rw [← hy] at raises yRest yClock
  have output : y.output = x.output := by rw [yRest]
  have arms : y.arms = u.arms := by rw [yRest, rest]
  have spray : y.spray = u.spray := by rw [yRest, rest]
  have faulted : y.output.channels[ch].Faulted ch kind := by
    rw [output, own]
    exact ChannelRec.reform_faulted hk rfl rfl rfl
  have acts := State.reportFault_spec ch y
  rw [e]
  generalize y.reportFault ch = t at *
  have now : t.now = x.now := acts.keeps.now.trans (by unfold State.now; rw [yClock])
  have uNow : x.now = u.now := by unfold State.now; rw [rest]
  have record := acts.keeps.records ch _ (ChannelRec.faulted_kept hk) faulted
  have arm : ∀ a, y.arm a = u.arm a := fun a => by unfold State.arm; rw [arms]
  have told : t.told .alarmRaised := acts.keeps.told raises.2
  have beside : State.FaultBeside ch u t := by
    refine ⟨fun k hc => ?_, fun k => ?_, told, by rw [acts.keeps.periods, yRest, rest]⟩
    · obtain ⟨fault, holder, -⟩ := acts.keeps.owners k
      rw [fault, holder, output, others k hc]
      exact ⟨rfl, rfl⟩
    · refine acts.keeps.records k _ (ChannelRec.measured_kept _) ?_
      rw [output]
      by_cases hc : k = ch
      · subst hc; rw [own]; rfl
      · rw [others k hc]
  have listed : RaisedIn t.now (match kind with | .shortLoad => .channelShort | _ => .channelOpen) ch.val
      u.notices.alarms y.notices.alarms := by
    rw [now, ← acts.keeps.now.symm.trans now]
    have before : x.notices = u.notices := by rw [rest]
    have raised := raises.1
    rw [before] at raised
    cases kind <;> exact raised
  refine ⟨⟨record.fault, record.holder, record.level, record.openSince, record.target, record.commanded,
    fun k hc => (beside.others k hc).1, told, ⟨y.notices.alarms, listed, acts.alarms, fun a ha => ?_, fun hp => ?_⟩, fun hd => ?_,
    fun a ha => ?_, fun hp => ?_, fun b hb => ?_⟩, beside⟩
  · rw [← arm]; exact (acts.arm a ha).alarms
  · obtain ⟨-, -, stands, raised⟩ := acts.pump hp
    rw [spray] at stands raised
    exact ⟨stands, raised⟩
  · obtain ⟨active, cap, sameArms, sameSpray⟩ := acts.drive hd
    exact ⟨active, cap, sameArms.trans arms, sameSpray.trans spray⟩
  · have faults := acts.arm a ha
    have record := faults.record
    rw [arm] at record
    exact ⟨faults.state, record, by rw [faults.strikes, arm], fun b hb => by rw [faults.others b hb, arm],
      by rw [faults.flags.1, arms], by rw [faults.flags.2, arms]⟩
  · obtain ⟨latch, sameArms, -⟩ := acts.pump hp
    exact ⟨latch, sameArms.trans arms⟩
  · obtain ⟨fault, judged, sameArms⟩ := acts.valve b hb
    refine ⟨fault, ?_, sameArms.trans arms⟩
    rw [judged.1 b]
    unfold State.barMayBeActive
    rw [fault]
    simp

end

end Sys2Proof.Machine
end

section
/-! O43: the departure of a channel from FAULT (R168). -/

namespace Sys2Proof.Machine

/-- The record rests: no fault, setpoint 0, and, with no holder, output 0. -/
structure ChannelRec.Mended (ch : Channel) (held : Option Link) (c : ChannelRec) : Prop where
  holder : c.holder = held
  fault : c.fault = .none
  setpoint : c.setpoint = 0
  commanded : held = none → c.commandedOn ch = 0

theorem ChannelRec.reform_mended {cut : Bool} {r : RangeSettings} {ch : Channel} {c : ChannelRec} (hf : c.fault = .none)
    (hs : c.setpoint = 0) : (c.reform cut r ch).Mended ch c.holder := by
  refine ⟨rfl, hf, hs, fun hh => ChannelRec.reform_commanded_zero ?_⟩
  unfold ChannelRec.stateWith
  rw [if_neg (by rw [hf]; simp)]
  cases cut <;> simp [hh, hs, targetIn]

theorem ChannelRec.mended_kept (ch : Channel) (held : Option Link) :
    ChannelRec.KeptByPosts ch (fun v => v = 0) (ChannelRec.Mended ch held) := fun cut r c v hv h => by
  rw [← h.holder]
  exact ChannelRec.reform_mended (c := { c with setpoint := v }) h.fault hv

/-- The owner takes the report that a channel left FAULT, from `y` to `t`. -/
structure State.ClearanceActs (ch : Channel) (y t : State) : Prop where
  mended : ∀ held, y.output.channels[ch].Mended ch held → t.output.channels[ch].Mended ch held
  others : ∀ k : Channel, k.val < 14 → t.output.channels[k] = y.output.channels[k]
  alarms : t.notices.alarms = y.notices.alarms
  gone : y.told .alarmGone → t.told .alarmGone
  driveFault : (t.ceiling.entry .driveFault).active = true ↔ (y.ceiling.entry .driveFault).active = true ∧
    (ch.val ≤ 2 → ∃ k : Channel, k.val ≤ 2 ∧ t.output.channels[k].fault ≠ .none)
  valve : ∀ b : Bar, ch = b.valve → (t.spray.bar b).valveFault = false ∧ t.barsJudged
  spray : ch.val < 15 → t.spray = y.spray
  rest : t = { y with
    output := t.output, notices := t.notices, ceiling := t.ceiling, spray := t.spray
    bank := { y.bank with tallies := t.bank.tallies } }

theorem State.clearanceActs_refl {ch : Channel} {y : State} (hd : ch.val ≤ 2 → ∃ k : Channel, k.val ≤ 2 ∧
    y.output.channels[k].fault ≠ .none) (hb : ch.val < 15) : State.ClearanceActs ch y y :=
  ⟨fun _ => id, fun _ _ => rfl, rfl, id, ⟨fun h => ⟨h, hd⟩, fun h => h.1⟩,
    fun b e => by have := Bar.valve_ge b; rw [← e] at this; omega, fun _ => rfl, rfl⟩

theorem State.driveChannelCleared_spec {ch : Channel} (hd : ch.val ≤ 2) (y : State) :
    State.ClearanceActs ch y y.driveChannelCleared := by
  have faulty : (([0, 1, 2] : List Channel).all fun k => y.output.stateOf k != .fault) = true ↔
      ¬∃ k : Channel, k.val ≤ 2 ∧ y.output.channels[k].fault ≠ .none := by
    simp only [List.all_eq_true, bne_iff_ne, ne_eq, Output.stateOf_eq_fault, not_exists, not_and, not_not]
    refine ⟨fun h k hk => h k ?_, fun h k hk => h k ?_⟩
    · revert hk; revert k; decide
    · revert hk; revert k; decide
  unfold State.driveChannelCleared
  by_cases hf : ∃ k : Channel, k.val ≤ 2 ∧ y.output.channels[k].fault ≠ .none
  · rw [if_neg fun h => faulty.1 h hf]
    exact State.clearanceActs_refl (fun _ => hf) (by omega)
  · rw [if_pos (faulty.2 hf)]
    obtain ⟨inactive, -, -, settles⟩ := State.deactivate_spec .driveFault y
    have output : (y.deactivate .driveFault).output = y.output := by simp
    have spray : (y.deactivate .driveFault).spray = y.spray := by simp
    refine ⟨fun _ h => by rw [output]; exact h, fun k _ => by rw [output], settles.alarms,
      State.told_of_sameKind fun l => settles.events l _ (by simp) (by decide), ?_, fun b e => ?_, fun _ => spray, ?_⟩
    · rw [inactive, output]
      exact ⟨fun h => (by cases h), fun h => absurd (h.2 hd) hf⟩
    · have := Bar.valve_ge b; rw [← e] at this; omega
    · exact settles.rest

theorem State.valveMended_spec {ch : Channel} {b : Bar} (hb : ch = b.valve) (y : State) :
    State.ClearanceActs ch y (y.valveFault b false) := by
  have bounds := Bar.valve_ge b
  rw [← hb] at bounds
  obtain ⟨x, hx⟩ : ∃ x, x = y.modBar b fun z => { z with valveFault := false } := ⟨_, rfl⟩
  have e : y.valveFault b false = x.judgeBars := by rw [hx]; rfl
  obtain ⟨settles, judged, -⟩ := State.judgeBars_spec x
  obtain ⟨-, fault, -⟩ := State.valveFault_spec b false y
  have mended : ∀ held, x.output.channels[ch].Mended ch held → x.judgeBars.output.channels[ch].Mended ch held :=
    fun held => State.judgeBars_keeps (ChannelRec.mended_kept ch held) rfl fun h => by rw [h] at bounds; exact absurd bounds (by decide)
  rw [e] at fault ⊢
  generalize x.judgeBars = t at *
  have output : x.output = y.output := by rw [hx]; rfl
  have notices : x.notices = y.notices := by rw [hx]; rfl
  have entry := settles.entries .driveFault (by simp) (by decide) (by decide)
  have ceiling : x.ceiling = y.ceiling := by rw [hx]; rfl
  rw [output] at mended
  refine ⟨mended, fun k hk => by rw [settles.channels k hk, output], by rw [settles.alarms, notices],
    fun h => State.told_of_sameKind (fun l => settles.events l .alarmGone (by simp) (by decide))
      fun l => by rw [notices]; exact h l, ?_, fun c hc => ?_, fun h => by omega, ?_⟩
  · rw [entry.1, ceiling]
    exact ⟨fun h => ⟨h, fun h => by omega⟩, fun h => h.1⟩
  · have same : b = c := Bar.valve_injective.1 (hb.symm.trans hc)
    subst same
    exact ⟨fault, judged⟩
  · have frame := settles.rest
    rw [hx] at frame
    exact frame

theorem State.reportCleared_spec (ch : Channel) (y : State) : State.ClearanceActs ch y (y.reportCleared ch) := by
  unfold State.reportCleared
  by_cases hd : ch.val ≤ 2
  · rw [if_pos hd]
    exact State.driveChannelCleared_spec hd y
  · rw [if_neg hd]
    cases hb : barOfChannel ch with
    | some b => exact State.valveMended_spec (barOfChannel_eq.1 hb) y
    | none =>
      refine State.clearanceActs_refl (fun h => absurd h hd) (Nat.lt_of_not_le fun h => ?_)
      cases ha : armOfChannel ch with
      | none => have pump := eq_pump hd ha hb; rw [pump] at h; exact absurd h (by decide)
      | some a => have := armOfChannel_bounds ha; omega

/-- A channel leaves FAULT, from `u` to `t`. -/
theorem State.leaveFault_spec (ch : Channel) (u : State) (hs : u.output.channels[ch].setpoint = 0) :
    let t := u.leaveFault ch
    let code := u.output.channels[ch].fault.alarm
    t.output.channels[ch].Mended ch u.output.channels[ch].holder ∧ State.GoesAbsent code ch.val u t ∧
    (∀ k : Channel, k ≠ ch → k.val < 14 → t.output.channels[k] = u.output.channels[k]) ∧
    ((t.ceiling.entry .driveFault).active = true ↔ (u.ceiling.entry .driveFault).active = true ∧
      (ch.val ≤ 2 → ∃ k : Channel, k.val ≤ 2 ∧ t.output.channels[k].fault ≠ .none)) ∧
    (∀ b : Bar, ch = b.valve → (t.spray.bar b).valveFault = false ∧ t.barsJudged) ∧
    (ch.val < 15 → t.spray = u.spray) ∧
    t = { u with
      output := t.output, notices := t.notices, ceiling := t.ceiling, spray := t.spray
      bank := { u.bank with tallies := t.bank.tallies } } := by
  intro t code
  obtain ⟨x, hx⟩ : ∃ x, x = u.changeChannel ch fun c => { c with fault := .none } := ⟨_, rfl⟩
  obtain ⟨y, hy⟩ : ∃ y, y = x.alarmGone code ch.val := ⟨_, rfl⟩
  have e : t = y.reportCleared ch := by rw [hy, hx]; rfl
  obtain ⟨own, others, -⟩ := State.changeChannel_spec ch (fun c => { c with fault := .none }) u
  have xRest : x = { u with output := x.output } := by rw [hx]; rfl
  rw [← hx] at own others
  obtain ⟨listed, gone⟩ := State.alarmGone_goes code ch.val x
  have yRest := State.alarmGone_rest code ch.val x
  rw [← hy] at listed gone yRest
  have acts := State.reportCleared_spec ch y
  rw [← e] at acts
  clear_value t code
  have output : y.output = x.output := by rw [yRest]
  have ceiling : y.ceiling = u.ceiling := by rw [yRest, xRest]
  have notices : x.notices = u.notices := by rw [xRest]
  rw [notices] at listed gone
  have driveFault := acts.driveFault
  rw [ceiling] at driveFault
  refine ⟨acts.mended _ ?_, ⟨by rw [acts.alarms]; exact listed, fun h => acts.gone (gone h)⟩, fun k hk h14 => ?_, driveFault,
    acts.valve, fun h => by rw [acts.spray h, yRest, xRest], ?_⟩
  · rw [output, own]
    exact ChannelRec.reform_mended (c := { u.output.channels[ch] with fault := .none }) rfl hs
  · rw [acts.others k h14, output, others k hk]
  · have rest := acts.rest
    rw [yRest, xRest] at rest
    exact rest

/-- CLEAR_CHANNEL_FAULT, by the order of its checks (R168). -/
theorem State.clearChannelFault_eq {l : Link} {n : Byte} {ch : Channel} (s : State) (h : n.toNat = ch.val) :
    s.clearChannelFault l n =
      if channelOwner ch ≠ l then answer .denied s
      else if s.output.stateOf ch ≠ .fault then answer .notActive s
      else if 0 < s.output.channels[ch].setpoint then answer .state s
      else answer .done (s.leaveFault ch) := by
  unfold State.clearChannelFault
  rw [h, channelOf_val]

/-- Settles O43: an entry into FAULT is `State.enterFault_spec`, a departure `State.leaveFault_spec`. -/
theorem channelFaultsComeAndGo : Obligations.ChannelFaultsComeAndGo := by
  unfold Obligations.ChannelFaultsComeAndGo
  refine ⟨fun h n s hp => ?_, fun after ch s e he hd => ?_⟩
  · have entry := (State.taken_entry h s (src := .driveFault) (by cases h.link <;> decide)).1
    rw [← State.taken_output h s, ← State.taken_spray h s, ← State.taken_arms h s, ← entry]
    have run {c : Code} {t : State} (ha : (s.taken h).clearChannelFault h.link n = answer c t) :
        exec (.clearChannelFault h n) s = .next (t.answered h 25 c []) :=
      congrArg Host.Outcome.next (State.serve_eq_answered hp ha)
    clear entry
    generalize s.taken h = u at *
    refine ⟨fun hn => run ?_, fun ch hn => ?_⟩
    · unfold State.clearChannelFault
      rw [channelOf_eq_none hn]
    · have checks := u.clearChannelFault_eq (l := h.link) hn
      have owner : h.link = (if ch.val ≤ 2 then .drive else .body) ↔ ¬channelOwner ch ≠ h.link := by
        unfold channelOwner; rw [ne_eq, not_not]; exact eq_comm
      have faulty := Output.stateOf_eq_fault u.output ch
      refine ⟨fun hm => run ?_, fun hm hf => run ?_, fun hm hf hs => run ?_, fun hm hf hs => ?_⟩
      · rw [checks, if_pos (not_not.1 fun hk => hm (owner.2 hk))]
      · rw [checks, if_neg (owner.1 hm), if_pos fun hk => faulty.1 hk hf]
      · rw [checks, if_neg (owner.1 hm), if_neg (not_not.2 (faulty.2 hf)), if_pos hs]
      · have taken := checks
        rw [if_neg (owner.1 hm), if_neg (not_not.2 (faulty.2 hf)), if_neg (by rw [hs]; decide)] at taken
        obtain ⟨mended, gone, others, driveFault, valve, spray, rest⟩ := State.leaveFault_spec ch u hs
        refine ⟨_, run taken, mended.fault, mended.setpoint, fun hh => ?_, ?_, others, driveFault, valve, spray,
          by rw [rest], rest⟩
        · refine ⟨?_, mended.commanded hh⟩
          unfold Output.stateOf ChannelRec.stateWith
          rw [mended.fault, mended.holder, mended.setpoint, hh]
          simp
        · revert gone
          cases u.output.channels[ch].fault <;> exact id
  · have run : exec (.openTimerExpiry after ch) s = .next ((s.elapse after).enterFault ch .openLoad) := by
      refine if_pos ?_
      unfold openDue openLimit isPulseChannel
      have same : (s.elapse after).output = s.output := (State.elapse_frame after s).2.2.2.2.2.2.2.2.1
      rw [same, he]
      simpa using hd
    exact ⟨_, run, (State.enterFault_spec ch (by decide) _).1⟩

end Sys2Proof.Machine
end

section
/-! O44: DIRECT_DRIVE and DIRECT_RELEASE (R171, R172). -/

namespace Sys2Proof.Machine

/-- Time and the request's frame leave the settings' ranges and the stage. -/
theorem Carrier.follow_follows (target : Nat) (k : Carrier) : Carrier.Follows target k (k.follow target) := by
  unfold Carrier.Follows Carrier.follow
  refine ⟨fun h => by rw [if_pos h]; rfl, fun h hr => by rw [if_neg (by omega), if_pos hr], fun h hr => by
    rw [if_neg (by omega), if_neg hr]⟩

section
variable {ch : Channel} {l : Link} {v : Nat} {n : Byte} {level : Half} {s : State}

/-- A change of one channel alone, as the whole state has it. -/
theorem State.changeChannel_rest (ch : Channel) (f : ChannelRec → ChannelRec) (s : State) :
    s.changeChannel ch f = { s with output := { s.output with channels := (s.changeChannel ch f).output.channels } } := rfl

/-- The levels of a direct drive, by the kinds of the channels (R171). -/
theorem clampLevel_eq (ch : Channel) (level : Nat) (h : 2 ≤ ch.val) : clampLevel ch level =
    if ch.val = 14 then min 1000 level else if ch ∈ ([5, 6, 9, 10, 13] : List Channel) then min 2000 level else min 1 level := by
  have kinds : ∀ k : Channel, 2 ≤ k.val → (k.val = 14 → channelKind k = .duty) ∧
      (k.val ≠ 14 → k ∈ ([5, 6, 9, 10, 13] : List Channel) → channelKind k = .prop) ∧
      (k.val ≠ 14 → k ∉ ([5, 6, 9, 10, 13] : List Channel) → channelKind k = .pulse ∨ channelKind k = .switch) := by decide
  obtain ⟨duty, prop, rest⟩ := kinds ch h
  unfold clampLevel
  by_cases h14 : ch.val = 14
  · rw [duty h14, if_pos h14]
  · rw [if_neg h14]
    by_cases hp : ch ∈ ([5, 6, 9, 10, 13] : List Channel)
    · rw [prop h14 hp, if_pos hp]
    · rw [if_neg hp]
      rcases rest h14 hp with hk | hk <;> rw [hk]

/-- The interlock of a lift and a lower coil (R171). -/
theorem State.interlocked_iff : s.interlocked ch v = true ↔ 0 < v ∧
    ∃ k : Channel, (ch, k) ∈ ([(3, 4), (4, 3), (7, 8), (8, 7), (11, 12), (12, 11)] : List (Channel × Channel)) ∧
      0 < s.output.commanded k := by
  have pairs : ∀ c k : Channel, partner c = some k ↔
      (c, k) ∈ ([(3, 4), (4, 3), (7, 8), (8, 7), (11, 12), (12, 11)] : List (Channel × Channel)) := by decide
  simp only [← pairs]
  unfold State.interlocked
  rw [Bool.and_eq_true, decide_eq_true_iff]
  cases partner ch with
  | none => simp
  | some p => simp

/-- DIRECT_DRIVE, by the order of its checks (R171). -/
theorem State.directDrive_eq (s : State) (h : n.toNat = ch.val) : s.directDrive l n level =
    if ch.val < 2 then answer .denied s
    else if s.unit.mode ≠ .service then answer .state s
    else if s.output.channels[ch].holder = some l.other then answer .held s
    else if s.output.stateOf ch = .fault ∨ s.output.stateOf ch = .cut then answer .state s
    else if s.interlocked ch (clampLevel ch level.toNat) then answer .state s
    else answer .done (s.takeDirect ch l (clampLevel ch level.toNat)) := by
  unfold State.directDrive
  rw [h, channelOf_val]

/-- DIRECT_RELEASE, by the order of its checks (R172). -/
theorem State.directRelease_drive (h : n.toNat = ch.val) (hc : ch.val < 2) : s.directRelease l n = answer .denied s := by
  unfold State.directRelease
  rw [h, channelOf_val]
  exact if_pos hc

theorem State.directRelease_free (h : n.toNat = ch.val) (hc : 2 ≤ ch.val) (hh : s.output.channels[ch].holder = none) :
    s.directRelease l n = answer .notActive s := by
  unfold State.directRelease
  rw [h, channelOf_val]
  refine (if_neg (by omega)).trans ?_
  simp only [hh]

theorem State.directRelease_held {k : Link} (h : n.toNat = ch.val) (hc : 2 ≤ ch.val)
    (hh : s.output.channels[ch].holder = some k) :
    s.directRelease l n = if k = l then answer .done (s.endDirect ch) else answer .held s := by
  unfold State.directRelease
  rw [h, channelOf_val]
  refine (if_neg (by omega)).trans ?_
  simp only [hh]

theorem ChannelRec.stateWith_blocked (cut : Bool) (c : ChannelRec) :
    (c.stateWith cut = .fault ∨ c.stateWith cut = .cut) ↔ (c.fault ≠ .none ∨ cut = true) := by
  unfold ChannelRec.stateWith
  by_cases hf : c.fault = .none
  · cases cut
    · cases c.holder <;> by_cases hs : 0 < c.setpoint <;> simp [hf, hs]
    · simp [hf]
  · simp [hf]

/-- A record whose target is formed anew, by its state (R159, R163, R165). -/
theorem ChannelRec.reform_record {cut : Bool} {r : RangeSettings} {c : ChannelRec} {st : ChannelState} {v : Nat}
    (hs : c.stateWith cut = st) (hv : targetIn st r ch c = v) :
    let d := c.reform cut r ch
    d = { c with
      target := v, carrier := d.carrier
      openSince := if st.judged = true ∧ ¬(15 ≤ ch.val ∧ v = 0) then c.openSince else none } ∧
    (isPropChannel ch = true → Carrier.Follows v c.carrier d.carrier) ∧
    (isPropChannel ch = false → d.carrier = c.carrier) := by
  intro d
  subst hs hv
  have carrier : d.carrier = if isPropChannel ch then c.carrier.follow (targetIn (c.stateWith cut) r ch c) else c.carrier := rfl
  have openSince : d.openSince = if (c.stateWith cut).judged = true ∧ ¬(15 ≤ ch.val ∧ targetIn (c.stateWith cut) r ch c = 0)
      then c.openSince else none := by
    refine if_congr ?_ rfl rfl
    unfold isPulseChannel
    simp only [Bool.and_eq_true, Bool.not_eq_true', Bool.and_eq_false_iff, decide_eq_false_iff_not, beq_eq_false_iff_ne]
    tauto
  refine ⟨?_, fun hp => ?_, fun hp => ?_⟩
  · rw [← openSince]
    rfl
  · rw [carrier, if_pos hp]
    exact Carrier.follow_follows _ _
  · rw [carrier, if_neg (by rw [hp]; decide)]

/-- A taken direct drive (R171). -/
theorem State.takeDirect_channel (hf : s.output.channels[ch].fault = .none) (hc : s.output.cutFlag ch = false) :
    let t := s.takeDirect ch l v
    let c := s.output.channels[ch]
    let d := t.output.channels[ch]
    (d = { c with
      holder := some l, level := v, target := v, carrier := d.carrier
      openSince := if 15 ≤ ch.val ∧ v = 0 then none else c.openSince } ∧
    (isPropChannel ch = true → Carrier.Follows v c.carrier d.carrier) ∧ (isPropChannel ch = false → d.carrier = c.carrier)) ∧
    t.output.stateOf ch = .direct ∧ (v = 0 → t.output.commanded ch = 0) ∧ (¬isPropChannel ch → t.output.commanded ch = v) ∧
    ∀ k : Channel, k ≠ ch → t.output.channels[k] = s.output.channels[k] := by
  intro t c d
  obtain ⟨own, others, drive, broom⟩ := State.changeChannel_spec ch (fun c => { c with holder := some l, level := v }) s
  have own : d = ({ c with holder := some l, level := v } : ChannelRec).reform (s.output.cutFlag ch) s.settings.ranges[ch] ch :=
    own
  have cut : t.output.cutFlag ch = false := hc
  have stateOf : t.output.stateOf ch = d.stateWith (t.output.cutFlag ch) := rfl
  have commanded : t.output.commanded ch = d.commandedOn ch := rfl
  rw [stateOf, commanded, cut]
  rw [hc] at own
  refine ⟨?_, ?_, ?_, ?_, others⟩
  all_goals
    generalize s.settings.ranges[ch] = r at own
    have state : ({ c with holder := some l, level := v } : ChannelRec).stateWith false = .direct := by
      unfold ChannelRec.stateWith
      rw [if_neg (not_not.2 hf)]
      rfl
    obtain ⟨record, follows, stands⟩ := ChannelRec.reform_record (r := r) (ch := ch) state (v := v) rfl
    rw [← own] at record follows stands
    clear_value d c
  · refine ⟨record.trans ?_, follows, stands⟩
    by_cases hz : 15 ≤ ch.val ∧ v = 0 <;> simp [hz, ChannelState.judged]
  · rw [own]; exact state
  · intro hv
    rw [own]
    exact ChannelRec.reform_commanded_zero (by rw [state]; exact hv)
  · intro hp
    unfold ChannelRec.commandedOn
    rw [if_neg hp, record]

theorem ChannelRec.release_driven {cut : Bool} {c : ChannelRec} (hf : c.fault = .none) (hc : cut = false)
    (hs : 0 < c.setpoint) : c.release.stateWith cut = .driven := by
  subst hc
  exact (if_neg (not_not.2 hf)).trans (if_pos hs)

theorem ChannelRec.release_off {cut : Bool} {c : ChannelRec} (hf : c.fault = .none) (hc : cut = false)
    (hs : ¬0 < c.setpoint) : c.release.stateWith cut = .off := by
  subst hc
  exact (if_neg (not_not.2 hf)).trans (if_neg hs)

theorem ChannelRec.release_rests (cut : Bool) (c : ChannelRec) (h : ¬(c.fault = .none ∧ cut = false ∧ 0 < c.setpoint)) :
    c.release.stateWith cut = .fault ∨ c.release.stateWith cut = .cut ∨ c.release.stateWith cut = .off := by
  by_cases hf : c.fault = .none
  · cases cut with
    | true => exact .inr (.inl ((if_neg (not_not.2 hf)).trans rfl))
    | false => exact .inr (.inr (ChannelRec.release_off hf rfl fun hs => h ⟨hf, rfl, hs⟩))
  · exact .inl (if_pos hf)

/-- A taken release (R172). -/
theorem State.endDirect_channel (s : State) (hc : 2 ≤ ch.val) :
    let t := s.endDirect ch
    let c := s.output.channels[ch]
    let d := t.output.channels[ch]
    let runs := c.fault = .none ∧ s.output.cutFlag ch = false ∧ 0 < c.setpoint
    let range := s.settings.ranges[ch]
    let v := if ¬runs then 0
      else if isPropChannel ch = true ∧ 2 ≤ ch.val then range.low + c.setpoint * (range.high - range.low) / 1000
      else c.setpoint
    (d = { c with
      holder := none, level := 0, target := v, carrier := d.carrier, openSince := if runs then c.openSince else none } ∧
    (isPropChannel ch = true → Carrier.Follows v c.carrier d.carrier) ∧ (isPropChannel ch = false → d.carrier = c.carrier)) ∧
    (c.fault = .none → s.output.cutFlag ch = false → t.output.stateOf ch = (if 0 < c.setpoint then .driven else .off)) ∧
    ∀ k : Channel, k ≠ ch → t.output.channels[k] = s.output.channels[k] := by
  intro t c d runs range v
  obtain ⟨own, others, -⟩ := State.changeChannel_spec ch ChannelRec.release s
  have own : d = c.release.reform (s.output.cutFlag ch) range ch := own
  have cut : t.output.cutFlag ch = s.output.cutFlag ch := rfl
  have stateOf : t.output.stateOf ch = d.stateWith (t.output.cutFlag ch) := rfl
  rw [stateOf, cut]
  have driven : runs → c.release.stateWith (s.output.cutFlag ch) = .driven := fun ⟨hf, hk, hs⟩ => ChannelRec.release_driven hf hk hs
  have rests : ¬runs → c.release.stateWith (s.output.cutFlag ch) = .fault ∨ c.release.stateWith (s.output.cutFlag ch) = .cut ∨
    c.release.stateWith (s.output.cutFlag ch) = .off := ChannelRec.release_rests _ _
  have target : targetIn (c.release.stateWith (s.output.cutFlag ch)) range ch c.release = v := by
    by_cases hr : runs
    · rw [driven hr, show v = _ from if_neg (not_not.2 hr)]
      show setpointTarget range ch c.setpoint = _
      unfold setpointTarget isRanged
      exact if_congr (by rw [Bool.and_eq_true, decide_eq_true_iff]) (if_neg (Nat.pos_iff_ne_zero.1 hr.2.2)) rfl
    · rw [show v = 0 from if_pos hr]
      rcases rests hr with hs | hs | hs <;> rw [hs] <;> rfl
  have timer : ((c.release.stateWith (s.output.cutFlag ch)).judged = true ∧ ¬(15 ≤ ch.val ∧ v = 0)) ↔ runs := by
    by_cases hr : runs
    · refine iff_of_true ⟨by rw [driven hr]; rfl, fun hz => ?_⟩ hr
      have valve : ¬(isPropChannel ch = true ∧ 2 ≤ ch.val) := fun hp => by
        have apart : ∀ k : Channel, isPropChannel k = true → k.val < 15 := by decide
        have := apart ch hp.1
        omega
      have set : v = c.setpoint := (if_neg (not_not.2 hr)).trans (if_neg valve)
      have := hr.2.2
      omega
    · refine iff_of_false (fun h => ?_) hr
      rcases rests hr with hs | hs | hs <;> rw [hs] at h <;> cases h.1
  obtain ⟨record, follows, stands⟩ := ChannelRec.reform_record (r := range) (ch := ch) rfl target
  rw [← own] at record follows stands
  refine ⟨⟨record.trans ?_, follows, stands⟩, fun hf hk => ?_, others⟩
  · rw [if_congr timer rfl rfl]
    rfl
  · rw [own]
    refine Eq.trans (b := c.release.stateWith (s.output.cutFlag ch)) rfl ?_
    by_cases hs : 0 < c.setpoint
    · rw [if_pos hs]; exact driven ⟨hf, hk, hs⟩
    · rw [if_neg hs]
      exact ChannelRec.release_off hf hk hs

end

/-- Settles O44: the taken requests are `State.takeDirect_channel` and `State.endDirect_channel`. -/
theorem channelsAreHeld : Obligations.ChannelsAreHeld := by
  unfold Obligations.ChannelsAreHeld
  intro h n level s
  rw [← State.taken_output h s, ← State.taken_unit h s, ← State.taken_settings h s]
  refine ⟨fun hp => ?_, fun hp => ?_⟩
  · have run {c : Code} {t : State} (ha : (s.taken h).directDrive h.link n level = answer c t) :
        exec (.directDrive h n level) s = .next (t.answered h 26 c []) :=
      congrArg Host.Outcome.next (State.serve_eq_answered hp ha)
    generalize s.taken h = u at *
    refine ⟨fun hn => run ?_, fun ch hn => ?_⟩
    · unfold State.directDrive
      rw [channelOf_eq_none hn]
    · have checks := u.directDrive_eq (l := h.link) (level := level) hn
      refine ⟨fun hd => run (checks.trans (if_pos hd)), fun hd hm => ?_, fun hd hm => ?_⟩
      · exact run (checks.trans ((if_neg (by omega)).trans (if_pos hm)))
      · rw [if_neg (by omega : ¬ch.val < 2), if_neg (not_not.2 hm), clampLevel_eq ch _ hd] at checks
        refine ⟨fun hh => run (checks.trans (if_pos hh)), fun hh => ?_⟩
        rw [if_neg hh] at checks
        have blocked := ChannelRec.stateWith_blocked (u.output.cutFlag ch) u.output.channels[ch]
        refine ⟨fun hb => run (checks.trans (if_pos (blocked.2 hb))), fun hf hk hi => ?_, fun hf hk hi => ?_⟩
        · have free : ¬(u.output.stateOf ch = .fault ∨ u.output.stateOf ch = .cut) := fun hb =>
            (blocked.1 hb).elim (fun h => h hf) fun h => by rw [hk] at h; cases h
          exact run (checks.trans ((if_neg free).trans (if_pos (State.interlocked_iff.2 hi))))
        · have free : ¬(u.output.stateOf ch = .fault ∨ u.output.stateOf ch = .cut) := fun hb =>
            (blocked.1 hb).elim (fun h => h hf) fun h => by rw [hk] at h; cases h
          have taken := checks.trans ((if_neg free).trans (if_neg fun h => hi (State.interlocked_iff.1 h)))
          obtain ⟨record, state, zero, plain, others⟩ := State.takeDirect_channel (l := h.link) hf hk
          exact ⟨_, run taken, record, state, zero, plain, others, State.changeChannel_rest _ _ _⟩
  · have run {c : Code} {t : State} (ha : (s.taken h).directRelease h.link n = answer c t) :
        exec (.directRelease h n) s = .next (t.answered h 27 c []) :=
      congrArg Host.Outcome.next (State.serve_eq_answered hp ha)
    generalize s.taken h = u at *
    refine ⟨fun hn => run ?_, fun ch hn => ?_⟩
    · unfold State.directRelease
      rw [channelOf_eq_none hn]
    · refine ⟨fun hd => run (State.directRelease_drive hn hd), fun hd hh => run (State.directRelease_free hn hd hh),
        fun hd hh => run ((State.directRelease_held hn hd hh).trans (if_neg (by cases h.link <;> decide))),
        fun hd hh => ?_⟩
      obtain ⟨record, state, others⟩ := State.endDirect_channel u hd
      exact ⟨_, run ((State.directRelease_held hn hd hh).trans (if_pos rfl)), record, state, others,
        State.changeChannel_rest _ _ _⟩

end Sys2Proof.Machine
end

section
/-! O45: the 0.5 ms sample of every channel, and the end of a dither part (R162 to R166). -/

namespace Sys2Proof.Machine

/-! ### One channel (R162, R165, R166) -/

/-- The channel is judged short by the sample `x`, in the state that the sample finds (R166). -/
def State.shortAt (x : Samples) (ch : Channel) (u : State) : Prop :=
  (u.output.stateOf ch = .driven ∨ u.output.stateOf ch = .direct) ∧
  if isPropChannel ch then 2500 < x.current[ch].toNat else ch.val < 15 ∧ x.report.getLsbD ch.val = true

/-- The channel is judged open by the sample `x`, in the state that the sample finds (R165). -/
def State.openAt (x : Samples) (ch : Channel) (u : State) : Prop :=
  (isPropChannel ch = true ∧ 200 ≤ u.output.channels[ch].target ∧
    x.current[ch].toNat < u.output.channels[ch].target / 2) ∨
  (15 ≤ ch.val ∧ 0 < u.output.channels[ch].target ∧ x.report.getLsbD ch.val = true)

/-- The record with its current recorded and its carrier moved (R162). -/
def ChannelRec.recorded (x : Samples) (ch : Channel) (c : ChannelRec) : ChannelRec :=
  if isPropChannel ch then { c with measured := x.current[ch], carrier := c.carrier.move } else c

/-- The record of a channel that a sample finds without a short. -/
def State.sampledRec (x : Samples) (ch : Channel) (u : State) : ChannelRec :=
  let d := u.output.channels[ch].recorded x ch
  if (u.output.stateOf ch).judged then
    { d with openSince := if openCondition ch (x.report.getLsbD ch.val) d then some (d.openSince.getD u.nowUs) else none }
  else d

section
variable {x : Samples} {ch k : Channel} {s t u : State}

/-- The state in which the load is judged, after the current of its channel is recorded. -/
def State.recordedAt (x : Samples) (ch : Channel) (s : State) : State :=
  s.modOutput fun o => o.modChannel ch (ChannelRec.recorded x ch)

theorem State.recordedAt_channel (x : Samples) (ch : Channel) (s : State) :
    (s.recordedAt x ch).output.channels[ch] = s.output.channels[ch].recorded x ch ∧
    (∀ k, k ≠ ch → (s.recordedAt x ch).output.channels[k] = s.output.channels[k]) ∧
    (s.recordedAt x ch).output.stateOf ch = s.output.stateOf ch := by
  have own := Output.modChannel_same ch (ChannelRec.recorded x ch) s.output
  refine ⟨own, fun k hk => Output.modChannel_other hk _ _, ?_⟩
  have e : (s.recordedAt x ch).output.stateOf ch = (s.output.channels[ch].recorded x ch).stateWith (s.output.cutFlag ch) := by
    rw [← own]; rfl
  rw [e]
  unfold ChannelRec.recorded
  split <;> rfl

theorem ChannelState.judged_iff (c : ChannelState) : c.judged = true ↔ c = .driven ∨ c = .direct := by
  cases c <;> simp [ChannelState.judged]

theorem shortCondition_iff (c : ChannelRec) : shortCondition ch (x.report.getLsbD ch.val) (c.recorded x ch) = true ↔
    if isPropChannel ch then 2500 < x.current[ch].toNat else ch.val < 15 ∧ x.report.getLsbD ch.val = true := by
  unfold shortCondition channelKind ChannelRec.recorded isPulseChannel
  cases hp : isPropChannel ch with
  | true => simp
  | false =>
    by_cases hv : 15 ≤ ch.val
    · simp [hv]
    · have below : ch.val < 15 := by omega
      by_cases h14 : ch.val = 14 <;> simp [hv, h14, below]

theorem openCondition_iff (c : ChannelRec) : openCondition ch (x.report.getLsbD ch.val) (c.recorded x ch) = true ↔
    (isPropChannel ch = true ∧ 200 ≤ c.target ∧ x.current[ch].toNat < c.target / 2) ∨
    (15 ≤ ch.val ∧ 0 < c.target ∧ x.report.getLsbD ch.val = true) := by
  have apart : ∀ k : Channel, isPropChannel k = true → k.val < 15 := by decide
  unfold openCondition channelKind ChannelRec.recorded isPulseChannel
  cases hp : isPropChannel ch with
  | true =>
    have := apart ch hp
    have high : ¬15 ≤ ch.val := by omega
    simp [high]
  | false =>
    by_cases hv : 15 ≤ ch.val
    · simp [hv, ChannelRec.commandedOn, hp]
    · by_cases h14 : ch.val = 14 <;> simp [hv, h14]

/-- The open timer of a judged channel starts, goes on or stops (R165). -/
def State.timedAt (x : Samples) (ch : Channel) (s : State) : State :=
  s.modOutput fun o => o.modChannel ch fun c =>
    { c with
      openSince := if openCondition ch (x.report.getLsbD ch.val) c then some (c.openSince.getD s.nowUs) else none }

theorem State.sampleChannel_eq (x : Samples) (ch : Channel) (s : State) :
    s.sampleChannel x ch =
      let r := s.recordedAt x ch
      if (r.output.stateOf ch).judged then
        if shortCondition ch (x.report.getLsbD ch.val) r.output.channels[ch] then r.enterFault ch .shortLoad
        else r.timedAt x ch
      else r := rfl

/-- A channel without a short (R162, R165): its record alone moves. -/
theorem State.sampleChannel_clear (hs : ¬s.shortAt x ch) :
    let t := s.sampleChannel x ch
    t.output.channels[ch] = s.sampledRec x ch ∧ (∀ k, k ≠ ch → t.output.channels[k] = s.output.channels[k]) ∧
    t = { s with output := { s.output with channels := t.output.channels } } := by
  intro t
  obtain ⟨own, others, state⟩ := State.recordedAt_channel x ch s
  have e : t = _ := State.sampleChannel_eq x ch s
  clear_value t
  dsimp only at e
  rw [state, own] at e
  unfold State.sampledRec
  dsimp only
  by_cases hj : (s.output.stateOf ch).judged = true
  · have clear : ¬shortCondition ch (x.report.getLsbD ch.val) (s.output.channels[ch].recorded x ch) = true := fun h =>
      hs ⟨(ChannelState.judged_iff _).1 hj, (shortCondition_iff _).1 h⟩
    rw [if_pos hj, if_neg clear] at e
    rw [if_pos hj, ← own]
    subst e
    exact ⟨Output.modChannel_same _ _ _, fun k hk => (Output.modChannel_other hk _ _).trans (others k hk), rfl⟩
  · rw [if_neg hj] at e
    rw [if_neg hj]
    subst e
    exact ⟨own, others, rfl⟩

/-- A channel with a short enters FAULT at once (R166). -/
theorem State.sampleChannel_short (hs : s.shortAt x ch) :
    s.sampleChannel x ch = (s.recordedAt x ch).enterFault ch .shortLoad := by
  obtain ⟨own, -, state⟩ := State.recordedAt_channel x ch s
  have e := State.sampleChannel_eq x ch s
  dsimp only at e
  rw [state, own] at e
  rw [e, if_pos ((ChannelState.judged_iff _).2 hs.1), if_pos ((shortCondition_iff _).2 hs.2)]

/-- What a sample of a channel leaves, short or not. -/
structure State.SampleBeside (x : Samples) (ch : Channel) (s t : State) : Prop where
  others : ∀ k : Channel, k ≠ ch → t.output.channels[k].fault = s.output.channels[k].fault ∧
    t.output.channels[k].holder = s.output.channels[k].holder ∧
    t.output.channels[k].measured = s.output.channels[k].measured
  measured : isPropChannel ch = true → t.output.channels[ch].measured = x.current[ch]
  told : s.told .alarmRaised → t.told .alarmRaised
  periods : t.periods = s.periods

theorem ChannelRec.recorded_measured {c : ChannelRec} (hp : isPropChannel ch = true) :
    (c.recorded x ch).measured = x.current[ch] := by
  unfold ChannelRec.recorded
  rw [if_pos hp]

theorem State.sampleChannel_beside (x : Samples) (ch : Channel) (s : State) :
    State.SampleBeside x ch s (s.sampleChannel x ch) := by
  by_cases hs : s.shortAt x ch
  · obtain ⟨own, others, -⟩ := State.recordedAt_channel x ch s
    obtain ⟨-, beside⟩ := State.enterFault_spec (kind := .shortLoad) ch (by decide) (s.recordedAt x ch)
    rw [State.sampleChannel_short hs]
    refine ⟨fun k hk => ?_, fun hp => ?_, fun _ => beside.told, beside.periods⟩
    · obtain ⟨fault, holder⟩ := beside.others k hk
      rw [fault, holder, beside.measured, others k hk]
      exact ⟨rfl, rfl, rfl⟩
    · rw [beside.measured, own]
      exact ChannelRec.recorded_measured hp
  · obtain ⟨own, others, rest⟩ := State.sampleChannel_clear hs
    refine ⟨fun k hk => by rw [others k hk]; exact ⟨rfl, rfl, rfl⟩, fun hp => ?_, fun ht => ?_, by rw [rest]⟩
    · rw [own]
      unfold State.sampledRec
      dsimp only
      split <;> exact ChannelRec.recorded_measured hp
    · rw [rest]; exact ht

end

end Sys2Proof.Machine
end

section
/-! O45: a sample of all channels in their order (R162; entry 12), and the end of a dither part (R163, R164). -/

namespace Sys2Proof.Machine

section
variable {x : Samples} {ch : Channel} {list rest : List Channel} {s t u : State}

/-- Samples of some channels, none of them short, move their records alone. -/
theorem State.sampleList_clear (hn : list.Nodup) (hs : ∀ ch ∈ list, ¬s.shortAt x ch) :
    let t := list.foldl (State.sampleChannel x) s
    (∀ ch ∈ list, t.output.channels[ch] = s.sampledRec x ch) ∧
    (∀ ch, ch ∉ list → t.output.channels[ch] = s.output.channels[ch]) ∧
    t = { s with output := { s.output with channels := t.output.channels } } := by
  induction list generalizing s with
  | nil => exact ⟨fun _ h => (nomatch h), fun _ _ => rfl, rfl⟩
  | cons c list ih =>
    intro t
    obtain ⟨fresh, hn⟩ := List.nodup_cons.1 hn
    obtain ⟨own, others, frame⟩ := State.sampleChannel_clear (hs c List.mem_cons_self)
    have e : t = list.foldl (State.sampleChannel x) (s.sampleChannel x c) := rfl
    generalize s.sampleChannel x c = v at *
    have later : ∀ ch ∈ list, ch ≠ c := fun ch hm h => fresh (h ▸ hm)
    have cuts : ∀ ch, v.output.cutFlag ch = s.output.cutFlag ch := fun ch => by rw [frame]; rfl
    have nowUs : v.nowUs = s.nowUs := by rw [frame]; rfl
    have state : ∀ ch ∈ list, v.output.stateOf ch = s.output.stateOf ch := fun ch hm => by
      unfold Output.stateOf; rw [cuts, others ch (later ch hm)]
    have clear : ∀ ch ∈ list, ¬v.shortAt x ch := fun ch hm h => hs ch (List.mem_cons_of_mem _ hm) (by
      unfold State.shortAt at h ⊢; rw [state ch hm] at h; exact h)
    have same : ∀ ch ∈ list, v.sampledRec x ch = s.sampledRec x ch := fun ch hm => by
      unfold State.sampledRec; rw [state ch hm, others ch (later ch hm), nowUs]
    obtain ⟨mine, beside, whole⟩ := ih hn clear
    rw [← e] at mine beside whole
    clear_value t
    refine ⟨fun ch hm => ?_, fun ch hm => ?_, ?_⟩
    · rcases List.mem_cons.1 hm with rfl | hm
      · rw [beside _ fresh, own]
      · rw [mine ch hm, same ch hm]
    · rw [List.mem_cons, not_or] at hm
      rw [beside ch hm.2, others ch hm.1]
    · rw [frame] at whole
      exact whole

/-- Samples of some channels, short or not. -/
structure State.ListBeside (x : Samples) (list : List Channel) (s t : State) : Prop where
  others : ∀ k : Channel, k ∉ list → t.output.channels[k].fault = s.output.channels[k].fault ∧
    t.output.channels[k].holder = s.output.channels[k].holder ∧
    t.output.channels[k].measured = s.output.channels[k].measured
  measured : ∀ k ∈ list, isPropChannel k = true → t.output.channels[k].measured = x.current[k]
  told : s.told .alarmRaised → t.told .alarmRaised
  periods : t.periods = s.periods

theorem State.sampleList_beside (x : Samples) (list : List Channel) (s : State) (hn : list.Nodup) :
    State.ListBeside x list s (list.foldl (State.sampleChannel x) s) := by
  induction list generalizing s with
  | nil => exact ⟨fun _ _ => ⟨rfl, rfl, rfl⟩, fun _ h => (nomatch h), id, rfl⟩
  | cons c list ih =>
    obtain ⟨fresh, hn⟩ := List.nodup_cons.1 hn
    have first := State.sampleChannel_beside x c s
    have later := ih (s.sampleChannel x c) hn
    rw [List.foldl_cons]
    generalize s.sampleChannel x c = v at *
    refine ⟨fun k hk => ?_, fun k hk hp => ?_, fun h => later.told (first.told h), later.periods.trans first.periods⟩
    · rw [List.mem_cons, not_or] at hk
      obtain ⟨fault, holder, measured⟩ := first.others k hk.1
      obtain ⟨fault', holder', measured'⟩ := later.others k hk.2
      exact ⟨fault'.trans fault, holder'.trans holder, measured'.trans measured⟩
    · rcases List.mem_cons.1 hk with rfl | hk
      · rw [(later.others _ fresh).2.2]; exact first.measured hp
      · exact later.measured k hk hp

/-- The channels before and after one of them, in their order. -/
theorem allChannels_split (ch : Channel) : ∃ before after : List Channel, allChannels = before ++ ch :: after ∧
    (∀ k ∈ before, k.val < ch.val) ∧ before.Nodup ∧ ch ∉ after ∧ after.Nodup := by
  obtain ⟨before, after, e⟩ := List.append_of_mem (mem_allChannels ch)
  have order : allChannels.Pairwise fun a b => a.val < b.val := by decide
  have nodup : allChannels.Nodup := by decide
  rw [e] at order nodup
  obtain ⟨-, -, below⟩ := List.pairwise_append.1 order
  obtain ⟨first, second, -⟩ := List.nodup_append.1 nodup
  obtain ⟨fresh, rest⟩ := List.nodup_cons.1 second
  exact ⟨before, after, e, fun k hk => below k hk ch List.mem_cons_self, first, fresh, rest⟩

/-- The lowest channel judged short enters FAULT (R166). -/
theorem State.sampleAll_short (hs : s.shortAt x ch) (low : ∀ k : Channel, k.val < ch.val → ¬s.shortAt x k) :
    let t := s.sampleAll x
    t.output.channels[ch].fault = .shortLoad ∧ t.output.channels[ch].holder = none ∧ t.told .alarmRaised := by
  intro t
  obtain ⟨before, after, e, below, nodup, fresh, rest⟩ := allChannels_split ch
  have ht : t = after.foldl (State.sampleChannel x) ((before.foldl (State.sampleChannel x) s).sampleChannel x ch) := by
    show allChannels.foldl (State.sampleChannel x) s = _
    rw [e, List.foldl_append, List.foldl_cons]
  obtain ⟨-, others, frame⟩ := State.sampleList_clear nodup fun k hk => low k (below k hk)
  generalize before.foldl (State.sampleChannel x) s = v at *
  have own := others ch fun hm => absurd (below ch hm) (Nat.lt_irrefl _)
  have short : v.shortAt x ch := by
    have state : v.output.stateOf ch = s.output.stateOf ch := by
      have cut : v.output.cutFlag ch = s.output.cutFlag ch := by rw [frame]; rfl
      unfold Output.stateOf; rw [cut, own]
    unfold State.shortAt at hs ⊢
    rw [state]; exact hs
  rw [State.sampleChannel_short short] at ht
  obtain ⟨⟨fault, holder, -⟩, beside⟩ := State.enterFault_spec (kind := .shortLoad) ch (by decide) (v.recordedAt x ch)
  generalize (v.recordedAt x ch).enterFault ch .shortLoad = w at *
  have last := State.sampleList_beside x after w rest
  rw [← ht] at last
  obtain ⟨fault', holder', -⟩ := last.others ch fresh
  exact ⟨fault'.trans fault, holder'.trans holder, last.told beside.told⟩

/-- What a sample without a short makes of a channel's record (R162, R165). -/
theorem State.sampledRec_spec (x : Samples) (ch : Channel) (s : State) :
    let judged := s.output.stateOf ch = .driven ∨ s.output.stateOf ch = .direct
    let c := s.output.channels[ch]
    let d := s.sampledRec x ch
    (¬judged → d.openSince = c.openSince) ∧ (judged → ¬s.openAt x ch → d.openSince = none) ∧
    (judged → s.openAt x ch → d.openSince = some (c.openSince.getD s.nowUs)) ∧
    d = { c with
      measured := if isPropChannel ch then x.current[ch] else c.measured
      carrier := { c.carrier with pos := d.carrier.pos }, openSince := d.openSince } ∧
    (isPropChannel ch = true → d.carrier.pos = min (match c.carrier.part with
      | .rest => 0 | .high => c.carrier.high | .low => c.carrier.low) (c.carrier.pos + 1)) := by
  intro judged c d
  obtain ⟨r, hr⟩ : ∃ r, r = c.recorded x ch := ⟨_, rfl⟩
  have opens : openCondition ch (x.report.getLsbD ch.val) r = true ↔ s.openAt x ch := by rw [hr]; exact openCondition_iff c
  have e : d = if (s.output.stateOf ch).judged then
      { r with openSince := if openCondition ch (x.report.getLsbD ch.val) r then some (r.openSince.getD s.nowUs) else none }
      else r := by rw [hr]; rfl
  have timer : r.openSince = c.openSince := by
    rw [hr]; unfold ChannelRec.recorded; split <;> rfl
  have moved : r = { c with
      measured := if isPropChannel ch then x.current[ch] else c.measured
      carrier := { c.carrier with pos := r.carrier.pos } } := by
    rw [hr]; unfold ChannelRec.recorded Carrier.move; split <;> rfl
  have pos : isPropChannel ch = true → r.carrier.pos = min (match c.carrier.part with
      | .rest => 0 | .high => c.carrier.high | .low => c.carrier.low) (c.carrier.pos + 1) := by
    intro hp
    rw [hr]; unfold ChannelRec.recorded; rw [if_pos hp]
    unfold Carrier.move Carrier.length
    cases c.carrier.part <;> rfl
  have whole : d = { r with openSince := d.openSince } := by
    rw [e]; split <;> rfl
  have carrier : d.carrier = r.carrier := by rw [whole]
  have same : judged ↔ (s.output.stateOf ch).judged = true := (ChannelState.judged_iff _).symm
  rw [same]
  refine ⟨fun hj => ?_, fun hj ho => ?_, fun hj ho => ?_, ?_, fun hp => ?_⟩
  · rw [e, if_neg hj]; exact timer
  · rw [e, if_pos hj]; exact if_neg fun h => ho (opens.1 h)
  · rw [e, if_pos hj, ← timer]; exact if_pos (opens.2 ho)
  · rw [carrier]
    refine whole.trans ?_
    generalize d.openSince = o
    rw [moved]
  · rw [carrier]; exact pos hp

end

end Sys2Proof.Machine
end

section
/-! O45, from the samples and the end of a dither part. -/

namespace Sys2Proof.Machine

/-- The end of a part of a carrier (R163, R164). -/
theorem Carrier.partEnd_spec (k : Carrier) :
    let j := k.partEnd
    (k.part = .rest → j = k) ∧ (k.part = .high → k.high ≤ k.pos → j = { k with part := .low, pos := 0 }) ∧
    (k.part = .high → k.pos < k.high → j = k) ∧ (k.part = .low → k.pos < k.low → j = k) ∧
    (k.part = .low → k.low ≤ k.pos → j = {
      part := .high, pos := 0, high := k.nextHigh.getD k.high, low := k.nextLow.getD k.low
      amp := k.nextAmp.getD k.amp }) := by
  unfold Carrier.partEnd
  refine ⟨fun h => ?_, fun h hp => ?_, fun h hp => ?_, fun h hp => ?_, fun h hp => ?_⟩
  all_goals simp only [h]
  · exact if_pos hp
  · exact if_neg (Nat.not_le.2 hp)
  · exact if_neg (Nat.not_le.2 hp)
  · exact if_pos hp

/-- The end of a part moves the carrier of its channel alone. -/
theorem State.partEnd_channel (ch : Channel) (s : State) :
    let t := s.modCarrier ch Carrier.partEnd
    t.output.channels[ch] = { s.output.channels[ch] with carrier := s.output.channels[ch].carrier.partEnd } ∧
    (∀ i : Channel, i ≠ ch → t.output.channels[i] = s.output.channels[i]) ∧
    t = { s with output := { s.output with channels := t.output.channels } } :=
  ⟨Output.modChannel_same _ _ _, fun _ hi => Output.modChannel_other hi _ _, rfl⟩

theorem allChannels_nodup : allChannels.Nodup := by decide

theorem State.sampleAll_eq (x : Samples) (s : State) : s.sampleAll x = allChannels.foldl (State.sampleChannel x) s := rfl

theorem State.sampleAll_beside (x : Samples) (s : State) : State.ListBeside x allChannels s (s.sampleAll x) :=
  State.sampleList_beside x allChannels s allChannels_nodup

/-- A sample of every channel (R162). -/
theorem State.sampleAll_clear {x : Samples} {s : State} (hs : ∀ ch, ¬s.shortAt x ch) :
    let t := s.sampleAll x
    (∀ ch : Channel, t.output.channels[ch] = s.sampledRec x ch) ∧
    t = { s with output := { s.output with channels := t.output.channels } } := by
  have all := State.sampleList_clear allChannels_nodup fun ch _ => hs ch
  rw [← State.sampleAll_eq] at all
  exact ⟨fun ch => all.1 ch (mem_allChannels ch), all.2.2⟩

/-- Settles O45: the samples are `State.sampleAll_clear` and `State.sampleAll_short`, the parts `Carrier.partEnd_spec`. -/
theorem samplesAreTaken : Obligations.SamplesAreTaken := by
  unfold Obligations.SamplesAreTaken
  refine ⟨fun after x s hr => ?_, fun after ch s => ?_⟩
  · obtain ⟨v, hv⟩ : ∃ v, v = (s.elapse after).modPeriods fun p => { p with sample := later p.sample 500 } := ⟨_, rfl⟩
    have run : exec (.currentSample after x) s = .next (v.sampleAll x) := by
      rw [hv]; exact if_pos hr
    have periods : v.periods = { s.periods with sample := later s.periods.sample 500 } := by rw [hv]; rfl
    have output : v.output = s.output := by rw [hv]; rfl
    have clock : v.clock = (s.elapse after).clock := by rw [hv]; rfl
    have nowUs : v.nowUs = (s.elapse after).nowUs := by unfold State.nowUs; rw [clock]
    have short : ∀ ch, v.shortAt x ch ↔ s.shortAt x ch := fun ch => by unfold State.shortAt; rw [output]
    have beside := State.sampleAll_beside x v
    have shorted := fun ch hs low => State.sampleAll_short (x := x) (ch := ch) (s := v) hs low
    have all := State.sampleAll_clear (x := x) (s := v)
    simp only [short] at shorted all
    generalize v.sampleAll x = t at *
    refine ⟨t, run, beside.periods.trans periods, fun ch hp => beside.measured ch (mem_allChannels ch) hp, fun clear => ?_,
      shorted⟩
    obtain ⟨own, frame⟩ := all clear
    refine ⟨fun ch => ?_, ?_⟩
    · have record := State.sampledRec_spec x ch v
      have opens : v.openAt x ch ↔ s.openAt x ch := by unfold State.openAt; rw [output]
      rw [opens, ← own ch, output, nowUs] at record
      exact record
    · refine frame.trans ?_
      rw [beside.periods, hv]
      rfl
  · obtain ⟨own, others, frame⟩ := State.partEnd_channel ch (s.elapse after)
    refine ⟨_, rfl, ?_⟩
    generalize (s.elapse after).modCarrier ch Carrier.partEnd = t at *
    have parts := Carrier.partEnd_spec s.output.channels[ch].carrier
    have carrier : t.output.channels[ch].carrier = s.output.channels[ch].carrier.partEnd := by rw [own]; rfl
    have target : t.output.channels[ch].target = s.output.channels[ch].target := by rw [own]; rfl
    have commanded : t.output.commanded ch = t.output.channels[ch].commandedOn ch := rfl
    rw [← carrier] at parts
    refine ⟨parts, fun hp hk => ?_, fun hp hk => ?_, by rw [carrier]; exact own, others, frame⟩
    · rw [commanded, ← target]
      unfold ChannelRec.commandedOn
      rw [if_pos hp, hk]
    · rw [commanded, ← target]
      unfold ChannelRec.commandedOn
      rw [if_pos hp, hk]

end Sys2Proof.Machine
end

section
/-! O46: the triggers of the two groups, and the settle of a slow item (R144 to R146). -/

namespace Sys2Proof.Machine

/-! ### Sequences and the slow selector -/

/-- The sequence that begins for an analog channel (R143). -/
def State.begunAt (ch : Fin 9) (s : State) : Sequence :=
  { count := s.settings.scan[ch].count, offset := s.settings.scan[ch].offset, span := s.settings.scan[ch].span }

theorem State.beginChannel_eq (ch : Fin 9) (s : State) :
    s.beginChannel ch = { s with scan := { s.scan with seq := some (s.begunAt ch), convStart := some s.nowUs } } := rfl

theorem State.settleItem_eq (i : SlowItem) (s : State) :
    s.settleItem i = { s with scan := { s.scan with slow := some ⟨i, .settling (later s.nowUs 1600)⟩ } } := rfl

/-- A slow item begins with the sequence of its channel, the reference with a count of 4 (R145). -/
theorem State.beginSlow_spec (i : SlowItem) (s : State) : ∃ q : Sequence, q.sum = 0 ∧ q.done = 0 ∧
    (i = .reference → q.count = 4) ∧
    (∀ ch, (i, ch) ∈ ([(.a6, 6), (.a7, 7), (.a8, 8)] : List (SlowItem × Fin 9)) → q = s.begunAt ch) ∧
    s.beginSlow i = { s with scan := { s.scan with
      slow := some ⟨i, .converting⟩, seq := some q, convStart := some s.nowUs } } := by
  cases i with
  | reference => exact ⟨{ count := 4, offset := 0, span := 1 }, rfl, rfl, fun _ => rfl, fun ch h => by simp at h, rfl⟩
  | a6 => exact ⟨s.begunAt 6, rfl, rfl, fun h => (nomatch h), fun ch h => by simp at h; rw [h], rfl⟩
  | a7 => exact ⟨s.begunAt 7, rfl, rfl, fun h => (nomatch h), fun ch h => by simp at h; rw [h], rfl⟩
  | a8 => exact ⟨s.begunAt 8, rfl, rfl, fun h => (nomatch h), fun ch h => by simp at h; rw [h], rfl⟩

/-- A slow conversion under way waits after a fast trigger (R146). -/
theorem slow_stopped (y : Option SlowPass) :
    (y.map fun p => if p.phase = .converting then { p with phase := .waiting } else p) =
      match y with | some ⟨i, .converting⟩ => some ⟨i, .waiting⟩ | y => y := by
  rcases y with _ | ⟨i, phase⟩
  · rfl
  · cases phase <;> rfl

/-- A settle that has come to its end (R145). -/
theorem State.slowSettle_due {i : SlowItem} {till : Micros} (s : State) (hs : s.scan.slow = some ⟨i, .settling till⟩)
    (hr : reached s.nowUs till = true) : s.slowSettle = s.itemSettled i := by
  unfold State.slowSettle
  simp only [hs, hr, if_true]

/-- Settles O46: each trigger's branches are the two of its definition. -/
theorem scanTriggersTaken : Obligations.ScanTriggersTaken := by
  unfold Obligations.ScanTriggersTaken
  intro after s
  refine ⟨fun hr => ⟨fun hf => ?_, fun hf => ?_⟩, fun hr => ⟨fun hs => ?_, fun hs => ?_⟩, fun i till hs hr =>
    ⟨fun hf => ?_, fun hf => ?_⟩⟩
  · obtain ⟨v, hv⟩ : ∃ v, v = (s.elapse after).modPeriods fun p => { p with fast := later p.fast 5 } := ⟨_, rfl⟩
    have run : exec (.fastScanTrigger after) s = .next v.startFast := by
      rw [hv]; exact (if_pos hr).trans (congrArg Host.Outcome.next (if_pos (Option.isNone_iff_eq_none.2 hf)))
    refine run.trans (congrArg Host.Outcome.next ?_)
    have stopped := slow_stopped s.scan.slow
    have e : v.startFast = { v with scan := { v.scan with
        fast := some 0
        slow := v.scan.slow.map fun p => if p.phase = .converting then { p with phase := .waiting } else p
        seq := some (v.begunAt 0), convStart := some v.nowUs } } := rfl
    have scan : v.scan = s.scan := by rw [hv]; rfl
    rw [e, scan, stopped, hv]
    rfl
  · refine (if_pos hr).trans (congrArg Host.Outcome.next ?_)
    exact if_neg fun h => hf (Option.isNone_iff_eq_none.1 h)
  · refine (if_pos hr).trans (congrArg Host.Outcome.next ?_)
    exact if_pos (Option.isNone_iff_eq_none.2 hs)
  · refine (if_pos hr).trans (congrArg Host.Outcome.next ?_)
    exact if_neg fun h => hs (Option.isNone_iff_eq_none.1 h)
  · refine congrArg Host.Outcome.next ?_
    have settles := (s.elapse after).slowSettle_due (i := i) (till := till) hs hr
    exact settles.trans (if_neg fun h => hf (Option.isNone_iff_eq_none.1 h))
  · obtain ⟨q, sum, done, count, begun, e⟩ := State.beginSlow_spec i (s.elapse after)
    refine ⟨q, sum, done, count, begun, congrArg Host.Outcome.next ?_⟩
    have settles := (s.elapse after).slowSettle_due (i := i) (till := till) hs hr
    exact settles.trans ((if_pos (Option.isNone_iff_eq_none.2 hf)).trans e)

end Sys2Proof.Machine
end

section
/-! O47: a code is added, results are formed, and a group goes on (R140, R142 to R145). -/

namespace Sys2Proof.Machine

/-- The sequence after a code (R140). -/
def Sequence.adding (code : Nat) (q : Sequence) : Sequence := { q with sum := q.sum + code, done := q.done + 1 }

section
variable {s t u : State} {q : Sequence} {code : Nat} {ch : Fin 6} {i : SlowItem}

theorem State.addCode_goes (hq : s.scan.seq = some q) (hd : q.done + 1 < q.count) :
    s.addCode code = { s with scan := { s.scan with seq := some (q.adding code), convStart := some s.nowUs } } := by
  unfold State.addCode
  simp only [hq]
  exact if_pos hd

theorem State.addCode_fast (hq : s.scan.seq = some q) (hd : q.count ≤ q.done + 1) (hf : s.scan.fast = some ch) :
    s.addCode code = s.completeFast ch (q.adding code) := by
  unfold State.addCode
  simp only [hq, hf]
  exact if_neg (Nat.not_lt.2 hd)

theorem State.addCode_slow (hq : s.scan.seq = some q) (hd : q.count ≤ q.done + 1) (hf : s.scan.fast = none)
    (hs : s.scan.slow = some ⟨i, .converting⟩) : s.addCode code = s.completeSlow i (q.adding code) := by
  unfold State.addCode
  simp only [hq, hf, hs]
  exact if_neg (Nat.not_lt.2 hd)

/-- The end of a conversion that can have ended is its code's (R140; entry 47). -/
theorem execConversionEnd_done {after : Nat} {code : BitVec 12} {e : Micros} (he : s.scan.convStart = some e)
    (hd : 10 ≤ since (s.elapse after).nowUs e) :
    exec (.conversionEnd after code) s = .next ((s.elapse after).addCode code.toNat) := by
  refine if_pos ?_
  have scan : (s.elapse after).scan = s.scan := (State.elapse_frame after s).2.2.2.2.2.2.2.1
  unfold State.conversionDone
  simp only [scan, he]
  exact decide_eq_true hd

/-! ### A result (R142, R143) -/

/-- The result that a sequence forms on a channel. -/
def State.formedResult (ch : Fin 9) (q : Sequence) (s : State) : Result :=
  { value := scaledValue ch q.offset q.span q.average, raw := q.average, stale := s.scan.fault, time := s.now }

theorem State.formResult_eq (ch : Fin 9) (q : Sequence) (s : State) :
    s.formResult ch q = { s with scan := { s.scan with results := s.scan.results.set ch (s.formedResult ch q) } } := rfl

theorem set_other {α : Type} {n : Nat} {k i : Fin n} (h : k ≠ i) (a : α) (v : Vector α n) : (v.set i a)[k] = v[k] :=
  Vector.getElem_set_ne _ _ fun e => h (Fin.ext e).symm

theorem results_set (ch : Fin 9) (r : Result) (v : Vector Result 9) :
    (v.set ch r)[ch] = r ∧ ∀ k : Fin 9, k ≠ ch → (v.set ch r)[k] = v[k] :=
  ⟨by simp, fun _ hk => set_other hk r v⟩

/-- The clamped value, by the ranges of R141. -/
theorem scaledValue_eq (ch : Fin 9) (offset : Int) (span raw : Nat) : scaledValue ch offset span raw =
    (let range : Int × Int := match ch.val with
      | 0 | 1 => (0, 5000) | 2 | 3 | 4 => (0, 3000) | 5 | 6 => (0, 1000) | 7 => (-400, 1500) | _ => (-450, 450)
     max range.1 (min range.2 (offset + (raw * span / 4095 : Nat)))) := by
  revert ch
  intro ch
  fin_cases ch <;> rfl

/-! ### The comparators of a fast channel (R148, R149) -/

/-- The evaluation of a comparator moves no part of the Scan Unit but its record. -/
theorem State.evaluate_scan (i : Fin 4) (v : Int) (s : State) :
    (s.evaluate i v).scan = { s.scan with comps := (s.evaluate i v).scan.comps } ∧
    ∀ k : Fin 4, k ≠ i → (s.evaluate i v).scan.comps[k] = s.scan.comps[k] := by
  unfold State.evaluate
  dsimp only
  split
  · exact ⟨rfl, fun _ _ => rfl⟩
  · have moved : ∀ x : State, x.scan = { s.scan with comps := s.scan.comps.set i (s.scan.comps[i].judge s.settings.comps[i] v) } →
        x.scan = { s.scan with comps := x.scan.comps } ∧ ∀ k : Fin 4, k ≠ i → x.scan.comps[k] = s.scan.comps[k] := by
      intro x hx
      rw [hx]
      exact ⟨rfl, fun _ hk => set_other hk _ _⟩
    split
    · exact moved _ (by simp)
    · split
      · exact moved _ (by simp)
      · exact moved _ rfl

/-- The state after the comparator of a fast channel is evaluated on its new result. -/
def State.compared (ch : Fin 6) (q : Sequence) (s : State) : State :=
  let f := s.formResult (ch.castLE (by decide)) q
  match comparatorOf f.scan.input3 ch with
  | some i => f.evaluate i (f.scan.results[(ch.castLE (by decide) : Fin 9)]).value
  | none => f

/-- The fast group passes to its next channel or ends (R144). -/
def State.passFast (ch : Fin 6) (s : State) : State :=
  if h : ch.val + 1 < 6 then
    (s.modScan fun x => { x with fast := some ⟨ch.val + 1, h⟩ }).beginChannel ⟨ch.val + 1, by omega⟩
  else s.endFast

theorem State.completeFast_eq (ch : Fin 6) (q : Sequence) (s : State) :
    s.completeFast ch q = (s.compared ch q).passFast ch := rfl

/-- A comparison leaves what a result and a comparator do not name. -/
structure State.Compares (ch : Fin 6) (q : Sequence) (s t : State) : Prop where
  scan : t.scan = { s.scan with
    results := s.scan.results.set (ch.castLE (by decide) : Fin 9) (s.formedResult (ch.castLE (by decide)) q)
    comps := t.scan.comps }
  clock : t.clock = s.clock
  travel : t.travel = s.travel
  links : t.links = s.links
  settings : t.settings = s.settings

theorem State.compared_spec (ch : Fin 6) (q : Sequence) (s : State) : State.Compares ch q s (s.compared ch q) := by
  obtain ⟨f, hf⟩ : ∃ f, f = s.formResult (ch.castLE (by decide)) q := ⟨_, rfl⟩
  have formed : State.Compares ch q s f := by
    rw [hf]; exact ⟨rfl, rfl, rfl, rfl, rfl⟩
  unfold State.compared
  dsimp only
  rw [← hf]
  split
  · next i _ =>
    generalize (f.scan.results[(ch.castLE (by decide) : Fin 9)]).value = v
    have scan := (State.evaluate_scan i v f).1
    refine ⟨scan.trans ?_, ?_, ?_, ?_, ?_⟩
    · generalize (f.evaluate i v).scan.comps = comps
      rw [formed.scan]
    · exact (State.evaluate_frame i v f).1.trans formed.clock
    · simpa using formed.travel
    · simpa using formed.links
    · simpa using formed.settings
  · exact formed

/-- What passing on moves of the Scan Unit (R144, R145). -/
structure State.Passes (ch : Fin 6) (s t : State) : Prop where
  next : ∀ next : Fin 6, next.val = ch.val + 1 → t.scan.fast = some next ∧
    t.scan.seq = some (s.begunAt (next.castLE (by decide))) ∧ t.scan.convStart = some s.nowUs ∧ t.scan.slow = s.scan.slow
  ends : ch = 5 → t.scan.fast = none ∧
    (∀ i, s.scan.slow = some ⟨i, .waiting⟩ → t.scan.slow = some ⟨i, .converting⟩ ∧ t.scan.convStart = some s.nowUs) ∧
    ((∀ i, s.scan.slow ≠ some ⟨i, .waiting⟩) →
      t.scan.slow = s.scan.slow ∧ t.scan.seq = none ∧ t.scan.convStart = none)
  rest : t = { s with scan := { s.scan with
    fast := t.scan.fast, seq := t.scan.seq, convStart := t.scan.convStart, slow := t.scan.slow } }

theorem State.endFast_spec (s : State) :
    let t := s.endFast
    t.scan.fast = none ∧
    (∀ i, s.scan.slow = some ⟨i, .waiting⟩ → t.scan.slow = some ⟨i, .converting⟩ ∧ t.scan.convStart = some s.nowUs) ∧
    ((∀ i, s.scan.slow ≠ some ⟨i, .waiting⟩) → t.scan.slow = s.scan.slow ∧ t.scan.seq = none ∧ t.scan.convStart = none) ∧
    t = { s with scan := { s.scan with
      fast := t.scan.fast, seq := t.scan.seq, convStart := t.scan.convStart, slow := t.scan.slow } } := by
  intro t
  obtain ⟨f, hf⟩ : ∃ f, f = (s.modScan fun x => { x with fast := none }).freeConverter := ⟨_, rfl⟩
  have slow : f.scan.slow = s.scan.slow := by rw [hf]; rfl
  have nowUs : f.nowUs = s.nowUs := by rw [hf]; rfl
  by_cases hw : ∃ i, s.scan.slow = some ⟨i, .waiting⟩
  · obtain ⟨i, hi⟩ := hw
    have e : t = f.beginSlow i := by
      show s.endFast = _
      unfold State.endFast
      dsimp only
      rw [← hf]
      simp only [slow, hi]
    obtain ⟨q, -, -, -, -, begins⟩ := State.beginSlow_spec i f
    rw [e, begins, nowUs]
    refine ⟨by rw [hf]; rfl, fun j hj => ?_, fun hn => absurd hi (hn i), by rw [hf]; rfl⟩
    rw [hi] at hj
    cases hj
    exact ⟨rfl, rfl⟩
  · have none : ∀ i, s.scan.slow ≠ some ⟨i, .waiting⟩ := fun i hi => hw ⟨i, hi⟩
    have e : t = f := by
      show s.endFast = _
      unfold State.endFast
      dsimp only
      rw [← hf]
      split
      · next i hi => exact absurd (slow.symm.trans hi) (none i)
      · rfl
    rw [e]
    refine ⟨by rw [hf]; rfl, fun i hi => absurd hi (none i), fun _ => ⟨slow, by rw [hf]; rfl, by rw [hf]; rfl⟩, by rw [hf]; rfl⟩

theorem State.passFast_spec (ch : Fin 6) (s : State) : State.Passes ch s (s.passFast ch) := by
  unfold State.passFast
  split
  · next h =>
    refine ⟨fun next hn => ?_, fun he => ?_, rfl⟩
    · obtain rfl : next = ⟨ch.val + 1, h⟩ := Fin.ext hn
      exact ⟨rfl, rfl, rfl, rfl⟩
    · rw [he] at h; exact absurd h (by decide)
  · next h =>
    obtain ⟨fast, waits, others, rest⟩ := State.endFast_spec s
    exact ⟨fun next hn => by have := next.isLt; omega, fun _ => ⟨fast, waits, others⟩, rest⟩

end

end Sys2Proof.Machine
end

section
/-! O47, from the parts of a completed sequence. -/

namespace Sys2Proof.Machine

section
variable {s t : State} {q : Sequence} {i next : SlowItem} {ch : Fin 9}

/-- A slow channel's completed sequence: its result, and the settle of the next item (R145). -/
theorem State.completeSlow_channel (h : (i, ch, next) ∈
      ([(.a6, 6, .a7), (.a7, 7, .a8), (.a8, 8, .reference)] : List (SlowItem × Fin 9 × SlowItem))) :
    s.completeSlow i q = { s with scan := { s.scan with
      results := s.scan.results.set ch (s.formedResult ch q), seq := none, convStart := none
      slow := some ⟨next, .settling (later s.nowUs 1600)⟩ } } := by
  simp only [List.mem_cons, Prod.mk.injEq, List.not_mem_nil, or_false] at h
  rcases h with ⟨rfl, rfl, rfl⟩ | ⟨rfl, rfl, rfl⟩ | ⟨rfl, rfl, rfl⟩ <;> rfl

theorem State.completeSlow_reference : s.completeSlow .reference q = s.freeConverter.completePass q.average := rfl

/-- What a completed fast channel leaves, over its comparator (R144). -/
structure State.FastCompletes (ch : Fin 6) (q : Sequence) (s v t : State) : Prop where
  compares : State.Compares ch q s v
  passes : State.Passes ch v t

theorem State.completeFast_spec (ch : Fin 6) (q : Sequence) (s : State) :
    State.FastCompletes ch q s (s.compared ch q) (s.completeFast ch q) :=
  ⟨State.compared_spec ch q s, State.passFast_spec ch _⟩

theorem State.compared_last {ch : Fin 6} (h : ch = 5) (q : Sequence) (s : State) :
    s.compared ch q = s.formResult (ch.castLE (by decide)) q := by
  subst h
  rfl

end

/-- The Scan Unit alone has moved. -/
theorem State.eq_of_scan {t u : State} {x : Scan} (h : t = { u with scan := x }) : t = { u with scan := t.scan } := by
  rw [h]

/-- Settles O47: the sequence goes on by `State.addCode_goes`, and is completed by `State.completeFast_spec` and
`State.completeSlow_channel`. -/
theorem conversionsFormResults : Obligations.ConversionsFormResults := by
  unfold Obligations.ConversionsFormResults
  intro after code s q e hq he hd
  have run := execConversionEnd_done (code := code) he hd
  have average : (q.adding code.toNat).average = (q.sum + code.toNat) / q.count := rfl
  refine ⟨fun hn => ?_, fun hn => ⟨fun ch hf => ?_, fun i next ch hf hs hm => ?_⟩⟩
  · rw [run, State.addCode_goes (s := s.elapse after) hq hn]
    rfl
  · rw [State.addCode_fast (s := s.elapse after) hq hn hf] at run
    obtain ⟨⟨scan, clock, travel, links, settings⟩, next, ends, rest⟩ :=
      State.completeFast_spec ch (q.adding code.toNat) (s.elapse after)
    have last : ch = 5 → (s.elapse after).compared ch (q.adding code.toNat) = _ := fun h => State.compared_last h _ _
    refine ⟨_, run, ?_⟩
    generalize (s.elapse after).completeFast ch (q.adding code.toNat) = t at *
    generalize (s.elapse after).compared ch (q.adding code.toNat) = v at *
    have results : t.scan.results = s.scan.results.set (ch.castLE (by decide) : Fin 9)
        ((s.elapse after).formedResult (ch.castLE (by decide)) (q.adding code.toNat)) := by
      rw [rest]
      show v.scan.results = _
      rw [scan]
      rfl
    have slow : v.scan.slow = s.scan.slow := by rw [scan]; rfl
    have nowUs : v.nowUs = (s.elapse after).nowUs := by unfold State.nowUs; rw [clock]
    have begun : ∀ c, v.begunAt c = (s.elapse after).begunAt c := fun c => by unfold State.begunAt; rw [settings]
    rw [slow, nowUs] at ends
    simp only [begun, slow, nowUs] at next
    obtain ⟨own, others⟩ := results_set (ch.castLE (by decide))
      ((s.elapse after).formedResult (ch.castLE (by decide)) (q.adding code.toNat)) s.scan.results
    have record : (s.elapse after).formedResult (ch.castLE (by decide)) (q.adding code.toNat) = _ :=
      congrArg (fun z : Int => (⟨z, (q.adding code.toNat).average, s.scan.fault, (s.elapse after).now⟩ : Result))
        (scaledValue_eq (ch.castLE (by decide)) q.offset q.span (q.adding code.toNat).average)
    refine ⟨⟨by rw [results, own]; exact record, fun k hk => by rw [results]; exact others k hk⟩, next, fun h => ?_, ?_⟩
    · obtain ⟨fast, waits, free⟩ := ends h
      have formed := last h
      refine ⟨fast, by rw [rest, formed]; rfl, ?_, waits, free⟩
      have whole := rest
      rw [formed] at whole
      exact State.eq_of_scan (u := s.elapse after) whole
    · rw [rest]
      refine ⟨by rw [scan]; rfl, by rw [scan]; rfl, by rw [scan]; rfl, by rw [scan]; rfl, by rw [settings]; rfl,
        by rw [travel]; rfl, fun l => ?_⟩
      unfold State.link
      rw [links]
      rfl
  · rw [State.addCode_slow (s := s.elapse after) hq hn hf hs, State.completeSlow_channel hm] at run
    refine ⟨_, run, ?_, rfl⟩
    obtain ⟨own, others⟩ := results_set ch ((s.elapse after).formedResult ch (q.adding code.toNat)) s.scan.results
    refine ⟨own.trans ?_, others⟩
    exact congrArg (fun z : Int => (⟨z, (q.adding code.toNat).average, s.scan.fault, (s.elapse after).now⟩ : Result))
      (scaledValue_eq ch q.offset q.span (q.adding code.toNat).average)

end Sys2Proof.Machine
end

section
/-! What a comparator's change brings (R78, R80, R149, R150), whatever the Scan Unit goes on to. -/

namespace Sys2Proof.Machine

/-! ### A strike, a cut of the broom and a jam do not read the Scan Unit -/

/-- The state with another record of the Scan Unit. -/
def State.withScan (x : Scan) (s : State) : State := { s with scan := x }

section
variable {a : Arm} {b : SideArm} {cut : Bool} {u t : State}

theorem State.MovesArm.withScan (h : State.MovesArm a u t) (x : Scan) : State.MovesArm a (u.withScan x) (t.withScan x) where
  others := h.others
  flags := h.flags
  channels := h.channels
  owners := h.owners
  cuts := h.cuts
  posted := h.posted
  judged := h.judged
  told := h.told
  masks := h.masks
  events := h.events
  tallies := h.tallies
  alarms := h.alarms
  entries := h.entries
  rest out := congrArg (State.withScan x) (h.rest out)
  leaving := congrArg (State.withScan x) h.leaving

theorem State.Strikes.withScan (h : State.Strikes b u t) (x : Scan) : State.Strikes b (u.withScan x) (t.withScan x) where
  counted := h.counted
  posted := h.posted
  others := h.others
  channels := h.channels
  masks := h.masks
  events := h.events
  tallies := h.tallies
  moves := h.moves
  stays := h.stays
  repeats := h.repeats
  yields := h.yields
  rest := congrArg (State.withScan x) h.rest

theorem State.Jams.withScan (h : State.Jams u t) (x : Scan) : State.Jams (u.withScan x) (t.withScan x) where
  holds hl := ⟨(h.holds hl).1.withScan x, (h.holds hl).2⟩
  locks hl := by
    obtain ⟨v, moves, record, raises, posted, masks, events, tallies, rest⟩ := h.locks hl
    exact ⟨v.withScan x, moves.withScan x, record, raises, posted, masks, events, tallies, congrArg (State.withScan x) rest⟩

end

/-! ### Comparator 3 at the governor (R80, R81, R150) -/

section
variable {k : Channel} {s : State}

/-- A post of 0 to a channel that is cut leaves it with output 0 (R169). -/
theorem State.postSetpoint_cut (hc : s.output.cutFlag k = true) :
    (s.postSetpoint k 0).output.channels[k].setpoint = 0 ∧ (s.postSetpoint k 0).output.commanded k = 0 := by
  have own := (State.changeChannel_spec k (fun c => { c with setpoint := 0 }) s).1
  have e : (s.postSetpoint k 0).output.channels[k] = _ := own
  have commanded : (s.postSetpoint k 0).output.commanded k = (s.postSetpoint k 0).output.channels[k].commandedOn k := rfl
  rw [commanded, e]
  refine ⟨rfl, ChannelRec.reform_commanded_zero ?_⟩
  rw [hc]
  unfold ChannelRec.stateWith
  by_cases hf : s.output.channels[k].fault = .none
  · rw [if_neg (not_not.2 hf)]
    rfl
  · rw [if_pos hf]
    rfl

/-- A detection of comparator 3 with its cut (R80, R150, R169). -/
theorem State.driveCut_spec (s : State) (d : Dir) (hd : s.gov.held.dir?.getD s.gov.stallDir = d) :
    let t := s.setDriveCut.governorDetection true
    t.gov = { s.gov with cutSeen := true, vRef := 0, trim := 0, coil := 0, stallDir := d, stallRaised := true } ∧
    t.output.driveCut = true ∧
    (∀ k : Channel, k.val < 2 → t.output.channels[k].setpoint = 0 ∧ t.output.commanded k = 0) ∧
    (∀ k : Channel, 2 ≤ k.val → t.output.channels[k] = s.output.channels[k]) ∧
    State.Raises .driveStall (Dir.detail d) s t := by
  intro t
  subst hd
  obtain ⟨a, ha⟩ : ∃ a, a = s.modOutput fun o => { o with driveCut := true } := ⟨_, rfl⟩
  obtain ⟨b, hb⟩ : ∃ b, b = a.changeChannel 0 ChannelRec.release := ⟨_, rfl⟩
  obtain ⟨c, hc⟩ : ∃ c, c = b.changeChannel 1 ChannelRec.release := ⟨_, rfl⟩
  obtain ⟨g, hg⟩ : ∃ g, g = c.modGov fun g => { g with
    cutSeen := true, vRef := 0, trim := 0, coil := 0, stallDir := c.gov.held.dir?.getD c.gov.stallDir, stallRaised := true } :=
    ⟨_, rfl⟩
  obtain ⟨p, hp⟩ : ∃ p, p = g.postSetpoint 0 0 := ⟨_, rfl⟩
  obtain ⟨r, hr⟩ : ∃ r, r = p.postSetpoint 1 0 := ⟨_, rfl⟩
  have cGov : c.gov = s.gov := by rw [hc, hb, ha]; rfl
  have gGov : g.gov = { s.gov with
      cutSeen := true, vRef := 0, trim := 0, coil := 0, stallDir := s.gov.held.dir?.getD s.gov.stallDir
      stallRaised := true } := by
    rw [hg, ← cGov]; rfl
  have e : t = r.raiseAlarm .driveStall (Dir.detail (s.gov.held.dir?.getD s.gov.stallDir)) := by
    rw [hr, hp, hg, ← cGov, hc, hb, ha]; rfl
  have raises := State.raiseAlarm_raises .driveStall (Dir.detail (s.gov.held.dir?.getD s.gov.stallDir)) r
  have rest := State.raiseAlarm_rest .driveStall (Dir.detail (s.gov.held.dir?.getD s.gov.stallDir)) r
  rw [← e] at raises rest
  clear_value t
  have output : t.output = r.output := by rw [rest]
  have notices : r.notices = s.notices := by rw [hr, hp, hg, hc, hb, ha]; rfl
  have gov : t.gov = _ := (show t.gov = g.gov by rw [rest, hr, hp]; rfl).trans gGov
  have cut : g.output.driveCut = true := by rw [hg, hc, hb, ha]; rfl
  have pCut : p.output.driveCut = true := by rw [hp]; exact cut
  have rCut : r.output.driveCut = true := by rw [hr]; exact pCut
  have zero := State.postSetpoint_cut (k := 0) (s := g) (by unfold Output.cutFlag; rw [cut]; rfl)
  have one := State.postSetpoint_cut (k := 1) (s := p) (by unfold Output.cutFlag; rw [pCut]; rfl)
  have others := (State.postSetpoint_spec 1 0 p).2.1
  have others' := (State.postSetpoint_spec 0 0 g).2.1
  rw [← hp] at zero others'
  rw [← hr] at one others
  refine ⟨gov, by rw [output]; exact rCut, fun k hk => ?_, fun k hk => ?_, ?_⟩
  · rw [output]
    have low : k = 0 ∨ k = 1 := by
      revert hk; revert k; decide
    rcases low with rfl | rfl
    · have same : r.output.commanded 0 = p.output.commanded 0 := by
        unfold Output.commanded
        rw [others 0 (by decide)]
      rw [same, others 0 (by decide)]
      exact zero
    · exact one
  · have ne : k ≠ 0 ∧ k ≠ 1 := ⟨fun h => by rw [h] at hk; exact absurd hk (by decide), fun h => by
      rw [h] at hk; exact absurd hk (by decide)⟩
    rw [output, others k ne.2, others' k ne.1, hg, hc]
    refine ((State.changeChannel_spec 1 ChannelRec.release b).2.1 k ne.2).trans ?_
    rw [hb]
    exact ((State.changeChannel_spec 0 ChannelRec.release a).2.1 k ne.1).trans (by rw [ha]; rfl)
  · unfold State.Raises at raises ⊢
    rw [notices] at raises
    exact raises

end

/-! ### A comparator after a result (R149) -/

section
variable {i : Fin 4} {v : Int} {s : State}

theorem CompSettings.qualifies_eq (set : CompSettings) (v : Int) : set.qualifies v =
    (let low := decide (v < set.low)
     let high := decide ((set.high : Int) < v)
     match set.mode with | .above => high | .below => low | .outside => low || high) := by
  unfold CompSettings.qualifies
  cases set.mode <;> rfl

theorem State.evaluate_faulty (h : s.scan.fault = true) : s.evaluate i v = s := if_pos h

/-- The state with the record of a comparator changed. -/
def State.judgedAt (i : Fin 4) (c : Comparator) (s : State) : State := s.modScan fun x => { x with comps := x.comps.set i c }

/-- The evaluation of a comparator, by what becomes of its state (R149). -/
theorem State.evaluate_cases (h : s.scan.fault = false) :
    let c := s.scan.comps[i]
    let set := s.settings.comps[i]
    (set.qualifies v = c.detected → s.evaluate i v = s.judgedAt i { c with counter := 0 }) ∧
    (set.qualifies v ≠ c.detected → c.counter + 1 < set.filter →
      s.evaluate i v = s.judgedAt i { c with counter := c.counter + 1 }) ∧
    (set.qualifies v ≠ c.detected → set.filter ≤ c.counter + 1 → c.detected = true →
      s.evaluate i v = (s.judgedAt i { detected := false, counter := 0 }).returnToClear i) ∧
    (set.qualifies v ≠ c.detected → set.filter ≤ c.counter + 1 → c.detected = false →
      s.evaluate i v = (s.judgedAt i { detected := true, counter := 0 }).detection i) := by
  intro c set
  have e : s.evaluate i v =
      if (c.judge set v).detected && !c.detected then (s.judgedAt i (c.judge set v)).detection i
      else if c.detected && !(c.judge set v).detected then (s.judgedAt i (c.judge set v)).returnToClear i
      else s.judgedAt i (c.judge set v) := if_neg (by rw [h]; decide)
  rw [e]
  refine ⟨fun hs => ?_, fun hs hn => ?_, fun hs hn hd => ?_, fun hs hn hd => ?_⟩
  · have judged : c.judge set v = { c with counter := 0 } := if_pos hs
    rw [judged]
    cases hd : c.detected <;> simp
  · have judged : c.judge set v = { c with counter := c.counter + 1 } := (if_neg hs).trans (if_neg (Nat.not_le.2 hn))
    rw [judged]
    cases hd : c.detected <;> simp
  · have judged : c.judge set v = { detected := !c.detected, counter := 0 } := (if_neg hs).trans (if_pos hn)
    rw [judged, hd]
    rfl
  · have judged : c.judge set v = { detected := !c.detected, counter := 0 } := (if_neg hs).trans (if_pos hn)
    rw [judged, hd]
    rfl

end

end Sys2Proof.Machine
end

section
/-! O48: the evaluation of a comparator at the last conversion of its channel (R148 to R151). -/

namespace Sys2Proof.Machine

section
variable {ch : Fin 6} {i : Fin 4} {q : Sequence} {s t u v : State}

/-- The comparators' inputs (R148, R151). -/
theorem comparatorOf_eq {input3 held : DriveDir} (law : held = input3)
    (h : (ch.val, i.val) ∈ ([(2, 0), (3, 1), (4, 2)] : List (Nat × Nat)) ∨ (ch.val = 0 ∧ i.val = 3 ∧ held = .forward) ∨
      (ch.val = 1 ∧ i.val = 3 ∧ held = .reverse)) : comparatorOf input3 ch = some i := by
  subst law
  unfold comparatorOf
  simp only [List.mem_cons, Prod.mk.injEq, List.not_mem_nil, or_false] at h
  rcases h with (⟨hc, hi⟩ | ⟨hc, hi⟩ | ⟨hc, hi⟩) | ⟨hc, hi, hd⟩ | ⟨hc, hi, hd⟩
  · simp only [hc]; exact congrArg some (Fin.ext hi.symm)
  · simp only [hc]; exact congrArg some (Fin.ext hi.symm)
  · simp only [hc]; exact congrArg some (Fin.ext hi.symm)
  · simp only [hc, hd, if_true]; exact congrArg some (Fin.ext hi.symm)
  · simp only [hc, hd, if_true]; exact congrArg some (Fin.ext hi.symm)

theorem State.compared_eq (hc : comparatorOf s.scan.input3 ch = some i) :
    s.compared ch q = (s.formResult (ch.castLE (by decide)) q).evaluate i
      (s.formedResult (ch.castLE (by decide)) q).value := by
  have input : (s.formResult (ch.castLE (by decide)) q).scan.input3 = s.scan.input3 := rfl
  have value : (s.formResult (ch.castLE (by decide)) q).scan.results[(ch.castLE (by decide) : Fin 9)] = _ :=
    (results_set (ch.castLE (by decide)) (s.formedResult (ch.castLE (by decide)) q) s.scan.results).1
  unfold State.compared
  dsimp only
  rw [input]
  simp only [hc]
  rw [value]

/-- The state before the owner's act: the Scan Unit alone has moved. -/
theorem State.judgedAt_formed (i : Fin 4) (c : Comparator) (k : Fin 9) (q : Sequence) (s : State) :
    (s.formResult k q).judgedAt i c = s.withScan ((s.formResult k q).judgedAt i c).scan := rfl

/-- The comparators after a judgement, in the state that the group goes on to. -/
theorem judged_comps {c : Comparator} {x y : Scan} (h : y.comps = x.comps.set i c) :
    y.comps[i] = c ∧ ∀ k : Fin 4, k ≠ i → y.comps[k] = x.comps[k] := by
  rw [h]
  exact ⟨by simp, fun k hk => set_other hk c x.comps⟩

/-- What follows an owner's act moves the Scan Unit alone. -/
theorem State.FastCompletes.alone (h : State.FastCompletes ch q s v t) : t = v.withScan t.scan := State.eq_of_scan h.passes.rest

theorem State.FastCompletes.comps (h : State.FastCompletes ch q s v t) : t.scan.comps = v.scan.comps := by
  rw [h.passes.rest]

theorem State.FastCompletes.value (h : State.FastCompletes ch q s v t) :
    t.scan.results[(ch.castLE (by decide) : Fin 9)] = s.formedResult (ch.castLE (by decide)) q := by
  have same : t.scan.results = v.scan.results := by rw [h.passes.rest]
  have results := congrArg Scan.results h.compares.scan
  rw [same, results]
  exact (results_set _ _ _).1

/-! ### The owners' acts, over the Scan Unit's own (R78, R80, R101, R150) -/

/-- A detection of a side arm's comparator (R101, R103). -/
theorem State.sideDetection_cases (a : SideArm) (s : State) :
    ((s.arm a.arm).state = .working ∨ (s.arm a.arm).state = .yielding → s.sideDetection a = s.strike a) ∧
    ((s.arm a.arm).state ≠ .working → (s.arm a.arm).state ≠ .yielding → s.sideDetection a = s) := by
  unfold State.sideDetection
  cases hs : (s.arm a.arm).state <;> simp

theorem State.detection_side {a : SideArm} (h : i = a.arm.comparator) (s : State) : s.detection i = s.sideDetection a := by
  subst h
  cases a <;> rfl

theorem State.detection_drive (s : State) : s.detection 3 =
    if s.settings.comps[(3 : Fin 4)].cut then s.setDriveCut.governorDetection true else s.governorDetection false := rfl

theorem State.detection_broom (s : State) : s.detection 2 =
    if s.settings.comps[(2 : Fin 4)].cut then s.setBroomCut.broomDetection true else s.broomDetection false := rfl

/-- A detection of comparator 2 (R105, R106, R150), over any record of the Scan Unit. -/
theorem State.detection_broom_spec (x : Scan) (s : State) :
    ∃ w : State, State.TakesBroomCut s.settings.comps[(2 : Fin 4)].cut (s.withScan x) w ∧
      (let t := (s.detection 2).withScan x
       let r := w.arms.main
       (r.state = .working → State.Jams w t) ∧
       (r.state = .jammed → w.arms.lock = false → t = { w with arms := { w.arms with
         holdDone := false, main := { r with timer := some (later s.now s.settings.arms.jamHold) } } }) ∧
       (r.state = .jammed → w.arms.lock = true → t = w) ∧
       (r.state ≠ .working → r.state ≠ .jammed → t = w)) := by
  obtain ⟨w, cut, e⟩ := State.broomDetection_spec s.settings.comps[(2 : Fin 4)].cut s
  have act := (State.detection_broom s).trans e
  have now : w.now = s.now := by unfold State.now; rw [cut.rest]
  have settings : w.settings = s.settings := by rw [cut.rest]
  refine ⟨w.withScan x, ⟨fun h => by rw [cut.stands h], cut.seen, cut.latched, cut.channel, cut.carrier, cut.off, cut.others,
    congrArg (State.withScan x) cut.rest⟩, ?_⟩
  intro t r
  have ht : t = (s.detection 2).withScan x := rfl
  clear_value t
  rw [act] at ht
  refine ⟨fun hr => ?_, fun hr hl => ?_, fun hr hl => ?_, fun h1 h2 => ?_⟩
  · have hr : w.arms.main.state = .working := hr
    simp only [hr] at ht
    rw [ht]
    exact (State.jam_spec w).withScan x
  · have hr' : w.arms.main.state = .jammed := hr
    have hl' : w.arms.lock = false := hl
    rw [← now, ← settings]
    split at ht
    · next hs => rw [hr'] at hs; cases hs
    · rw [if_neg (by rw [hl']; decide)] at ht
      exact ht
    all_goals next hs => rw [hr'] at hs; cases hs
  · have hr' : w.arms.main.state = .jammed := hr
    have hl' : w.arms.lock = true := hl
    simp only [hr', hl', if_true] at ht
    exact ht
  · have h1' : w.arms.main.state ≠ .working := h1
    have h2' : w.arms.main.state ≠ .jammed := h2
    cases hs : w.arms.main.state with
    | working => exact absurd hs h1'
    | jammed => exact absurd hs h2'
    | stowed | lowering | yielding | raising | fault => simp only [hs] at ht; exact ht

end

end Sys2Proof.Machine
end

section
/-! O48, from the owners' acts. -/

namespace Sys2Proof.Machine

section
variable {ch : Fin 6} {i : Fin 4} {q : Sequence} {u t w y : State}

theorem State.withScan_settings (x : Scan) (s : State) : (s.withScan x).settings = s.settings := rfl

theorem State.withScan_now (x : Scan) (s : State) : (s.withScan x).now = s.now := rfl

/-- The return to CLEAR of comparator 3, over any record of the Scan Unit (R149). -/
theorem State.clears_spec (hw : w = y.governorClear) (ht : t = w.withScan t.scan) (hy : y = u.withScan y.scan) :
    t.gov = { u.gov with stallHold := false, stallTimer := none, stallRaised := false } ∧
    (u.gov.stallRaised = false → t.notices = u.notices) ∧
    (u.gov.stallRaised = true → State.GoesAbsent .driveStall (Dir.detail u.gov.stallDir) u t) ∧
    t = { u with scan := t.scan, gov := t.gov, notices := t.notices } := by
  obtain ⟨gov, goes, quiet, -, -, rest⟩ := State.governorClear_spec y
  rw [← hw] at gov goes quiet rest
  have yGov : y.gov = u.gov := by rw [hy]; rfl
  have yNotices : y.notices = u.notices := by rw [hy]; rfl
  have tGov : t.gov = w.gov := by rw [ht]; rfl
  have tNotices : t.notices = w.notices := by rw [ht]; rfl
  unfold State.GoesAbsent State.told at goes ⊢
  rw [yGov, yNotices] at goes
  rw [yGov] at gov quiet
  rw [tGov, tNotices]
  refine ⟨gov, fun h => (quiet h).trans yNotices, goes, ?_⟩
  have whole := ht
  rw [rest, hy] at whole
  exact whole

/-- A detection of comparator 3 (R80, R150), over any record of the Scan Unit. -/
theorem State.stalls_spec {d : Dir} (hw : w = y.detection 3) (ht : t = w.withScan t.scan) (hy : y = u.withScan y.scan)
    (hd : u.gov.held.dir?.getD u.gov.stallDir = d) :
    (u.settings.comps[(3 : Fin 4)].cut = true →
      t.gov = { u.gov with cutSeen := true, vRef := 0, trim := 0, coil := 0, stallDir := d, stallRaised := true } ∧
      t.output.driveCut = true ∧
      (∀ k : Channel, k.val < 2 → t.output.channels[k].setpoint = 0 ∧ t.output.commanded k = 0) ∧
      (∀ k : Channel, 2 ≤ k.val → t.output.channels[k] = u.output.channels[k]) ∧
      State.Raises .driveStall (Dir.detail d) u t) ∧
    (u.settings.comps[(3 : Fin 4)].cut = false →
      t.gov = { u.gov with stallHold := true, stallTimer := some (later u.now 3000), stallDir := d, stallRaised := false } ∧
      t = { u with scan := t.scan, gov := t.gov }) := by
  have yGov : y.gov = u.gov := by rw [hy]; rfl
  have yNotices : y.notices = u.notices := by rw [hy]; rfl
  have yOutput : y.output = u.output := by rw [hy]; rfl
  have ySettings : y.settings = u.settings := by rw [hy]; rfl
  have yNow : y.now = u.now := by rw [hy]; rfl
  rw [State.detection_drive, ySettings] at hw
  refine ⟨fun hc => ?_, fun hc => ?_⟩
  · rw [if_pos hc] at hw
    obtain ⟨gov, cut, zero, others, raises⟩ := State.driveCut_spec y d (by rw [yGov]; exact hd)
    rw [← hw] at gov cut zero others raises
    have tGov : t.gov = w.gov := by rw [ht]; rfl
    have tOutput : t.output = w.output := by rw [ht]; rfl
    have tNotices : t.notices = w.notices := by rw [ht]; rfl
    have tNow : t.now = w.now := by rw [ht]; rfl
    unfold State.Raises State.told at raises ⊢
    rw [yNotices] at raises
    rw [tGov, tOutput, tNotices, tNow]
    exact ⟨by rw [gov, yGov], cut, zero, fun k hk => by rw [others k hk, yOutput], raises⟩
  · rw [if_neg (by rw [hc]; decide)] at hw
    have gov : w.gov = { u.gov with
        stallHold := true, stallTimer := some (later u.now 3000), stallDir := d, stallRaised := false } := by
      rw [hw, ← hd, ← yNow, ← yGov]; rfl
    have tGov : t.gov = w.gov := by rw [ht]; rfl
    refine ⟨tGov.trans gov, ?_⟩
    rw [tGov]
    have whole := ht
    rw [hw, hy] at whole
    rw [hw, hy]
    exact whole

/-- The channel and the comparator of the held direction (R151). -/
theorem held_of_input3 {held : DriveDir} (hi : i = 3)
    (h : (ch.val, i.val) ∈ ([(2, 0), (3, 1), (4, 2)] : List (Nat × Nat)) ∨ (ch.val = 0 ∧ i.val = 3 ∧ held = .forward) ∨
      (ch.val = 1 ∧ i.val = 3 ∧ held = .reverse)) (d : Dir) :
    held.dir?.getD d = if held = .forward then .forward else .reverse := by
  subst hi
  rcases h with h | ⟨-, -, rfl⟩ | ⟨-, -, rfl⟩
  · simp at h
  · rfl
  · rfl

end

/-- Settles O48: the judgement is `State.evaluate_cases`, each owner's act a lemma over any record of the Scan Unit. -/
theorem comparatorsDetect : Obligations.ComparatorsDetect := by
  unfold Obligations.ComparatorsDetect
  intro after code s q e ch i hq he hd hn hf law hc
  have run := execConversionEnd_done (code := code) he hd
  rw [State.addCode_fast (s := s.elapse after) hq hn hf] at run
  have done := State.completeFast_spec ch (q.adding code.toNat) (s.elapse after)
  have compared := State.compared_eq (q := q.adding code.toNat) (s := s.elapse after) (comparatorOf_eq law hc)
  refine ⟨_, run, ?_⟩
  generalize (s.elapse after).completeFast ch (q.adding code.toNat) = t at *
  generalize (s.elapse after).compared ch (q.adding code.toNat) = w at *
  obtain ⟨r, hr⟩ : ∃ r, r = ((s.elapse after).formedResult (ch.castLE (by decide)) (q.adding code.toNat)).value := ⟨_, rfl⟩
  have value : t.scan.results[(ch.castLE (by decide) : Fin 9)].value = r := by
    rw [hr]; exact congrArg Result.value done.value
  obtain ⟨f, hf⟩ : ∃ f, f = (s.elapse after).formResult (ch.castLE (by decide)) (q.adding code.toNat) := ⟨_, rfl⟩
  rw [← hr, ← hf] at compared
  have formed : f = (s.elapse after).withScan f.scan := by rw [hf]; rfl
  have fComps : f.scan.comps = s.scan.comps := by rw [hf]; rfl
  have fFault : f.scan.fault = s.scan.fault := by rw [hf]; rfl
  have fSettings : f.settings = s.settings := by rw [hf]; rfl
  have alone : t = w.withScan t.scan := done.alone
  have only : ∀ x : Scan, w = (s.elapse after).withScan x → t = (s.elapse after).withScan t.scan := fun x hx => by
    rw [hx] at alone; exact alone
  have comps := done.comps
  have faulty := State.evaluate_faulty (i := i) (v := r) (s := f)
  have scan := (State.evaluate_scan i r f).2
  have judged := State.evaluate_cases (i := i) (v := r) (s := f)
  rw [← compared] at faulty scan
  dsimp only at judged
  rw [← compared, fComps, fSettings, fFault] at judged
  rw [fFault] at faulty
  rw [fComps, ← comps] at scan
  have side := CompSettings.qualifies_eq s.settings.comps[i] r
  rw [← value] at side
  refine ⟨scan, fun hx => ?_, fun hx => ?_⟩
  · have same := faulty hx
    exact ⟨by rw [comps, same, fComps], only f.scan (same.trans formed)⟩
  · obtain ⟨stays, counts, clears, detects⟩ := judged hx
    have at_ : ∀ c : Comparator, f.judgedAt i c = (s.elapse after).withScan (f.judgedAt i c).scan := fun c => by
      rw [formed]; rfl
    have record : ∀ c : Comparator, w.scan = (f.judgedAt i c).scan → t.scan.comps[i] = c := fun c hw => by
      refine (judged_comps (x := s.scan) ?_).1
      rw [comps, hw, ← fComps]
      rfl
    rw [← value, side] at stays counts clears detects
    refine ⟨fun h => ?_, fun h h' => ?_, fun h h' => ?_⟩
    · have e := stays h
      exact ⟨record _ (by rw [e]), only _ (e.trans (at_ _))⟩
    · have e := counts h h'
      exact ⟨record _ (by rw [e]), only _ (e.trans (at_ _))⟩
    · have cleared := fun hd' => clears h h' hd'
      have detected := fun hd' => detects h h' hd'
      clear clears detects stays counts judged
      refine ⟨?_, fun hd' hi => ?_, fun hd' hi => ?_, fun hd' => ⟨fun a ha => ⟨fun ho => ?_, fun h1 h2 => ?_⟩, fun hi => ?_,
        fun hi => ?_⟩⟩
      · cases hs : s.scan.comps[i].detected with
        | true => exact record _ (by rw [cleared hs]; simp)
        | false => exact record _ (by rw [detected hs]; simp)
      · have e := (cleared hd').trans (if_neg hi)
        exact only _ (e.trans (at_ _))
      · exact State.clears_spec ((cleared hd').trans (if_pos hi)) alone (at_ _)
      · have act := ((detected hd').trans (State.detection_side ha _)).trans ((State.sideDetection_cases a _).1 (by
          rw [at_]; exact ho))
        have strikes := (State.strike_spec a (f.judgedAt i { detected := true, counter := 0 })).withScan t.scan
        rw [← act, ← alone, at_] at strikes
        exact strikes
      · have act := ((detected hd').trans (State.detection_side ha _)).trans ((State.sideDetection_cases a _).2 (by
          rw [at_]; exact h1) (by rw [at_]; exact h2))
        exact only _ (act.trans (at_ _))
      · subst hi
        have act := detected hd'
        have same := at_ { detected := true, counter := 0 }
        have settings := congrArg State.settings same
        have now := congrArg State.now same
        rw [State.withScan_now] at now
        rw [State.withScan_settings, (State.elapse_frame after s).2.2.2.2.2.2.2.2.2.2.2.1] at settings
        generalize f.judgedAt 2 { detected := true, counter := 0 } = y at *
        obtain ⟨v, cut, acts⟩ := State.detection_broom_spec t.scan y
        have base : y.withScan t.scan = (s.elapse after).withScan t.scan := by rw [same]; rfl
        rw [settings, base] at cut
        dsimp only at acts
        rw [← act, ← alone, settings, now] at acts
        exact ⟨v, cut, acts⟩
      · subst hi
        obtain ⟨cuts, holds⟩ := State.stalls_spec (u := s.elapse after) (detected hd') alone (at_ _) (held_of_input3 rfl hc _)
        exact ⟨cuts, holds⟩

end Sys2Proof.Machine
end

section
/-! The converter fault (R154, R155): its causes and its end, beside what the end of a pass leaves. -/

namespace Sys2Proof.Machine

/-- What the end of a slow pass leaves from `s` to `t`, but for the posts to the entries of `posted` (R147). -/
structure State.PassBeside (posted : List Source) (s t : State) : Prop where
  events : ∀ (l : Link) (k : EventKind), k ∉ [EventKind.alarmRaised, .alarmGone, .ceilingBinding, .tankState] →
    (t.notices.events l).sameKind (s.notices.events l) k
  masks : ∀ l : Link, (t.notices.events l).mask = (s.notices.events l).mask
  told : ∀ k : EventKind, k ≠ .ceilingBinding → s.told k → t.told k
  tallies : ∀ i : Tally, i ≠ .urgentStops → i ≠ .overflows → t.bank.tallies[i.index] = s.bank.tallies[i.index]
  entries : ∀ src : Source, src ∉ posted → t.ceiling.sameEntry s.ceiling src
  channels : ∀ ch : Channel, ch.val < 14 → t.output.channels[ch] = s.output.channels[ch]
  rest : t = { s with
    scan := t.scan, spray := t.spray, ceiling := t.ceiling, notices := t.notices, output := t.output
    bank := { s.bank with tallies := t.bank.tallies } }

section
variable {posted more : List Source} {src : Source} {code : AlarmCode} {detail : Nat} {s t u : State}

theorem CeilingTable.sameEntry_refl (c : CeilingTable) (src : Source) : c.sameEntry c src := ⟨rfl, rfl, rfl⟩

theorem State.passBeside_refl (s : State) : State.PassBeside posted s s :=
  ⟨fun _ _ _ => EventSet.sameKind_refl _ _, fun _ => rfl, fun _ _ => id, fun _ _ _ => rfl,
    fun src _ => CeilingTable.sameEntry_refl _ src, fun _ _ => rfl, rfl⟩

theorem State.PassBeside.trans (h : State.PassBeside posted s t) (k : State.PassBeside more t u) :
    State.PassBeside (posted ++ more) s u where
  events l x hx := EventSet.sameKind_trans (h.events l x hx) (k.events l x hx)
  masks l := (k.masks l).trans (h.masks l)
  told x hx ht := k.told x hx (h.told x hx ht)
  tallies i h1 h2 := (k.tallies i h1 h2).trans (h.tallies i h1 h2)
  entries a ha := by
    rw [List.mem_append, not_or] at ha
    obtain ⟨e1, e2, e3⟩ := h.entries a ha.1
    obtain ⟨e1', e2', e3'⟩ := k.entries a ha.2
    exact ⟨e1'.trans e1, e2'.trans e2, e3'.trans e3⟩
  channels ch hc := (k.channels ch hc).trans (h.channels ch hc)
  rest := by
    have first := h.rest
    have second := k.rest
    rw [first] at second
    exact second

theorem State.PassBeside.mono (h : State.PassBeside posted s t) (hs : posted ⊆ more) : State.PassBeside more s t :=
  { h with entries := fun src hn => h.entries src fun hm => hn (hs hm) }

theorem State.PassBeside.now (h : State.PassBeside posted s t) : t.now = s.now := by
  unfold State.now; rw [h.rest]

theorem State.PassBeside.settings (h : State.PassBeside posted s t) : t.settings = s.settings := by rw [h.rest]

theorem State.passBeside_scan (f : Scan → Scan) (s : State) : State.PassBeside posted s (s.modScan f) :=
  ⟨fun _ _ _ => EventSet.sameKind_refl _ _, fun _ => rfl, fun _ _ => id, fun _ _ _ => rfl,
    fun src _ => CeilingTable.sameEntry_refl _ src, fun _ _ => rfl, rfl⟩

/-- A post to one entry of the Ceiling Table. -/
theorem State.passBeside_entry (src : Source) (f : CeilingEntry → CeilingEntry) (s : State) :
    State.PassBeside [src] s (s.changeCeiling (CeilingTable.modEntry src f)) := by
  obtain ⟨-, events, tallies, rest⟩ := State.changeCeiling_beside (CeilingTable.modEntry src f) s
  have others := fun a (ha : a ≠ src) => State.changeEntry_other ha f s
  generalize s.changeCeiling (CeilingTable.modEntry src f) = t at *
  refine ⟨fun l k hk => (events l).2 k fun e => hk (by simp [e]), fun l => (events l).1,
    fun k hk => State.told_of_sameKind fun l => (events l).2 k hk, fun i h1 _ => tallies i h1,
    fun a ha => others a (by simpa using ha), fun ch _ => by rw [rest], ?_⟩
  rw [rest]

theorem State.activate_passBeside (src : Source) (cap : Nat) (s : State) : State.PassBeside [src] s (s.activate src cap) :=
  State.passBeside_entry src _ s

theorem State.deactivate_passBeside (src : Source) (s : State) : State.PassBeside [src] s (s.deactivate src) :=
  State.passBeside_entry src _ s

theorem State.updateCap_passBeside (src : Source) (cap : Nat) (s : State) : State.PassBeside [src] s (s.updateCap src cap) :=
  State.passBeside_entry src _ s

theorem State.raiseAlarm_passBeside (code : AlarmCode) (detail : Nat) (s : State) :
    State.PassBeside [] s (s.raiseAlarm code detail) := by
  have post := fun l => EventSet.post_spec .alarmRaised (s.notices.events l)
  have events := fun l => State.raiseAlarm_events code detail s l
  have tallies := State.raiseAlarm_tallies code detail s
  have told := fun k (h : s.told k) => State.raiseAlarm_told code detail h
  have rest := State.raiseAlarm_rest code detail s
  have bank : (s.raiseAlarm code detail).bank = { s.bank with tallies := (s.raiseAlarm code detail).bank.tallies } := by
    unfold State.raiseAlarm
    split <;> rfl
  generalize s.raiseAlarm code detail = t at *
  refine ⟨fun l k hk => ?_, fun l => ?_, fun k _ => told k, fun i _ h => tallies i h, fun a _ => ?_, fun ch _ => by rw [rest], ?_⟩
  · rw [events]; exact (post l).2.2.2 k fun e => hk (by simp [e])
  · rw [events]; exact (post l).2.2.1
  · rw [rest]; exact CeilingTable.sameEntry_refl _ a
  · rw [bank] at rest
    rw [rest]

theorem State.alarmGone_passBeside (code : AlarmCode) (detail : Nat) (s : State) :
    State.PassBeside [] s (s.alarmGone code detail) := by
  obtain ⟨events, masks, -⟩ := State.alarmGone_events code detail s
  have rest := State.alarmGone_rest code detail s
  have told := fun k (h : s.told k) => State.alarmGone_told code detail h
  generalize s.alarmGone code detail = t at *
  refine ⟨fun l k hk => events l k fun e => hk (by simp [e]), masks, fun k _ => told k, fun i _ _ => by rw [rest], fun a _ => ?_,
    fun ch _ => by rw [rest], ?_⟩
  · rw [rest]; exact CeilingTable.sameEntry_refl _ a
  · rw [rest]

end

end Sys2Proof.Machine
end

section
/-! The cause of a converter fault (R154) and its end (R155). -/

namespace Sys2Proof.Machine

section
variable {d : Fin 4} {s t u : State}

/-- A cause of converter fault is taken, from `s` to `t` (R154). -/
structure State.CauseTaken (d : Fin 4) (s t : State) : Prop where
  stands : s.scan.fault = true → s.scan.causes[d] = true → t = s
  adds : s.scan.fault = true → s.scan.causes[d] = false →
    t.scan = { s.scan with causes := s.scan.causes.set d true } ∧ t.ceiling = s.ceiling ∧ State.Raises .converterFault d.val s t ∧
    t = { s with scan := t.scan, notices := t.notices, bank := t.bank }
  begins : s.scan.fault = false → State.FaultBegins d.val s t
  scan : t.scan = { s.scan with
    results := t.scan.results, passRun := t.scan.passRun, fault := true, causes := t.scan.causes, comps := t.scan.comps }
  spray : t.spray = s.spray
  output : t.output = s.output
  beside : State.PassBeside [.sensorFault] s t

theorem causes_begun (d : Fin 4) (k : Fin 4) :
    ((Vector.replicate 4 false).set d true)[k] = decide (k.val = d.val) := by
  revert d k
  decide

theorem State.faultCause_spec (d : Fin 4) (s : State) : State.CauseTaken d s (s.faultCause d) := by
  cases hf : s.scan.fault with
  | true =>
    cases hc : s.scan.causes[d] with
    | true =>
      have e : s.faultCause d = s := (if_pos hf).trans (if_pos hc)
      rw [e]
      exact ⟨fun _ _ => rfl, (fun _ h => by rw [hc] at h; cases h), (fun h => by rw [hf] at h; cases h), by rw [← hf], rfl, rfl,
        State.passBeside_refl s⟩
    | false =>
      obtain ⟨y, hy⟩ : ∃ y, y = s.modScan fun x => { x with causes := x.causes.set d true } := ⟨_, rfl⟩
      have e : s.faultCause d = y.raiseAlarm .converterFault d.val := by
        rw [hy]; exact (if_pos hf).trans (if_neg (by rw [hc]; decide))
      have raises := State.raiseAlarm_raises .converterFault d.val y
      have rest := State.raiseAlarm_rest .converterFault d.val y
      have beside := (State.passBeside_scan (posted := []) (fun x => { x with causes := x.causes.set d true }) s).trans
        (hy ▸ State.raiseAlarm_passBeside .converterFault d.val y)
      rw [e]
      rw [← hy] at beside
      generalize y.raiseAlarm .converterFault d.val = t at *
      have scan : t.scan = { s.scan with causes := s.scan.causes.set d true } := by rw [rest, hy]; rfl
      refine ⟨(fun _ h => by rw [hc] at h; cases h), fun _ _ => ⟨scan, by rw [rest, hy]; rfl, ?_, ?_⟩,
        (fun h => by rw [hf] at h; cases h), ?_, by rw [rest, hy]; rfl, by rw [rest, hy]; rfl, beside.mono (by simp)⟩
      · rw [hy] at raises; exact raises
      · rw [hy] at rest; exact rest.trans (by rw [scan]; rfl)
      · rw [scan, ← hf]
  | false =>
    obtain ⟨y, hy⟩ : ∃ y, y = s.modScan fun x =>
      ({ x with fault := true, passRun := 0, causes := (Vector.replicate 4 false).set d true }.markStale
        true).resetCounters := ⟨_, rfl⟩
    obtain ⟨z, hz⟩ : ∃ z, z = y.activate .sensorFault y.settings.caps.sensorCap := ⟨_, rfl⟩
    have e : s.faultCause d = z.raiseAlarm .converterFault d.val := by
      rw [hz, hy]; exact if_neg (by rw [hf]; decide)
    obtain ⟨active, cap, -, settles⟩ := State.activate_spec .sensorFault y.settings.caps.sensorCap y
    have posted := State.activate_passBeside .sensorFault y.settings.caps.sensorCap y
    have zScan : z.scan = y.scan := by rw [hz]; simp
    have zSpray : z.spray = y.spray := by rw [hz]; simp
    have zOutput : z.output = y.output := by rw [hz]; simp
    rw [← hz] at active cap settles posted
    have raises := State.raiseAlarm_raises .converterFault d.val z
    have raised := State.raiseAlarm_passBeside .converterFault d.val z
    have rest := State.raiseAlarm_rest .converterFault d.val z
    have marked : State.PassBeside [] s y := by rw [hy]; exact State.passBeside_scan _ s
    rw [e]
    generalize z.raiseAlarm .converterFault d.val = t at *
    have scan : t.scan = y.scan := by rw [rest]; exact zScan
    have ceiling : t.ceiling = z.ceiling := by rw [rest]
    have alarms : z.notices.alarms = s.notices.alarms := by rw [settles.alarms, hy]; rfl
    refine ⟨(fun h => by rw [hf] at h; cases h), (fun h => by rw [hf] at h; cases h), fun _ => ⟨?_, ?_, fun i => ?_, fun c => ?_,
      fun k => ?_, ?_, ?_, ?_⟩, ?_, by rw [rest]; exact zSpray.trans (by rw [hy]; rfl),
      by rw [rest]; exact zOutput.trans (by rw [hy]; rfl), ((marked.trans posted).trans raised).mono (by simp)⟩
    · rw [scan, hy]; rfl
    · rw [scan, hy]; rfl
    · rw [scan, hy]; simp [State.modScan, Scan.markStale, Scan.resetCounters]
    · rw [scan, hy]; simp [State.modScan, Scan.markStale, Scan.resetCounters]
    · rw [scan, hy]; exact causes_begun d k
    · rw [ceiling]; exact active
    · rw [ceiling, cap, hy]; rfl
    · unfold State.Raises at raises ⊢
      rw [alarms] at raises
      exact raises
    · rw [scan, hy]; rfl

/-! ### The end of a converter fault (R155) -/

/-- The alarms after the conditions of some causes have gone absent. -/
def goneCauses (causes : Vector Bool 4) (list : List Alarm) : List Alarm := list.map fun a =>
  if a.code = .converterFault ∧ ∃ d : Fin 4, causes[d] = true ∧ a.detail = d.val then { a with present := false } else a

/-- A converter fault has ended, from `s` to `t`. -/
structure State.FaultEnded (s t : State) : Prop where
  scan : t.scan = { s.scan with fault := false, results := t.scan.results, comps := t.scan.comps, causes := t.scan.causes }
  results : ∀ k : Fin 9, t.scan.results[k] = { s.scan.results[k] with stale := false }
  comps : ∀ k : Fin 4, t.scan.comps[k] = { s.scan.comps[k] with counter := 0 } ∧ t.scan.causes[k] = false
  inactive : (t.ceiling.entry .sensorFault).active = false
  alarms : t.notices.alarms = goneCauses s.scan.causes s.notices.alarms
  told : (∃ d : Fin 4, s.scan.causes[d] = true ∧ ∃ a ∈ s.notices.alarms, a.code = .converterFault ∧ a.detail = d.val ∧
    a.present = true) → t.told .alarmGone
  spray : t.spray = s.spray
  output : t.output = s.output
  beside : State.PassBeside [.sensorFault] s t

/-- The report of one cause's absence, where it was raised. -/
def State.causeGone (causes : Vector Bool 4) (s : State) (d : Fin 4) : State :=
  if causes[d] then s.alarmGone .converterFault d.val else s

/-- The absence of one alarm in a list. -/
def goneCause (d : Fin 4) (list : List Alarm) : List Alarm := list.map fun a =>
  if a.code = .converterFault ∧ a.detail = d.val then { a with present := false } else a

theorem State.causeGone_spec (causes : Vector Bool 4) (s : State) (d : Fin 4) :
    let t := s.causeGone causes d
    t.notices.alarms = (if causes[d] = true then goneCause d s.notices.alarms else s.notices.alarms) ∧
    (causes[d] = true → (∃ a ∈ s.notices.alarms, a.code = .converterFault ∧ a.detail = d.val ∧ a.present = true) →
      t.told .alarmGone) ∧
    State.PassBeside [] s t ∧ t = { s with notices := t.notices } := by
  unfold State.causeGone
  cases hc : causes[d] with
  | true =>
    obtain ⟨alarms, told⟩ := State.alarmGone_goes .converterFault d.val s
    exact ⟨alarms, fun _ => told, State.alarmGone_passBeside _ _ s, State.alarmGone_rest _ _ s⟩
  | false => exact ⟨rfl, (fun h => by cases h), State.passBeside_refl s, rfl⟩

end

end Sys2Proof.Machine
end

section
/-! The end of a converter fault as a whole (R155), and the judgement of a reference (R153). -/

namespace Sys2Proof.Machine

section
variable {d : Fin 4} {s t u : State}

/-- The alarms after the conditions of the causes in a list have gone absent. -/
def goneOf (list : List (Fin 4)) (causes : Vector Bool 4) (alarms : List Alarm) : List Alarm := alarms.map fun a =>
  if a.code = .converterFault ∧ ∃ d ∈ list, causes[d] = true ∧ a.detail = d.val then { a with present := false } else a

theorem goneOf_cons {causes : Vector Bool 4} {list : List (Fin 4)} {alarms : List Alarm} :
    goneOf list causes (if causes[d] = true then goneCause d alarms else alarms) = goneOf (d :: list) causes alarms := by
  unfold goneOf goneCause
  by_cases hc : causes[d] = true
  · rw [if_pos hc, List.map_map]
    refine List.map_congr_left fun a _ => ?_
    simp only [Function.comp]
    by_cases hk : a.code = .converterFault ∧ a.detail = d.val
    · rw [if_pos (c := a.code = .converterFault ∧ ∃ k ∈ d :: list, causes[k] = true ∧ a.detail = k.val)
        ⟨hk.1, d, List.mem_cons_self, hc, hk.2⟩]
      simp only [if_pos hk]
      exact ite_self _
    · simp only [if_neg hk]
      refine if_congr (and_congr_right fun hcode => ?_) rfl rfl
      have other : a.detail ≠ d.val := fun h => hk ⟨hcode, h⟩
      constructor
      · rintro ⟨k, hm, h⟩; exact ⟨k, List.mem_cons_of_mem _ hm, h⟩
      · rintro ⟨k, hm, h, he⟩
        rcases List.mem_cons.1 hm with rfl | hm
        · exact absurd he other
        · exact ⟨k, hm, h, he⟩
  · rw [if_neg hc]
    refine List.map_congr_left fun a _ => if_congr (and_congr_right fun _ => ?_) rfl rfl
    constructor
    · rintro ⟨k, hm, h⟩; exact ⟨k, List.mem_cons_of_mem _ hm, h⟩
    · rintro ⟨k, hm, h, he⟩
      rcases List.mem_cons.1 hm with rfl | hm
      · exact absurd h hc
      · exact ⟨k, hm, h, he⟩

/-- The reports of absence of the causes of a fault, one after another. -/
theorem State.causesGone_spec (causes : Vector Bool 4) (list : List (Fin 4)) (hn : list.Nodup) (s : State) :
    let t := list.foldl (State.causeGone causes) s
    t.notices.alarms = goneOf list causes s.notices.alarms ∧
    ((∃ d ∈ list, causes[d] = true ∧ ∃ a ∈ s.notices.alarms, a.code = .converterFault ∧ a.detail = d.val ∧
      a.present = true) → t.told .alarmGone) ∧
    State.PassBeside [] s t ∧ t = { s with notices := t.notices } := by
  induction list generalizing s with
  | nil =>
    refine ⟨?_, ?_, State.passBeside_refl s, rfl⟩
    · simp [goneOf]
    · rintro ⟨d, hd, -⟩; cases hd
  | cons d list ih =>
    intro t
    obtain ⟨fresh, hn⟩ := List.nodup_cons.1 hn
    obtain ⟨alarms, told, beside, rest⟩ := State.causeGone_spec causes s d
    obtain ⟨alarms', told', beside', rest'⟩ := ih hn (s.causeGone causes d)
    have e : t = list.foldl (State.causeGone causes) (s.causeGone causes d) := rfl
    rw [← e] at alarms' told' beside' rest'
    clear_value t
    generalize s.causeGone causes d = v at *
    refine ⟨by rw [alarms', alarms, goneOf_cons], ?_, (beside.trans beside').mono (by simp), ?_⟩
    · rintro ⟨k, hk, hc, a, ha, hcode, hdet, hp⟩
      rcases List.mem_cons.1 hk with rfl | hk
      · exact beside'.told _ (by decide) (told hc ⟨a, ha, hcode, hdet, hp⟩)
      · refine told' ⟨k, hk, hc, a, ?_, hcode, hdet, hp⟩
        rw [alarms]
        split
        · refine List.mem_map.2 ⟨a, ha, if_neg fun h => fresh ?_⟩
          have same : d = k := Fin.ext (h.2.symm.trans hdet)
          rw [same]; exact hk
        · exact ha
    · rw [rest] at rest'
      exact rest'

theorem State.endFault_spec (s : State) : State.FaultEnded s s.endFault := by
  obtain ⟨y, hy⟩ : ∃ y, y = s.modScan fun x =>
    ({ x with fault := false, causes := Vector.replicate 4 false }.markStale false).resetCounters := ⟨_, rfl⟩
  obtain ⟨z, hz⟩ : ∃ z, z = ([0, 1, 2, 3] : List (Fin 4)).foldl (State.causeGone s.scan.causes) y := ⟨_, rfl⟩
  have e : s.endFault = z.deactivate .sensorFault := by rw [hz, hy]; rfl
  obtain ⟨alarms, told, beside, rest⟩ := State.causesGone_spec s.scan.causes [0, 1, 2, 3] (by decide) y
  rw [← hz] at alarms told beside rest
  obtain ⟨inactive, -, -, settles⟩ := State.deactivate_spec .sensorFault z
  have posted := State.deactivate_passBeside .sensorFault z
  have tRest := State.deactivate_rest .sensorFault z
  rw [e]
  generalize z.deactivate .sensorFault = t at *
  have marked : State.PassBeside [] s y := by rw [hy]; exact State.passBeside_scan _ s
  have notices : y.notices = s.notices := by rw [hy]; rfl
  have scan : t.scan = y.scan := by rw [tRest, rest]
  have all : ∀ k : Fin 4, k ∈ ([0, 1, 2, 3] : List (Fin 4)) := by decide
  have listed : goneOf [0, 1, 2, 3] s.scan.causes s.notices.alarms = goneCauses s.scan.causes s.notices.alarms := by
    unfold goneOf goneCauses
    refine List.map_congr_left fun a _ => if_congr (and_congr_right fun _ => ?_) rfl rfl
    exact exists_congr fun k => and_iff_right (all k)
  refine ⟨by rw [scan, hy]; rfl, fun k => by rw [scan, hy]; simp [State.modScan, Scan.markStale, Scan.resetCounters],
    fun k => ⟨by rw [scan, hy]; simp [State.modScan, Scan.markStale, Scan.resetCounters], ?_⟩, inactive,
    by rw [settles.alarms, alarms, notices, listed], fun ⟨d, hc, h⟩ => ?_, by rw [tRest, rest, hy]; rfl,
    by rw [tRest, rest, hy]; rfl, ((marked.trans beside).trans posted).mono (by simp)⟩
  · rw [scan, hy]; simp [State.modScan, Scan.markStale, Scan.resetCounters]
  · rw [notices] at told
    exact posted.told _ (by decide) (told ⟨d, all d, hc, h⟩)

end

end Sys2Proof.Machine
end

section
/-! The parts of the end of a slow pass (R135, R153, R156, with R53 and R54). -/

namespace Sys2Proof.Machine

section
variable {r : Reference} {raw : Nat} {s t u : State}

/-! ### The reference (R153) -/

/-- The state with the reference's record and the pass run as its check leaves them. -/
def State.checkedAt (r : Reference) (raw : Nat) (s : State) : State := s.modScan fun x =>
  { x.setRef r ⟨!r.passes raw, raw, s.now⟩ with passRun := if r.passes raw then min 6 (x.passRun + 1) else 0 }

theorem State.judgeReference_passes (h : r.passes raw = true) (hs : s.scan.fault = false ∨ s.scan.passRun < 5) :
    s.judgeReference r raw = s.checkedAt r raw := by
  unfold State.judgeReference State.checkedAt
  rw [if_pos h, h]
  refine if_neg fun hb => ?_
  rw [Bool.and_eq_true, beq_iff_eq] at hb
  rcases hs with hs | hs
  · have fault : s.scan.fault = true := by
      have := hb.1
      cases r <;> exact this
    rw [hs] at fault
    cases fault
  · have := hb.2
    omega

theorem State.judgeReference_ends (h : r.passes raw = true) (hf : s.scan.fault = true) (hp : 5 ≤ s.scan.passRun) :
    s.judgeReference r raw = (s.checkedAt r raw).endFault := by
  unfold State.judgeReference State.checkedAt
  rw [if_pos h, h]
  refine if_pos ?_
  rw [Bool.and_eq_true, beq_iff_eq]
  exact ⟨by cases r <;> exact hf, by omega⟩

theorem State.judgeReference_fails (h : r.passes raw = false) : s.judgeReference r raw =
    if (s.scan.ref r).fail then (s.checkedAt r raw).faultCause r.detail else s.checkedAt r raw := by
  unfold State.judgeReference State.checkedAt
  rw [if_neg (by rw [h]; decide), h]
  rfl

/-- What a check leaves of the Scan Unit, and its reference's record. -/
theorem State.checkedAt_spec (r : Reference) (raw : Nat) (s : State) :
    let y := s.checkedAt r raw
    y.scan.ref r = ⟨!r.passes raw, raw, s.now⟩ ∧
    y.scan = { s.scan with
      low := y.scan.low, mid := y.scan.mid, high := y.scan.high
      passRun := if r.passes raw then min 6 (s.scan.passRun + 1) else 0 } ∧
    y = { s with scan := y.scan } := by
  cases r <;> exact ⟨rfl, rfl, rfl⟩

theorem Reference.passes_iff (r : Reference) (raw : Nat) :
    r.passes raw = true ↔ r.expected ≤ raw + 24 ∧ raw ≤ r.expected + 24 := by
  unfold Reference.passes
  rw [Bool.and_eq_true, decide_eq_true_iff, decide_eq_true_iff]

/-! ### The tank (R135, R136) -/

/-- The conditions of DRY_SWEEP and SPRAY_LIMIT do not depend on the other entries. -/
theorem State.barsJudged_congr (h : s.barsJudged) (unit : t.unit = s.unit) (arms : t.arms = s.arms) (spray : t.spray = s.spray)
    (dry : t.ceiling.sameEntry s.ceiling .drySweep) (limit : t.ceiling.sameEntry s.ceiling .sprayLimit) : t.barsJudged := by
  obtain ⟨bars, drySweep, sprayLimit⟩ := h
  have inForce : t.inForce = s.inForce := by unfold State.inForce; rw [unit]
  have program : t.program = s.program := by unfold State.program; rw [inForce]
  have may : ∀ b, t.barMayBeActive b = s.barMayBeActive b := fun b => by
    unfold State.barMayBeActive; rw [unit, arms, spray, inForce]
  unfold State.barsJudged
  rw [dry.1, limit.1, unit, spray, program]
  exact ⟨fun b => by rw [may, bars b], drySweep, sprayLimit⟩

theorem State.judgeBars_passBeside (s : State) : State.PassBeside [.drySweep, .sprayLimit] s s.judgeBars := by
  have settles := (State.judgeBars_spec s).1
  refine ⟨fun l k hk => settles.events l k (by simp) fun e => hk (by simp [e]), settles.masks,
    fun k hk => State.told_of_sameKind fun l => settles.events l k (by simp) hk, fun i h1 _ => settles.tallies i (by simp) h1,
    fun src hs => settles.entries src (by simp) (fun e => hs (by simp [e])) fun e => hs (by simp [e]), settles.channels, ?_⟩
  have scan : s.judgeBars.scan = s.scan := by rw [settles.rest]
  rw [scan]
  exact settles.rest

/-- A level result is taken, from `s` to `t`. -/
structure State.LevelTaken (r : Result) (s t : State) : Prop where
  stale : r.stale = true → t = s
  level : r.stale = false → t.spray.level = some r.value.toNat
  tank : r.stale = false → t.spray.tank = nextTank s.settings.spray r.value.toNat s.spray.tank
  stands : r.stale = false → t.spray.tank = s.spray.tank → t.spray = { s.spray with level := some r.value.toNat }
  moves : r.stale = false → t.spray.tank ≠ s.spray.tank → t.told .tankState ∧ t.barsJudged
  empties : s.spray.tank ≠ .empty → t.spray.tank = .empty → State.Raises .tankEmpty 0 s t
  fills : s.spray.tank = .empty → t.spray.tank ≠ .empty → State.GoesAbsent .tankEmpty 0 s t
  alarms : t.spray.tank = s.spray.tank ∨ (s.spray.tank ≠ .empty ∧ t.spray.tank ≠ .empty) →
    t.notices.alarms = s.notices.alarms
  scan : t.scan = s.scan
  beside : State.PassBeside [.drySweep, .sprayLimit] s t

/-- What a change of the tank state brings to its alarm (R136). -/
def State.tankAlarm (old new : Tank) (s : State) : State :=
  if new = .empty then s.raiseAlarm .tankEmpty 0 else if old = .empty then s.alarmGone .tankEmpty 0 else s

theorem State.tankAlarm_spec (old new : Tank) (s : State) :
    let t := s.tankAlarm old new
    (old ≠ .empty → new = .empty → State.Raises .tankEmpty 0 s t) ∧
    (old = .empty → new ≠ .empty → State.GoesAbsent .tankEmpty 0 s t) ∧
    (old ≠ .empty ∧ new ≠ .empty → t.notices.alarms = s.notices.alarms) ∧
    State.PassBeside [] s t ∧ t.spray = s.spray ∧ t.scan = s.scan := by
  unfold State.tankAlarm
  by_cases he : new = .empty
  · rw [if_pos he]
    exact ⟨fun _ _ => State.raiseAlarm_raises _ _ s, fun _ h => absurd he h, fun h => absurd he h.2,
      State.raiseAlarm_passBeside _ _ s, by simp, by simp⟩
  · rw [if_neg he]
    by_cases ho : old = .empty
    · rw [if_pos ho]
      exact ⟨fun h => absurd ho h, fun _ _ => State.alarmGone_goes _ _ s, fun h => absurd ho h.1,
        State.alarmGone_passBeside _ _ s, by simp, by simp⟩
    · rw [if_neg ho]
      exact ⟨fun _ h => absurd h he, fun h => absurd h ho, fun _ => rfl, State.passBeside_refl s, rfl, rfl⟩

theorem State.postBoth_passBeside {k : EventKind}
    (hk : k ∈ [EventKind.alarmRaised, .alarmGone, .ceilingBinding, .tankState]) (s : State) :
    State.PassBeside [] s (s.postBoth k) := by
  have post := fun l => EventSet.post_spec k (s.notices.events l)
  refine ⟨fun l j hj => ?_, fun l => ?_, fun j _ => State.told_postBoth k, fun _ _ _ => rfl,
    fun src _ => CeilingTable.sameEntry_refl _ src, fun _ _ => rfl, rfl⟩
  · rw [State.postBoth_events]
    exact (post l).2.2.2 j fun e => hj (e ▸ hk)
  · rw [State.postBoth_events]
    exact (post l).2.2.1

theorem State.takeLevel_spec (r : Result) (s : State) : State.LevelTaken r s (s.takeLevel r) := by
  cases hr : r.stale with
  | true =>
    rw [show s.takeLevel r = s from if_pos hr]
    exact ⟨fun _ => rfl, (fun h => by rw [hr] at h; cases h), (fun h => by rw [hr] at h; cases h),
      (fun h => by rw [hr] at h; cases h), (fun h => by rw [hr] at h; cases h), fun h h' => absurd h' h,
      fun h h' => absurd h h', fun _ => rfl, rfl, State.passBeside_refl s⟩
  | false =>
    obtain ⟨new, hnew⟩ : ∃ n, n = nextTank s.settings.spray r.value.toNat s.spray.tank := ⟨_, rfl⟩
    obtain ⟨v, hv⟩ : ∃ v, v = s.modSpray fun y => { y with level := some r.value.toNat, tank := new } := ⟨_, rfl⟩
    have e : s.takeLevel r = if new = s.spray.tank then v else
        ((v.postBoth .tankState).tankAlarm s.spray.tank new).judgeBars := by
      rw [hv, hnew]; exact if_neg (by rw [hr]; decide)
    have vSpray : v.spray = { s.spray with level := some r.value.toNat, tank := new } := by rw [hv]; rfl
    have marked : State.PassBeside [] s v := by
      rw [hv]
      exact ⟨fun _ _ _ => EventSet.sameKind_refl _ _, fun _ => rfl, fun _ _ => id, fun _ _ _ => rfl,
        fun src _ => CeilingTable.sameEntry_refl _ src, fun _ _ => rfl, rfl⟩
    have vAlarms : v.notices.alarms = s.notices.alarms := by rw [hv]; rfl
    have vScan : v.scan = s.scan := by rw [hv]; rfl
    by_cases hn : new = s.spray.tank
    · rw [e, if_pos hn]
      have tank : v.spray.tank = s.spray.tank := by rw [vSpray]; exact hn
      exact ⟨(fun h => by rw [hr] at h; cases h), fun _ => by rw [vSpray], fun _ => by rw [vSpray]; exact hnew,
        fun _ _ => by rw [vSpray, hn], fun _ h => absurd tank h, fun h h' => absurd (tank.symm.trans h') h,
        fun h h' => absurd (tank.trans h) h', fun _ => vAlarms, vScan, marked.mono (by simp)⟩
    · obtain ⟨p, hp⟩ : ∃ p, p = v.postBoth .tankState := ⟨_, rfl⟩
      obtain ⟨a, ha⟩ : ∃ a, a = p.tankAlarm s.spray.tank new := ⟨_, rfl⟩
      have posted : State.PassBeside [] v p := by rw [hp]; exact State.postBoth_passBeside (by simp) v
      have pTold : p.told .tankState := by rw [hp]; exact State.postBoth_told _ v
      have pAlarms : p.notices.alarms = s.notices.alarms := by rw [hp, State.postBoth_alarms]; exact vAlarms
      obtain ⟨raises, goes, quiet, alarmed, aSpray, aScan⟩ := State.tankAlarm_spec s.spray.tank new p
      rw [← ha] at raises goes quiet alarmed aSpray aScan
      obtain ⟨settles, judged, -⟩ := State.judgeBars_spec a
      have last := State.judgeBars_passBeside a
      have et : s.takeLevel r = a.judgeBars := by rw [e, if_neg hn, ha, hp]
      rw [et]
      have tScan : a.judgeBars.scan = a.scan := by rw [settles.rest]
      generalize a.judgeBars = t at *
      have spray : a.spray = v.spray := by rw [aSpray, hp]; rfl
      have tank : t.spray.tank = new := by rw [settles.tank.1, spray, vSpray]
      unfold State.Raises State.GoesAbsent at *
      rw [pAlarms] at raises goes quiet
      refine ⟨(fun h => by rw [hr] at h; cases h), fun _ => by rw [settles.tank.2.1, spray, vSpray], fun _ => tank.trans hnew,
        fun _ h => absurd (tank.symm.trans h) hn,
        fun _ _ => ⟨last.told _ (by decide) (alarmed.told _ (by decide) pTold), judged⟩, fun ho h => ?_, fun ho h => ?_,
        fun h => ?_, by rw [tScan, aScan, hp]; exact vScan,
        (((marked.trans posted).trans alarmed).trans last).mono (by simp)⟩
      · obtain ⟨raised, told⟩ := raises ho (tank.symm.trans h)
        exact ⟨by rw [last.now, settles.alarms]; exact raised, last.told _ (by decide) told⟩
      · obtain ⟨gone, told⟩ := goes ho fun hm => h (tank.trans hm)
        exact ⟨by rw [settles.alarms]; exact gone, fun hs => last.told _ (by decide) (told hs)⟩
      · rcases h with h | h
        · exact absurd (tank.symm.trans h) hn
        · rw [settles.alarms]
          exact quiet ⟨h.1, fun hm => h.2 (tank.trans hm)⟩

end

end Sys2Proof.Machine
end

section
/-! OIL_HOT and SLOPE at the end of a slow pass (R53, R54, R156). -/

namespace Sys2Proof.Machine

/-- An oil temperature is taken, from `s` to `t` (R54). -/
structure State.OilTaken (r : Result) (s t : State) : Prop where
  stale : r.stale = true → t = s
  rises : r.stale = false → (s.ceiling.entry .oilHot).active = false →
    (t.ceiling.entry .oilHot).active = decide ((s.settings.caps.oilLimit : Int) ≤ r.value)
  falls : r.stale = false → (s.ceiling.entry .oilHot).active = true →
    (t.ceiling.entry .oilHot).active = !decide (r.value < (s.settings.caps.oilLimit : Int) - 50)
  begins : (s.ceiling.entry .oilHot).active = false → (t.ceiling.entry .oilHot).active = true →
    (t.ceiling.entry .oilHot).cap = s.settings.caps.oilCap ∧ State.Raises .oilHot 0 s t
  ends : (s.ceiling.entry .oilHot).active = true → (t.ceiling.entry .oilHot).active = false →
    State.GoesAbsent .oilHot 0 s t
  alarms : (t.ceiling.entry .oilHot).active = (s.ceiling.entry .oilHot).active → t.notices.alarms = s.notices.alarms
  same : t.spray = s.spray ∧ t.scan = s.scan
  beside : State.PassBeside [.oilHot] s t

section
variable {r : Result} {s t : State}

theorem State.oilTaken_refl (h : r.stale = true ∨
    ((s.ceiling.entry .oilHot).active = false → ¬(s.settings.caps.oilLimit : Int) ≤ r.value) ∧
    ((s.ceiling.entry .oilHot).active = true → ¬r.value < (s.settings.caps.oilLimit : Int) - 50)) :
    State.OilTaken r s s := by
  refine ⟨fun _ => rfl, fun hr hw => ?_, fun hr hw => ?_, fun h1 h2 => ?_, fun h1 h2 => ?_, fun _ => rfl, ⟨rfl, rfl⟩,
    State.passBeside_refl s⟩
  · rcases h with h | h
    · rw [hr] at h; cases h
    · rw [hw, decide_eq_false (h.1 hw)]
  · rcases h with h | h
    · rw [hr] at h; cases h
    · rw [hw, decide_eq_false (h.2 hw)]; rfl
  · rw [h1] at h2; cases h2
  · rw [h1] at h2; cases h2

theorem State.takeOil_spec (r : Result) (s : State) : State.OilTaken r s (s.takeOil r) := by
  cases hr : r.stale with
  | true =>
    rw [show s.takeOil r = s from if_pos hr]
    exact State.oilTaken_refl (.inl hr)
  | false =>
    have e : s.takeOil r =
        if !(s.ceiling.entry .oilHot).active && decide ((s.settings.caps.oilLimit : Int) ≤ r.value) then
          (s.activate .oilHot s.settings.caps.oilCap).raiseAlarm .oilHot 0
        else if (s.ceiling.entry .oilHot).active && decide (r.value < (s.settings.caps.oilLimit : Int) - 50) then
          (s.deactivate .oilHot).alarmGone .oilHot 0
        else s := if_neg (by rw [hr]; decide)
    rw [e]
    clear e
    cases hw : (s.ceiling.entry .oilHot).active with
    | false =>
      by_cases hot : (s.settings.caps.oilLimit : Int) ≤ r.value
      · rw [if_pos (by simp [hot])]
        obtain ⟨active, cap, -, settles⟩ := State.activate_spec .oilHot s.settings.caps.oilCap s
        have posted := State.activate_passBeside .oilHot s.settings.caps.oilCap s
        have frame : (s.activate .oilHot s.settings.caps.oilCap).spray = s.spray ∧
            (s.activate .oilHot s.settings.caps.oilCap).scan = s.scan := by simp
        generalize s.activate .oilHot s.settings.caps.oilCap = y at *
        have raises := State.raiseAlarm_raises .oilHot 0 y
        have raised := State.raiseAlarm_passBeside .oilHot 0 y
        have rest := State.raiseAlarm_rest .oilHot 0 y
        generalize y.raiseAlarm .oilHot 0 = t at *
        have ceiling : t.ceiling = y.ceiling := by rw [rest]
        unfold State.Raises at raises
        rw [settles.alarms] at raises
        refine ⟨(fun h => by rw [hr] at h; cases h), fun _ _ => by rw [ceiling, active, decide_eq_true hot],
          (fun _ h => by rw [hw] at h; cases h), fun _ _ => ⟨by rw [ceiling, cap], raises⟩,
          (fun h => by rw [hw] at h; cases h), (fun h => by rw [ceiling, active, hw] at h; cases h),
          ⟨by rw [rest]; exact frame.1, by rw [rest]; exact frame.2⟩, (posted.trans raised).mono (by simp)⟩
      · rw [if_neg (by simp [hot]), if_neg (by simp)]
        exact State.oilTaken_refl (.inr ⟨fun _ => hot, (fun h => by rw [hw] at h; cases h)⟩)
    | true =>
      rw [if_neg (by simp)]
      by_cases cool : r.value < (s.settings.caps.oilLimit : Int) - 50
      · rw [if_pos (by simp [cool])]
        obtain ⟨inactive, -, -, settles⟩ := State.deactivate_spec .oilHot s
        have posted := State.deactivate_passBeside .oilHot s
        have frame : (s.deactivate .oilHot).spray = s.spray ∧ (s.deactivate .oilHot).scan = s.scan := by simp
        generalize s.deactivate .oilHot = y at *
        have goes := State.alarmGone_goes .oilHot 0 y
        have gone := State.alarmGone_passBeside .oilHot 0 y
        have rest := State.alarmGone_rest .oilHot 0 y
        generalize y.alarmGone .oilHot 0 = t at *
        have ceiling : t.ceiling = y.ceiling := by rw [rest]
        unfold State.GoesAbsent at goes
        rw [settles.alarms] at goes
        refine ⟨(fun h => by rw [hr] at h; cases h), (fun _ h => by rw [hw] at h; cases h),
          fun _ _ => by rw [ceiling, inactive, decide_eq_true cool]; rfl, (fun h => by rw [hw] at h; cases h),
          fun _ _ => goes, (fun h => by rw [ceiling, inactive, hw] at h; cases h),
          ⟨by rw [rest]; exact frame.1, by rw [rest]; exact frame.2⟩, (posted.trans gone).mono (by simp)⟩
      · rw [if_neg (by simp [cool])]
        exact State.oilTaken_refl (.inr ⟨(fun h => by rw [hw] at h; cases h), fun _ => cool⟩)

end

/-- A pitch is taken, from `s` to `t` (R53). -/
structure State.PitchTaken (r : Result) (s t : State) : Prop where
  stale : r.stale = true → t = s
  slope : r.stale = false → t.scan.slope = nextSlope s.settings.caps r.value.natAbs s.scan.slope
  zero : t.scan.slope ≠ s.scan.slope → t.scan.slope = .zero → (t.ceiling.entry .slope).active = false
  rises : t.scan.slope ≠ s.scan.slope → s.scan.slope = .zero → (t.ceiling.entry .slope).active = true
  cap : t.scan.slope ≠ s.scan.slope → t.scan.slope ≠ .zero →
    (t.ceiling.entry .slope).cap = slopeCap s.settings.caps t.scan.slope
  scan : t.scan = { s.scan with slope := t.scan.slope }
  same : t.spray = s.spray ∧ t.notices.alarms = s.notices.alarms
  beside : State.PassBeside [.slope] s t

theorem State.takePitch_spec (r : Result) (s : State) : State.PitchTaken r s (s.takePitch r) := by
  cases hr : r.stale with
  | true =>
    rw [show s.takePitch r = s from if_pos hr]
    exact ⟨fun _ => rfl, (fun h => by rw [hr] at h; cases h), fun h => absurd rfl h, fun h => absurd rfl h,
      fun h => absurd rfl h, rfl, ⟨rfl, rfl⟩, State.passBeside_refl s⟩
  | false =>
    obtain ⟨new, hn⟩ : ∃ n, n = nextSlope s.settings.caps r.value.natAbs s.scan.slope := ⟨_, rfl⟩
    obtain ⟨v, hv⟩ : ∃ v, v = s.modScan fun x => { x with slope := new } := ⟨_, rfl⟩
    have e : s.takePitch r = if new = s.scan.slope then v
        else if new = .zero then v.deactivate .slope
        else if s.scan.slope = .zero then v.activate .slope (slopeCap s.settings.caps new)
        else v.updateCap .slope (slopeCap s.settings.caps new) := by
      rw [hv, hn]; exact if_neg (by rw [hr]; decide)
    have marked : State.PassBeside [] s v := by rw [hv]; exact State.passBeside_scan _ s
    have slope : v.scan.slope = new := by rw [hv]; rfl
    have scan : v.scan = { s.scan with slope := v.scan.slope } := by rw [hv]; rfl
    have same : v.spray = s.spray ∧ v.notices.alarms = s.notices.alarms := by rw [hv]; exact ⟨rfl, rfl⟩
    rw [e]
    clear e hv
    have follows : ∀ t : State, t.scan = v.scan → t.spray = v.spray → t.notices.alarms = v.notices.alarms →
        State.PassBeside [.slope] v t →
        (new ≠ s.scan.slope → new = .zero → (t.ceiling.entry .slope).active = false) →
        (new ≠ s.scan.slope → s.scan.slope = .zero → (t.ceiling.entry .slope).active = true) →
        (new ≠ s.scan.slope → new ≠ .zero → (t.ceiling.entry .slope).cap = slopeCap s.settings.caps new) →
        State.PitchTaken r s t := by
      intro t tScan tSpray tAlarms beside zero rises cap
      have tSlope : t.scan.slope = new := by rw [tScan, slope]
      refine ⟨(fun h => by rw [hr] at h; cases h), fun _ => tSlope.trans hn, ?_, ?_, ?_, ?_,
        ⟨tSpray.trans same.1, tAlarms.trans same.2⟩, (marked.trans beside).mono (by simp)⟩
      · rw [tSlope]; exact zero
      · rw [tSlope]; exact rises
      · rw [tSlope]; exact cap
      · rw [tScan]; exact scan
    by_cases h1 : new = s.scan.slope
    · rw [if_pos h1]
      exact follows v rfl rfl rfl (State.passBeside_refl v) (fun h => absurd h1 h) (fun h => absurd h1 h) fun h => absurd h1 h
    · rw [if_neg h1]
      by_cases h2 : new = .zero
      · rw [if_pos h2]
        obtain ⟨inactive, -, -, settles⟩ := State.deactivate_spec .slope v
        exact follows _ (by simp) (by simp) settles.alarms (State.deactivate_passBeside _ v) (fun _ _ => inactive)
          (fun _ h => absurd (h2.trans h.symm) h1) fun _ h => absurd h2 h
      · rw [if_neg h2]
        by_cases h3 : s.scan.slope = .zero
        · rw [if_pos h3]
          obtain ⟨active, cap, -, settles⟩ := State.activate_spec .slope (slopeCap s.settings.caps new) v
          exact follows _ (by simp) (by simp) settles.alarms (State.activate_passBeside _ _ v) (fun _ h => absurd h h2)
            (fun _ _ => active) fun _ _ => cap
        · rw [if_neg h3]
          obtain ⟨-, cap, -, settles⟩ := State.updateCap_spec .slope (slopeCap s.settings.caps new) v
          exact follows _ (by simp) (by simp) settles.alarms (State.updateCap_passBeside _ _ v) (fun _ h => absurd h h2)
            (fun _ h => absurd h h3) fun _ _ => cap

end Sys2Proof.Machine
end

section
/-! The end of a slow pass from its parts (R147), and what of the alarm list survives it. -/

namespace Sys2Proof.Machine

/-- A reference is judged, from `s` to `t` (R153 to R155). -/
structure State.RefJudged (r : Reference) (raw : Nat) (s t : State) : Prop where
  stands : (r.passes raw = true ∧ (s.scan.fault = false ∨ s.scan.passRun < 5)) ∨
    (r.passes raw = false ∧ (s.scan.ref r).fail = false) → t = s.checkedAt r raw
  ends : r.passes raw = true → s.scan.fault = true → 5 ≤ s.scan.passRun → State.FaultEnded (s.checkedAt r raw) t
  fails : r.passes raw = false → (s.scan.ref r).fail = true → State.CauseTaken r.detail (s.checkedAt r raw) t
  record : t.scan.ref r = ⟨!r.passes raw, raw, s.now⟩
  run : t.scan.passRun = if r.passes raw then min 6 (s.scan.passRun + 1) else 0
  scan : t.scan = { s.scan with
    low := t.scan.low, mid := t.scan.mid, high := t.scan.high, passRun := t.scan.passRun, fault := t.scan.fault
    causes := t.scan.causes, comps := t.scan.comps, results := t.scan.results }
  same : t.spray = s.spray ∧ t.output = s.output
  beside : State.PassBeside [.sensorFault] s t

section
variable {r : Reference} {raw : Nat} {s t : State}

/-- The references' records are those of two scans that differ in no record. -/
theorem Scan.ref_congr {x y : Scan} (h : x.low = y.low ∧ x.mid = y.mid ∧ x.high = y.high) (r : Reference) : x.ref r = y.ref r := by
  obtain ⟨low, mid, high⟩ := h
  cases r
  · exact low
  · exact mid
  · exact high

/-- A judgement that goes on from the check as a part that leaves the records. -/
theorem State.refJudged_of {v : State} (hv : v = s.checkedAt r raw)
    (stands : (r.passes raw = true ∧ (s.scan.fault = false ∨ s.scan.passRun < 5)) ∨
      (r.passes raw = false ∧ (s.scan.ref r).fail = false) → t = v)
    (ends : r.passes raw = true → s.scan.fault = true → 5 ≤ s.scan.passRun → State.FaultEnded v t)
    (fails : r.passes raw = false → (s.scan.ref r).fail = true → State.CauseTaken r.detail v t)
    (run : t.scan.passRun = v.scan.passRun)
    (scan : t.scan = { v.scan with
      passRun := t.scan.passRun, fault := t.scan.fault, causes := t.scan.causes, comps := t.scan.comps
      results := t.scan.results })
    (same : t.spray = v.spray ∧ t.output = v.output) (beside : State.PassBeside [.sensorFault] v t) :
    State.RefJudged r raw s t := by
  obtain ⟨record, checked, rest⟩ := State.checkedAt_spec r raw s
  have marked : State.PassBeside [] s v := by rw [hv]; exact State.passBeside_scan _ s
  rw [← hv] at record checked rest
  have kept : t.scan.low = v.scan.low ∧ t.scan.mid = v.scan.mid ∧ t.scan.high = v.scan.high := by
    rw [scan]; exact ⟨rfl, rfl, rfl⟩
  refine ⟨hv ▸ stands, hv ▸ ends, hv ▸ fails, (Scan.ref_congr kept r).trans record, ?_, ?_, ?_,
    (marked.trans beside).mono (by simp)⟩
  · rw [run, checked]
  · rw [checked] at scan
    exact scan.trans (by rw [kept.1, kept.2.1, kept.2.2])
  · rw [same.1, same.2, rest]
    exact ⟨rfl, rfl⟩

theorem State.judgeReference_spec (r : Reference) (raw : Nat) (s : State) :
    State.RefJudged r raw s (s.judgeReference r raw) := by
  obtain ⟨v, hv⟩ : ∃ v, v = s.checkedAt r raw := ⟨_, rfl⟩
  have rest := (State.checkedAt_spec r raw s).2.1
  rw [← hv] at rest
  have quiet : ∀ (_ : s.judgeReference r raw = v)
      (_ : r.passes raw = true → s.scan.fault = true → ¬5 ≤ s.scan.passRun)
      (_ : r.passes raw = false → (s.scan.ref r).fail = false), State.RefJudged r raw s (s.judgeReference r raw) := by
    intro e he hf
    rw [e]
    exact State.refJudged_of hv (fun _ => rfl) (fun hp h h' => absurd h' (he hp h))
      (fun hp h => by rw [hf hp] at h; cases h) rfl rfl ⟨rfl, rfl⟩ (State.passBeside_refl v)
  cases hp : r.passes raw with
  | true =>
    by_cases hs : s.scan.fault = true ∧ 5 ≤ s.scan.passRun
    · have ended := State.endFault_spec v
      rw [State.judgeReference_ends hp hs.1 hs.2, ← hv]
      generalize v.endFault = t at *
      refine State.refJudged_of hv (fun h => ?_) (fun _ _ _ => ended) (fun h => by rw [hp] at h; cases h)
        (by rw [ended.scan]) ?_ ⟨ended.spray, ended.output⟩ ended.beside
      · rcases h with ⟨-, h | h⟩ | ⟨h, -⟩
        · rw [hs.1] at h; cases h
        · exact absurd hs.2 (by omega)
        · rw [hp] at h; cases h
      · have e := ended.scan
        rw [e]
    · refine quiet ?_ (fun _ h h' => hs ⟨h, h'⟩) (fun h => by rw [hp] at h; cases h)
      rw [hv]
      refine State.judgeReference_passes hp ?_
      cases hf : s.scan.fault with
      | false => exact .inl rfl
      | true => exact .inr (Nat.lt_of_not_le fun h => hs ⟨hf, h⟩)
  | false =>
    cases hr : (s.scan.ref r).fail with
    | false =>
      refine quiet ?_ (fun h => by rw [hp] at h; cases h) (fun _ => hr)
      rw [State.judgeReference_fails hp, hr, hv]
      rfl
    | true =>
      have taken := State.faultCause_spec r.detail v
      have e : s.judgeReference r raw = v.faultCause r.detail := by
        rw [State.judgeReference_fails hp, hr, hv]
        rfl
      rw [e]
      generalize v.faultCause r.detail = t at *
      have none : v.scan.passRun = 0 := by rw [rest, hp]; rfl
      have run : t.scan.passRun = v.scan.passRun := by
        cases hf : v.scan.fault with
        | true =>
          cases hc : v.scan.causes[r.detail] with
          | true => rw [taken.stands hf hc]
          | false => rw [(taken.adds hf hc).1]
        | false => rw [(taken.begins hf).2.1, none]
      refine State.refJudged_of hv (fun h => ?_) (fun h => by rw [hp] at h; cases h) (fun _ _ => taken) run ?_
        ⟨taken.spray, taken.output⟩ taken.beside
      · rcases h with ⟨h, -⟩ | ⟨-, h⟩
        · rw [hp] at h; cases h
        · rw [hr] at h; cases h
      · have e := taken.scan
        rw [e]

end

/-! ### The alarm list -/

/-- An alarm of a code with detail 0 stands with its condition present. -/
def AlarmStands (code : AlarmCode) (list : List Alarm) : Prop :=
  ∃ a ∈ list, a.code = code ∧ a.detail = 0 ∧ a.present = true

section
variable {code other : AlarmCode} {now : Time} {d : Nat} {list list' : List Alarm}

/-- A raise loses no entry whose condition is present (R191). -/
theorem RaisedIn.stands (h : RaisedIn now other d list list') (hs : AlarmStands code list) : AlarmStands code list' := by
  obtain ⟨a, ha, hc, hd, hp⟩ := hs
  obtain ⟨renewed, fresh⟩ := h
  by_cases hk : ∃ a ∈ list, a.code = other ∧ a.detail = d
  · rw [renewed hk]
    refine ⟨_, List.mem_map_of_mem ha, ?_⟩
    split
    · exact ⟨hc, hd, rfl⟩
    · exact ⟨hc, hd, hp⟩
  · obtain ⟨room, drops, full⟩ := fresh fun a ha h => hk ⟨a, ha, h⟩
    by_cases hl : list.length < 16
    · rw [room hl]
      exact ⟨a, List.mem_append_left _ ha, hc, hd, hp⟩
    · by_cases hg : ∃ a ∈ list, a.present = false
      · rw [drops (Nat.le_of_not_lt hl) hg]
        refine ⟨a, List.mem_append_left _ ?_, hc, hd, hp⟩
        exact (List.mem_eraseP_of_neg (by simp [hp])).2 ha
      · rw [full (Nat.le_of_not_lt hl) fun a ha => by
          by_contra hn
          exact hg ⟨a, ha, by simpa using hn⟩]
        exact ⟨a, ha, hc, hd, hp⟩

theorem AlarmStands.goneCauses {causes : Vector Bool 4} (hn : code ≠ .converterFault) (hs : AlarmStands code list) :
    AlarmStands code (goneCauses causes list) := by
  obtain ⟨a, ha, hc, hd, hp⟩ := hs
  exact ⟨a, List.mem_map.2 ⟨a, ha, if_neg fun h => hn (hc.symm.trans h.1)⟩, hc, hd, hp⟩

/-- The alarms after the condition of one code with detail 0 has gone absent. -/
def goneAt (code : AlarmCode) (list : List Alarm) : List Alarm := list.map fun a =>
  if a.code = code ∧ a.detail = 0 then { a with present := false } else a

theorem AlarmStands.goneAt (hn : code ≠ other) (hs : AlarmStands code list) : AlarmStands code (goneAt other list) := by
  obtain ⟨a, ha, hc, hd, hp⟩ := hs
  exact ⟨a, List.mem_map.2 ⟨a, ha, if_neg fun h => hn (hc.symm.trans h.1)⟩, hc, hd, hp⟩

end

/-! ### The pass -/

/-- A slow pass is completed from `s` to `t`: judged to `j`, its level taken to `l`, its oil temperature to `o` and its pitch
to `p` (R147). -/
structure State.PassTaken (raw : Nat) (s j l o p t : State) : Prop where
  judged : State.RefJudged s.scan.nextRef raw s j
  level : State.LevelTaken j.scan.results[(6 : Fin 9)] j l
  oil : State.OilTaken j.scan.results[(7 : Fin 9)] l o
  pitch : State.PitchTaken j.scan.results[(8 : Fin 9)] o p
  last : t = p.modScan fun x => { x with slow := none, nextRef := x.nextRef.next }

theorem State.completePass_spec (raw : Nat) (s : State) :
    ∃ j l o p, State.PassTaken raw s j l o p (s.completePass raw) := by
  obtain ⟨j, hj⟩ : ∃ j, j = s.judgeReference s.scan.nextRef raw := ⟨_, rfl⟩
  obtain ⟨l, hl⟩ : ∃ l, l = j.takeLevel j.scan.results[6] := ⟨_, rfl⟩
  obtain ⟨o, ho⟩ : ∃ o, o = l.takeOil l.scan.results[7] := ⟨_, rfl⟩
  obtain ⟨p, hp⟩ : ∃ p, p = o.takePitch o.scan.results[8] := ⟨_, rfl⟩
  have e : s.completePass raw = p.modScan fun x => { x with slow := none, nextRef := x.nextRef.next } := by
    rw [hp, ho, hl, hj]; rfl
  have judged := State.judgeReference_spec s.scan.nextRef raw s
  rw [← hj] at judged
  have level := State.takeLevel_spec j.scan.results[6] j
  rw [← hl] at level
  have oil := State.takeOil_spec l.scan.results[7] l
  rw [← ho] at oil
  have pitch := State.takePitch_spec o.scan.results[8] o
  rw [← hp] at pitch
  rw [oil.same.2, level.scan] at pitch
  rw [level.scan] at oil
  exact ⟨j, l, o, p, judged, level, oil, pitch, e⟩

end Sys2Proof.Machine
end

section
/-! What the end of a slow pass leaves (R147, R153 to R156), read off its parts. -/

namespace Sys2Proof.Machine

section
variable {raw : Nat} {s j l o p t : State}

theorem State.PassTaken.afterOil (h : State.PassTaken raw s j l o p t) : State.PassBeside [.slope] o t := by
  have last := State.passBeside_scan (posted := []) (fun x : Scan => { x with slow := none, nextRef := x.nextRef.next }) p
  rw [← h.last] at last
  exact (h.pitch.beside.trans last).mono (by simp)

theorem State.PassTaken.afterLevel (h : State.PassTaken raw s j l o p t) : State.PassBeside [.oilHot, .slope] l t :=
  (h.oil.beside.trans h.afterOil).mono (by simp)

theorem State.PassTaken.afterJudged (h : State.PassTaken raw s j l o p t) :
    State.PassBeside [.drySweep, .sprayLimit, .oilHot, .slope] j t :=
  (h.level.beside.trans h.afterLevel).mono (by simp)

theorem State.PassTaken.beside (h : State.PassTaken raw s j l o p t) :
    State.PassBeside [.sensorFault, .oilHot, .slope, .drySweep, .sprayLimit] s t :=
  (h.judged.beside.trans h.afterJudged).mono (by simp)

theorem State.PassTaken.scan (h : State.PassTaken raw s j l o p t) :
    t.scan = { j.scan with slow := none, nextRef := s.scan.nextRef.next, slope := t.scan.slope } := by
  have judged := h.judged.scan
  have pitch := h.pitch.scan
  rw [h.oil.same.2, h.level.scan] at pitch
  have nextRef : j.scan.nextRef = s.scan.nextRef := by rw [judged]
  have last : t.scan = { p.scan with slow := none, nextRef := p.scan.nextRef.next } := by rw [h.last]; rfl
  rw [pitch] at last
  rw [← nextRef]
  have slope : t.scan.slope = p.scan.slope := by rw [last]
  rw [slope]
  exact last

theorem State.PassTaken.spray (h : State.PassTaken raw s j l o p t) : t.spray = l.spray := by
  rw [h.last]
  exact h.pitch.same.1.trans h.oil.same.1

theorem State.PassTaken.alarms (h : State.PassTaken raw s j l o p t) : t.notices.alarms = o.notices.alarms := by
  rw [h.last]
  exact h.pitch.same.2

theorem State.PassTaken.record (h : State.PassTaken raw s j l o p t) :
    t.scan.ref s.scan.nextRef = ⟨!s.scan.nextRef.passes raw, raw, s.now⟩ := by
  rw [← h.judged.record]
  refine Scan.ref_congr ?_ _
  rw [h.scan]
  exact ⟨rfl, rfl, rfl⟩

theorem State.PassTaken.run (h : State.PassTaken raw s j l o p t) :
    t.scan.passRun = if s.scan.nextRef.passes raw then min 6 (s.scan.passRun + 1) else 0 := by
  rw [← h.judged.run, h.scan]

theorem State.PassTaken.sensorFault (h : State.PassTaken raw s j l o p t) :
    t.ceiling.sameEntry j.ceiling .sensorFault := h.afterJudged.entries _ (by decide)

/-- A check that neither begins nor ends a fault, nor adds a cause. -/
theorem State.PassTaken.stands (h : State.PassTaken raw s j l o p t)
    (hs : (s.scan.nextRef.passes raw = true ∧ (s.scan.fault = false ∨ s.scan.passRun < 5)) ∨
      (s.scan.nextRef.passes raw = false ∧ (s.scan.ref s.scan.nextRef).fail = false)) :
    t.scan.fault = s.scan.fault ∧ t.scan.causes = s.scan.causes ∧ t.scan.comps = s.scan.comps ∧
    t.scan.results = s.scan.results ∧
    (t.ceiling.entry .sensorFault).active = (s.ceiling.entry .sensorFault).active := by
  obtain ⟨-, checked, rest⟩ := State.checkedAt_spec s.scan.nextRef raw s
  rw [← h.judged.stands hs] at checked rest
  rw [h.sensorFault.1, h.scan]
  refine ⟨?_, ?_, ?_, ?_, ?_⟩
  · show j.scan.fault = _; rw [checked]
  · show j.scan.causes = _; rw [checked]
  · show j.scan.comps = _; rw [checked]
  · show j.scan.results = _; rw [checked]
  · rw [rest]

/-- A judgement that leaves the check as it stands leaves the alarms. -/
theorem State.RefJudged.alarms_stand {r : Reference} (h : State.RefJudged r raw s j)
    (hs : (r.passes raw = true ∧ (s.scan.fault = false ∨ s.scan.passRun < 5)) ∨
      (r.passes raw = false ∧ (s.scan.ref r).fail = false)) : j.notices.alarms = s.notices.alarms := by
  rw [h.stands hs, (State.checkedAt_spec r raw s).2.2]

/-- The end of a fault (R155). -/
theorem State.PassTaken.ends (h : State.PassTaken raw s j l o p t) (hp : s.scan.nextRef.passes raw = true)
    (hf : s.scan.fault = true) (hr : 5 ≤ s.scan.passRun) :
    t.scan.fault = false ∧ (∀ k : Fin 9, t.scan.results[k] = { s.scan.results[k] with stale := false }) ∧
    (∀ k : Fin 4, t.scan.comps[k] = { s.scan.comps[k] with counter := 0 } ∧ t.scan.causes[k] = false) ∧
    (t.ceiling.entry .sensorFault).active = false ∧
    j.notices.alarms = goneCauses s.scan.causes s.notices.alarms ∧
    ((∃ d : Fin 4, s.scan.causes[d] = true ∧ ∃ a ∈ s.notices.alarms, a.code = .converterFault ∧ a.detail = d.val ∧
      a.present = true) → t.told .alarmGone) := by
  obtain ⟨-, checked, rest⟩ := State.checkedAt_spec s.scan.nextRef raw s
  have ended := h.judged.ends hp hf hr
  generalize s.checkedAt s.scan.nextRef raw = v at *
  have causes : v.scan.causes = s.scan.causes := by rw [checked]
  have comps : v.scan.comps = s.scan.comps := by rw [checked]
  have results : v.scan.results = s.scan.results := by rw [checked]
  have notices : v.notices = s.notices := by rw [rest]
  obtain ⟨scan, endResults, endComps, inactive, alarms, told, -, -, -⟩ := ended
  rw [causes, notices] at alarms told
  rw [comps] at endComps
  rw [results] at endResults
  have fault : j.scan.fault = false := by rw [scan]
  rw [h.sensorFault.1]
  refine ⟨by rw [h.scan]; exact fault, fun k => by rw [h.scan]; exact endResults k, fun k => by rw [h.scan]; exact endComps k,
    inactive, alarms, fun hc => h.afterJudged.told _ (by decide) (told hc)⟩

/-- A further cause in a standing fault (R154). -/
theorem State.PassTaken.adds (h : State.PassTaken raw s j l o p t) (hp : s.scan.nextRef.passes raw = false)
    (ha : (s.scan.ref s.scan.nextRef).fail = true) (hf : s.scan.fault = true) :
    t.scan.fault = true ∧ t.scan.causes = s.scan.causes.set s.scan.nextRef.detail true ∧ t.scan.comps = s.scan.comps ∧
    t.scan.results = s.scan.results ∧
    (s.scan.causes[s.scan.nextRef.detail] = true → j.notices.alarms = s.notices.alarms) ∧
    (s.scan.causes[s.scan.nextRef.detail] = false → t.told .alarmRaised ∧
      RaisedIn s.now .converterFault s.scan.nextRef.detail.val s.notices.alarms j.notices.alarms) ∧
    j.ceiling = s.ceiling := by
  obtain ⟨-, checked, rest⟩ := State.checkedAt_spec s.scan.nextRef raw s
  have taken := h.judged.fails hp ha
  have now : j.now = s.now := h.judged.beside.now
  generalize s.checkedAt s.scan.nextRef raw = v at *
  have causes : v.scan.causes = s.scan.causes := by rw [checked]
  have comps : v.scan.comps = s.scan.comps := by rw [checked]
  have results : v.scan.results = s.scan.results := by rw [checked]
  have fault : v.scan.fault = true := by rw [checked]; exact hf
  have notices : v.notices = s.notices := by rw [rest]
  have ceiling : v.ceiling = s.ceiling := by rw [rest]
  have stands := taken.stands fault
  have adds := taken.adds fault
  rw [causes] at stands adds
  rw [h.scan]
  show j.scan.fault = true ∧ j.scan.causes = _ ∧ j.scan.comps = _ ∧ j.scan.results = _ ∧ _
  cases hc : s.scan.causes[s.scan.nextRef.detail] with
  | true =>
    have e := stands hc
    have kept : s.scan.causes.set s.scan.nextRef.detail true = s.scan.causes := by
      have := Vector.set_getElem_self (xs := s.scan.causes) (i := s.scan.nextRef.detail.val) s.scan.nextRef.detail.isLt
      rw [show s.scan.causes[s.scan.nextRef.detail.val] = true from hc] at this
      exact this
    rw [e, kept]
    exact ⟨fault, causes, comps, results, fun _ => by rw [notices], (fun h => by cases h), ceiling⟩
  | false =>
    obtain ⟨scan, entry, ⟨raised, told⟩, -⟩ := adds hc
    rw [notices, now] at raised
    rw [scan]
    exact ⟨fault, rfl, comps, results, (fun h => by cases h), fun _ => ⟨h.afterJudged.told _ (by decide) told, raised⟩,
      entry.trans ceiling⟩

/-- With every result stale the later parts of the pass move nothing (R156). -/
theorem State.PassTaken.allStale (h : State.PassTaken raw s j l o p t) (hs : ∀ k : Fin 9, j.scan.results[k].stale = true) :
    t = j.modScan fun x => { x with slow := none, nextRef := x.nextRef.next } := by
  rw [h.last, h.pitch.stale (hs 8), h.oil.stale (hs 7), h.level.stale (hs 6)]

/-- The beginning of a fault (R154). -/
theorem State.PassTaken.begins (h : State.PassTaken raw s j l o p t) (hp : s.scan.nextRef.passes raw = false)
    (ha : (s.scan.ref s.scan.nextRef).fail = true) (hf : s.scan.fault = false) :
    State.FaultBegins s.scan.nextRef.detail.val s t ∧
    RaisedIn s.now .converterFault s.scan.nextRef.detail.val s.notices.alarms j.notices.alarms := by
  obtain ⟨-, checked, rest⟩ := State.checkedAt_spec s.scan.nextRef raw s
  have taken := h.judged.fails hp ha
  have now : j.now = s.now := h.judged.beside.now
  generalize s.checkedAt s.scan.nextRef raw = v at *
  have comps : v.scan.comps = s.scan.comps := by rw [checked]
  have fault : v.scan.fault = false := by rw [checked]; exact hf
  have notices : v.notices = s.notices := by rw [rest]
  have settings : v.settings = s.settings := by rw [rest]
  obtain ⟨begun, run, stale, counters, causes, active, cap, raised, told⟩ := taken.begins fault
  rw [h.allStale stale]
  rw [comps] at counters
  rw [settings] at cap
  rw [notices] at raised
  exact ⟨⟨begun, run, stale, counters, causes, active, cap, raised, told⟩, by rw [now] at raised; exact raised⟩

end

end Sys2Proof.Machine
end

section
/-! The tank, the oil, the slope and the alarm list at the end of a slow pass (R135, R136, R53, R54). -/

namespace Sys2Proof.Machine

section
variable {raw : Nat} {s j l o p t : State}

/-- The tank at the end of a pass (R135). -/
theorem State.PassTaken.tank (h : State.PassTaken raw s j l o p t) :
    (j.scan.results[(6 : Fin 9)].stale = true → t.spray = s.spray) ∧
    (j.scan.results[(6 : Fin 9)].stale = false →
      t.spray.level = some j.scan.results[(6 : Fin 9)].value.toNat ∧
      t.spray.tank = nextTank s.settings.spray j.scan.results[(6 : Fin 9)].value.toNat s.spray.tank ∧
      (t.spray.tank = s.spray.tank → t.spray = { s.spray with level := some j.scan.results[(6 : Fin 9)].value.toNat }) ∧
      (t.spray.tank ≠ s.spray.tank → t.told .tankState ∧ t.barsJudged ∧ (t.spray.tank = .empty → t.told .alarmRaised))) := by
  have beside := h.afterLevel
  have spray : j.spray = s.spray := h.judged.same.1
  have settings : j.settings = s.settings := h.judged.beside.settings
  have level := h.level
  rw [h.spray]
  refine ⟨fun hr => by rw [level.stale hr, spray], fun hr => ?_⟩
  have tank := level.tank hr
  have stands := level.stands hr
  have moves := level.moves hr
  have empties := level.empties
  rw [spray] at stands moves empties
  rw [spray, settings] at tank
  refine ⟨level.level hr, tank, stands, fun hn => ?_⟩
  obtain ⟨told, judged⟩ := moves hn
  refine ⟨beside.told _ (by decide) told, ?_, fun he =>
    beside.told _ (by decide) (empties (fun hs => hn (he.trans hs.symm)) he).2⟩
  exact State.barsJudged_congr judged (by rw [beside.rest]) (by rw [beside.rest]) h.spray
    (beside.entries _ (by decide)) (beside.entries _ (by decide))

/-- The entry of OIL_HOT before its part and after the pass. -/
theorem State.PassTaken.oilEntry (h : State.PassTaken raw s j l o p t) :
    l.ceiling.sameEntry s.ceiling .oilHot ∧ t.ceiling.sameEntry o.ceiling .oilHot ∧ l.settings = s.settings :=
  ⟨((h.judged.beside.trans h.level.beside).entries _ (by decide)), h.afterOil.entries _ (by decide),
    (h.judged.beside.trans h.level.beside).settings⟩

/-- OIL_HOT at the end of a pass (R54). -/
theorem State.PassTaken.oilHot (h : State.PassTaken raw s j l o p t) :
    let r := j.scan.results[(7 : Fin 9)]
    let was := (s.ceiling.entry .oilHot).active
    let is := (t.ceiling.entry .oilHot).active
    let set := s.settings.caps
    (r.stale = true → is = was) ∧
    (r.stale = false → was = false → is = decide ((set.oilLimit : Int) ≤ r.value)) ∧
    (r.stale = false → was = true → is = !decide (r.value < (set.oilLimit : Int) - 50)) ∧
    (was = false → is = true → (t.ceiling.entry .oilHot).cap = set.oilCap ∧ t.told .alarmRaised) := by
  obtain ⟨before, after, settings⟩ := h.oilEntry
  obtain ⟨stale, rises, falls, begins, -, -, -, -⟩ := h.oil
  have told := h.afterOil.told
  rw [before.1, settings] at rises falls begins
  dsimp only
  rw [after.1, after.2.1]
  refine ⟨fun hr => by rw [stale hr, before.1], rises, falls, fun hw hi => ?_⟩
  obtain ⟨cap, -, raised⟩ := begins hw hi
  exact ⟨cap, told _ (by decide) raised⟩

/-- The SLOPE level at the end of a pass (R53). -/
theorem State.PassTaken.slope (h : State.PassTaken raw s j l o p t) :
    (j.scan.results[(8 : Fin 9)].stale = true → t.scan.slope = s.scan.slope) ∧
    (j.scan.results[(8 : Fin 9)].stale = false →
      t.scan.slope = nextSlope s.settings.caps j.scan.results[(8 : Fin 9)].value.natAbs s.scan.slope) ∧
    (t.scan.slope ≠ s.scan.slope →
      (t.scan.slope = .zero → (t.ceiling.entry .slope).active = false) ∧
      (s.scan.slope = .zero → (t.ceiling.entry .slope).active = true) ∧
      (t.scan.slope ≠ .zero → (t.ceiling.entry .slope).cap = slopeCap s.settings.caps t.scan.slope)) := by
  have before : o.scan.slope = s.scan.slope := by rw [h.oil.same.2, h.level.scan, h.judged.scan]
  have after : t.scan.slope = p.scan.slope := by rw [h.last]; rfl
  have ceiling : t.ceiling = p.ceiling := by rw [h.last]; rfl
  have settings : o.settings = s.settings := h.oil.beside.settings.trans h.oilEntry.2.2
  obtain ⟨stale, slope, zero, rises, cap, -, -, -⟩ := h.pitch
  rw [before] at slope zero rises cap
  rw [settings] at slope cap
  rw [after, ceiling]
  exact ⟨fun hr => by rw [stale hr, before], slope, fun hn => ⟨zero hn, rises hn, cap hn⟩⟩

/-- No alarm but those of the converter fault goes absent in the judgement of a reference. -/
theorem State.PassTaken.judged_alarmStands {code : AlarmCode} (h : State.PassTaken raw s j l o p t)
    (hn : code ≠ .converterFault) (ha : AlarmStands code s.notices.alarms) : AlarmStands code j.notices.alarms := by
  cases hp : s.scan.nextRef.passes raw with
  | true =>
    by_cases hs : s.scan.fault = true ∧ 5 ≤ s.scan.passRun
    · rw [(h.ends hp hs.1 hs.2).2.2.2.2.1]
      exact ha.goneCauses hn
    · rw [h.judged.alarms_stand (.inl ⟨hp, ?_⟩)]
      · exact ha
      · cases hf : s.scan.fault with
        | false => exact .inl rfl
        | true => exact .inr (Nat.lt_of_not_le fun h => hs ⟨hf, h⟩)
  | false =>
    cases hr : (s.scan.ref s.scan.nextRef).fail with
    | false =>
      rw [h.judged.alarms_stand (.inr ⟨hp, hr⟩)]
      exact ha
    | true =>
      cases hf : s.scan.fault with
      | false => exact (h.begins hp hr hf).2.stands ha
      | true =>
        obtain ⟨-, -, -, -, stood, added, -⟩ := h.adds hp hr hf
        cases hc : s.scan.causes[s.scan.nextRef.detail] with
        | true => rw [stood hc]; exact ha
        | false => exact (added hc).2.stands ha

/-- The alarm list after the tank's part (R136). -/
theorem State.PassTaken.levelledAlarms (h : State.PassTaken raw s j l o p t) :
    (t.spray.tank = s.spray.tank ∨ (s.spray.tank ≠ .empty ∧ t.spray.tank ≠ .empty) →
      l.notices.alarms = j.notices.alarms) ∧
    (s.spray.tank ≠ .empty → t.spray.tank = .empty → RaisedIn s.now .tankEmpty 0 j.notices.alarms l.notices.alarms) ∧
    (s.spray.tank = .empty → t.spray.tank ≠ .empty → l.notices.alarms = goneAt .tankEmpty j.notices.alarms ∧
      (AlarmStands .tankEmpty s.notices.alarms → t.told .alarmGone)) := by
  have spray : j.spray = s.spray := h.judged.same.1
  have now : l.now = s.now := (h.judged.beside.trans h.level.beside).now
  obtain ⟨-, -, -, -, -, empties, fills, alarms, -, -⟩ := h.level
  unfold State.Raises at empties
  rw [spray] at empties fills alarms
  rw [now] at empties
  rw [h.spray]
  refine ⟨alarms, fun h1 h2 => (empties h1 h2).1, fun h1 h2 => ?_⟩
  obtain ⟨gone, told⟩ := fills h1 h2
  exact ⟨gone, fun ha => h.afterLevel.told _ (by decide) (told (h.judged_alarmStands (by decide) ha))⟩

theorem State.PassTaken.levelled_alarmStands {code : AlarmCode} (h : State.PassTaken raw s j l o p t)
    (h1 : code ≠ .converterFault) (h2 : code ≠ .tankEmpty) (ha : AlarmStands code s.notices.alarms) :
    AlarmStands code l.notices.alarms := by
  obtain ⟨quiet, raised, gone⟩ := h.levelledAlarms
  have judged := h.judged_alarmStands h1 ha
  by_cases hs : s.spray.tank = .empty
  · by_cases ht : t.spray.tank = .empty
    · rw [quiet (.inl (ht.trans hs.symm))]
      exact judged
    · rw [(gone hs ht).1]
      exact judged.goneAt h2
  · by_cases ht : t.spray.tank = .empty
    · exact (raised hs ht).stands judged
    · rw [quiet (.inr ⟨hs, ht⟩)]
      exact judged

/-- The alarm list after the oil's part (R54). -/
theorem State.PassTaken.oilAlarms (h : State.PassTaken raw s j l o p t) :
    let was := (s.ceiling.entry .oilHot).active
    let is := (t.ceiling.entry .oilHot).active
    (is = was → t.notices.alarms = l.notices.alarms) ∧
    (was = false → is = true → RaisedIn s.now .oilHot 0 l.notices.alarms t.notices.alarms) ∧
    (was = true → is = false → t.notices.alarms = goneAt .oilHot l.notices.alarms ∧
      (AlarmStands .oilHot s.notices.alarms → t.told .alarmGone)) := by
  obtain ⟨before, after, -⟩ := h.oilEntry
  have now : o.now = s.now := ((h.judged.beside.trans h.level.beside).trans h.oil.beside).now
  have stands := h.levelled_alarmStands (code := .oilHot) (by decide) (by decide)
  have told := h.afterOil.told
  obtain ⟨-, -, -, begins, ends, alarms, -, -⟩ := h.oil
  unfold State.Raises at begins
  rw [before.1] at begins ends alarms
  rw [now] at begins
  dsimp only
  rw [after.1, h.alarms]
  refine ⟨alarms, fun h1 h2 => (begins h1 h2).2.1, fun h1 h2 => ?_⟩
  obtain ⟨gone, gets⟩ := ends h1 h2
  exact ⟨gone, fun ha => told _ (by decide) (gets (stands ha))⟩

end

end Sys2Proof.Machine
end

section
/-! O50, from the parts of a completed pass. -/

namespace Sys2Proof.Machine

/-! ### What stays absent -/

/-- No alarm of a code and detail has its condition present. -/
def AlarmAbsent (code : AlarmCode) (d : Nat) (list : List Alarm) : Prop :=
  ∀ a ∈ list, a.code = code → a.detail = d → a.present = false

section
variable {code other : AlarmCode} {now : Time} {d e : Nat} {list list' : List Alarm}

/-- A raise of another code brings no absent condition back (R191). -/
theorem RaisedIn.absent (h : RaisedIn now other e list list') (hn : other ≠ code) (ha : AlarmAbsent code d list) :
    AlarmAbsent code d list' := by
  obtain ⟨renewed, fresh⟩ := h
  have added : ∀ part : List Alarm, part ⊆ list → AlarmAbsent code d (part ++ [⟨other, e, now, now, 1, true⟩]) := by
    intro part hs a hm hc hd
    rcases List.mem_append.1 hm with hm | hm
    · exact ha a (hs hm) hc hd
    · rw [List.mem_singleton] at hm
      rw [hm] at hc
      exact absurd hc hn
  by_cases hk : ∃ a ∈ list, a.code = other ∧ a.detail = e
  · rw [renewed hk]
    intro a hm hc hd
    obtain ⟨b, hb, rfl⟩ := List.mem_map.1 hm
    by_cases hbk : b.code = other ∧ b.detail = e
    · rw [if_pos hbk] at hc
      exact absurd (hbk.1.symm.trans hc) hn
    · rw [if_neg hbk] at hc hd ⊢
      exact ha b hb hc hd
  · obtain ⟨room, drops, full⟩ := fresh fun a ha h => hk ⟨a, ha, h⟩
    by_cases hl : list.length < 16
    · rw [room hl]
      exact added list (List.Subset.refl _)
    · by_cases hg : ∃ a ∈ list, a.present = false
      · rw [drops (Nat.le_of_not_lt hl) hg]
        exact added _ List.eraseP_subset
      · rw [full (Nat.le_of_not_lt hl) fun a ha => by
          by_contra hn
          exact hg ⟨a, ha, by simpa using hn⟩]
        exact ha

theorem AlarmAbsent.goneAt (ha : AlarmAbsent code d list) : AlarmAbsent code d (goneAt other list) := by
  intro a hm hc hd
  obtain ⟨b, hb, rfl⟩ := List.mem_map.1 hm
  by_cases hbk : b.code = other ∧ b.detail = 0
  · rw [if_pos hbk]
  · rw [if_neg hbk] at hc hd ⊢
    exact ha b hb hc hd

theorem alarmAbsent_goneCauses {causes : Vector Bool 4} {d : Fin 4} (hc : causes[d] = true) :
    AlarmAbsent .converterFault d.val (goneCauses causes list) := by
  intro a hm hcode hd
  obtain ⟨b, -, rfl⟩ := List.mem_map.1 hm
  by_cases hb : b.code = .converterFault ∧ ∃ k : Fin 4, causes[k] = true ∧ b.detail = k.val
  · rw [if_pos hb]
  · rw [if_neg hb] at hcode hd
    exact absurd ⟨hcode, d, hc, hd⟩ hb

end

section
variable {raw : Nat} {s j l o p t u : State}

/-- An alarm absent after the judgement, of neither later part's code, is absent after the pass. -/
theorem State.PassTaken.absent {code : AlarmCode} {d : Nat} (h : State.PassTaken raw s j l o p t)
    (h1 : AlarmCode.tankEmpty ≠ code) (h2 : AlarmCode.oilHot ≠ code) (ha : AlarmAbsent code d j.notices.alarms) :
    AlarmAbsent code d t.notices.alarms := by
  obtain ⟨quiet, raised, gone⟩ := h.levelledAlarms
  have levelled : AlarmAbsent code d l.notices.alarms := by
    by_cases hs : s.spray.tank = .empty
    · by_cases ht : t.spray.tank = .empty
      · rw [quiet (.inl (ht.trans hs.symm))]
        exact ha
      · rw [(gone hs ht).1]
        exact ha.goneAt
    · by_cases ht : t.spray.tank = .empty
      · exact (raised hs ht).absent h1 ha
      · rw [quiet (.inr ⟨hs, ht⟩)]
        exact ha
  obtain ⟨quiet, raised, gone⟩ := h.oilAlarms
  cases hw : (s.ceiling.entry .oilHot).active <;> cases hi : (t.ceiling.entry .oilHot).active
  · rw [quiet (hi.trans hw.symm)]
    exact levelled
  · exact (raised hw hi).absent h2 levelled
  · rw [(gone hw hi).1]
    exact levelled.goneAt
  · rw [quiet (hi.trans hw.symm)]
    exact levelled

/-- What the judged reference leaves, in the words of R153 to R155. -/
theorem State.PassTaken.reference (h : State.PassTaken raw s j l o p t) {r : Reference} (hr : s.scan.nextRef = r) :
    let x := s.scan
    let y := t.scan
    let good := r.expected ≤ raw + 24 ∧ raw ≤ r.expected + 24
    let again := (x.ref r).fail = true
    let stands := y.fault = x.fault ∧ y.causes = x.causes ∧ y.comps = x.comps ∧ y.results = x.results ∧
      (t.ceiling.entry .sensorFault).active = (s.ceiling.entry .sensorFault).active
    (good → (y.ref r).fail = false ∧ y.passRun = min 6 (x.passRun + 1) ∧
      (x.fault = false ∨ x.passRun < 5 → stands) ∧
      (x.fault = true → 5 ≤ x.passRun →
        y.fault = false ∧ (∀ k : Fin 9, y.results[k] = { x.results[k] with stale := false }) ∧
        (∀ k : Fin 4, y.comps[k] = { x.comps[k] with counter := 0 } ∧ y.causes[k] = false) ∧
        (t.ceiling.entry .sensorFault).active = false ∧
        (∀ d : Fin 4, x.causes[d] = true → ∀ a ∈ t.notices.alarms, a.code = .converterFault → a.detail = d.val →
          a.present = false) ∧
        ((∃ d : Fin 4, x.causes[d] = true ∧ ∃ a ∈ s.notices.alarms, a.code = .converterFault ∧ a.detail = d.val ∧
          a.present = true) → t.told .alarmGone))) ∧
    (¬good → (y.ref r).fail = true ∧ y.passRun = 0 ∧
      (¬again → stands) ∧ (again → x.fault = false → State.FaultBegins r.detail.val s t) ∧
      (again → x.fault = true → y.fault = true ∧ y.causes = x.causes.set r.detail true ∧ y.comps = x.comps ∧
        (x.causes[r.detail] = false → t.told .alarmRaised))) := by
  subst hr
  have record := h.record
  have run := h.run
  have passes := Reference.passes_iff s.scan.nextRef raw
  dsimp only
  constructor
  · intro hg
    have hp := passes.2 hg
    rw [hp] at record run
    refine ⟨by rw [record]; rfl, run, fun hs => h.stands (.inl ⟨hp, hs⟩), fun hf hr => ?_⟩
    obtain ⟨fault, results, comps, inactive, alarms, told⟩ := h.ends hp hf hr
    refine ⟨fault, results, comps, inactive, fun d hd => ?_, told⟩
    exact h.absent (by decide) (by decide) (alarms ▸ alarmAbsent_goneCauses hd)
  · intro hg
    have hp : s.scan.nextRef.passes raw = false := by
      rw [← Bool.not_eq_true]
      exact fun hp => hg (passes.1 hp)
    rw [hp] at record run
    refine ⟨by rw [record]; rfl, run, fun ha => h.stands (.inr ⟨hp, by simpa using ha⟩), fun ha hf => (h.begins hp ha hf).1,
      fun ha hf => ?_⟩
    obtain ⟨fault, causes, comps, -, -, added, -⟩ := h.adds hp ha hf
    exact ⟨fault, causes, comps, fun hc => (added hc).1⟩

end

end Sys2Proof.Machine
end

section
/-! O50: the alarm list as a whole, and the run of the last conversion of a pass. -/

namespace Sys2Proof.Machine

section
variable {raw : Nat} {s j l o p t u : State}

/-- The alarm list over the judged reference, the tank and the oil (R53 to R55, R136, R154). -/
theorem State.PassTaken.alarmChain (h : State.PassTaken raw s j l o p t) {r : Reference} (hr : s.scan.nextRef = r) :
    let x := s.scan
    let good := r.expected ≤ raw + 24 ∧ raw ≤ r.expected + 24
    let again := (x.ref r).fail = true
    let was := (s.ceiling.entry .oilHot).active
    let is := (t.ceiling.entry .oilHot).active
    ∃ checked levelled : List Alarm,
      (good → x.fault = false ∨ x.passRun < 5 → checked = s.notices.alarms) ∧
      (good → x.fault = true → 5 ≤ x.passRun → checked = goneCauses x.causes s.notices.alarms) ∧
      (¬good → ¬again ∨ (x.fault = true ∧ x.causes[r.detail] = true) → checked = s.notices.alarms) ∧
      (¬good → again → x.fault = false ∨ x.causes[r.detail] = false →
        RaisedIn s.now .converterFault r.detail.val s.notices.alarms checked) ∧
      (t.spray.tank = s.spray.tank ∨ (s.spray.tank ≠ .empty ∧ t.spray.tank ≠ .empty) → levelled = checked) ∧
      (s.spray.tank ≠ .empty → t.spray.tank = .empty → RaisedIn s.now .tankEmpty 0 checked levelled) ∧
      (s.spray.tank = .empty → t.spray.tank ≠ .empty →
        levelled = goneAt .tankEmpty checked ∧ (AlarmStands .tankEmpty s.notices.alarms → t.told .alarmGone)) ∧
      (is = was → t.notices.alarms = levelled) ∧
      (was = false → is = true → RaisedIn s.now .oilHot 0 levelled t.notices.alarms) ∧
      (was = true → is = false →
        t.notices.alarms = goneAt .oilHot levelled ∧ (AlarmStands .oilHot s.notices.alarms → t.told .alarmGone)) := by
  subst hr
  have passes := Reference.passes_iff s.scan.nextRef raw
  have fails : ¬(s.scan.nextRef.expected ≤ raw + 24 ∧ raw ≤ s.scan.nextRef.expected + 24) →
      s.scan.nextRef.passes raw = false := fun hg => by
    rw [← Bool.not_eq_true]
    exact fun hp => hg (passes.1 hp)
  obtain ⟨t1, t2, t3⟩ := h.levelledAlarms
  obtain ⟨o1, o2, o3⟩ := h.oilAlarms
  refine ⟨j.notices.alarms, l.notices.alarms, fun hg hs => h.judged.alarms_stand (.inl ⟨passes.2 hg, hs⟩),
    fun hg hf hr => (h.ends (passes.2 hg) hf hr).2.2.2.2.1, fun hg hs => ?_, fun hg ha hs => ?_, t1, t2, t3, o1, o2, o3⟩
  · rcases Bool.eq_false_or_eq_true (s.scan.ref s.scan.nextRef).fail with ha | ha
    · rcases hs with hs | ⟨hf, hc⟩
      · exact absurd ha hs
      · obtain ⟨-, -, -, -, stood, -, -⟩ := h.adds (fails hg) ha hf
        exact stood hc
    · exact h.judged.alarms_stand (.inr ⟨fails hg, ha⟩)
  · rcases Bool.eq_false_or_eq_true s.scan.fault with hf | hf
    · rcases hs with hs | hc
      · rw [hf] at hs; cases hs
      · obtain ⟨-, -, -, -, -, added, -⟩ := h.adds (fails hg) ha hf
        exact (added hc).2
    · exact (h.begins (fails hg) ha hf).2

/-- The tank in the words of R135. -/
theorem State.PassTaken.tankRows (h : State.PassTaken raw s j l o p t) :
    let r := t.scan.results[(6 : Fin 9)]
    let set := s.settings.spray
    let level := r.value.toNat
    (r.stale = true → t.spray = s.spray) ∧
    (r.stale = false → t.spray.level = some level ∧
      (s.spray.tank = .normal → t.spray.tank =
        (if level < set.tankEmpty then .empty else if level < set.tankLow then .low else .normal)) ∧
      (s.spray.tank = .low → t.spray.tank =
        (if set.tankLow + set.hysteresis < level then .normal
         else if level < set.tankEmpty then .empty else .low)) ∧
      (s.spray.tank = .empty → t.spray.tank =
        (if set.tankLow + set.hysteresis < level then .normal
         else if set.tankEmpty + set.hysteresis < level then .low else .empty)) ∧
      (t.spray.tank = s.spray.tank → t.spray = { s.spray with level := some level }) ∧
      (t.spray.tank ≠ s.spray.tank → t.told .tankState ∧ t.barsJudged ∧
        (t.spray.tank = .empty → t.told .alarmRaised))) := by
  have results : t.scan.results = j.scan.results := by rw [h.scan]
  obtain ⟨stale, fresh⟩ := h.tank
  dsimp only
  rw [results]
  refine ⟨stale, fun hr => ?_⟩
  obtain ⟨level, tank, stands, moves⟩ := fresh hr
  refine ⟨level, fun hs => ?_, fun hs => ?_, fun hs => ?_, stands, moves⟩ <;> (rw [tank, hs]; rfl)

/-- The SLOPE level in the words of R53. -/
theorem State.PassTaken.slopeRows (h : State.PassTaken raw s j l o p t) :
    let x := s.scan
    let y := t.scan
    let r := y.results[(8 : Fin 9)]
    let p := r.value.natAbs
    let set := s.settings.caps
    (r.stale = true → y.slope = x.slope) ∧
    (r.stale = false → x.slope = .zero → y.slope =
      (if set.slope2 ≤ p then .two else if set.slope1 ≤ p then .one else .zero)) ∧
    (r.stale = false → x.slope = .one → y.slope =
      (if set.slope2 ≤ p then .two else if p + 10 < set.slope1 then .zero else .one)) ∧
    (r.stale = false → x.slope = .two → y.slope =
      (if p + 10 < set.slope1 then .zero else if p + 10 < set.slope2 then .one else .two)) ∧
    (y.slope ≠ x.slope →
      (y.slope = .zero → (t.ceiling.entry .slope).active = false) ∧
      (x.slope = .zero → (t.ceiling.entry .slope).active = true) ∧
      (y.slope = .one → (t.ceiling.entry .slope).cap = set.slopeCap1) ∧
      (y.slope = .two → (t.ceiling.entry .slope).cap = set.slopeCap2)) := by
  have results : t.scan.results = j.scan.results := by rw [h.scan]
  obtain ⟨stale, fresh, moves⟩ := h.slope
  dsimp only
  rw [results]
  refine ⟨stale, fun hr hs => ?_, fun hr hs => ?_, fun hr hs => ?_, fun hn => ?_⟩
  · rw [fresh hr, hs]; rfl
  · rw [fresh hr, hs]; rfl
  · rw [fresh hr, hs]; rfl
  · obtain ⟨zero, rises, cap⟩ := moves hn
    refine ⟨zero, rises, fun hs => ?_, fun hs => ?_⟩
    · rw [cap (by rw [hs]; decide), hs]; rfl
    · rw [cap (by rw [hs]; decide), hs]; rfl

/-- The conversion that ends a pass. -/
theorem execConversionEnd_pass {after : Nat} {code : BitVec 12} {q : Sequence} {e : Micros} (hq : s.scan.seq = some q)
    (he : s.scan.convStart = some e) (hd : 10 ≤ since (s.elapse after).nowUs e) (hn : q.count ≤ q.done + 1)
    (hf : s.scan.fast = none) (hs : s.scan.slow = some ⟨.reference, .converting⟩) :
    exec (.conversionEnd after code) s =
      .next ((s.elapse after).freeConverter.completePass ((q.sum + code.toNat) / q.count)) := by
  rw [execConversionEnd_done (code := code) he hd, State.addCode_slow (s := s.elapse after) hq hn hf hs,
    State.completeSlow_reference]
  rfl

end

end Sys2Proof.Machine
end

section
/-! O50, assembled. -/

namespace Sys2Proof.Machine

/-- Settles O50: the pass runs by `execConversionEnd_pass`, and its parts by `State.completePass_spec`. -/
theorem passesComplete : Obligations.PassesComplete := by
  unfold Obligations.PassesComplete
  intro after code s q e hq he hd hn hf hs
  have run := execConversionEnd_pass (code := code) hq he hd hn hf hs
  obtain ⟨j, l, o, p, h⟩ := State.completePass_spec ((q.sum + code.toNat) / q.count) (s.elapse after).freeConverter
  refine ⟨_, run, ?_⟩
  generalize (s.elapse after).freeConverter.completePass ((q.sum + code.toNat) / q.count) = t at *
  generalize (q.sum + code.toNat) / q.count = raw at *
  obtain ⟨r, hr⟩ : ∃ r, s.scan.nextRef = r := ⟨_, rfl⟩
  have reference := h.reference (r := r) hr
  have chain := h.alarmChain (r := r) hr
  have tank := h.tankRows
  have oil := h.oilHot
  have slope := h.slopeRows
  have scan := h.scan
  have judged := h.judged.scan
  have record := h.record
  obtain ⟨events, masks, -, tallies, entries, channels, rest⟩ := h.beside
  have next : t.scan.nextRef = s.scan.nextRef.next := by rw [scan]; rfl
  have idle : t.scan.slow = none ∧ t.scan.seq = none ∧ t.scan.convStart = none ∧ t.scan.fast = none ∧
      t.scan.input3 = s.scan.input3 := by
    rw [scan]
    refine ⟨rfl, ?_, ?_, ?_, ?_⟩
    · show j.scan.seq = none; rw [judged]; rfl
    · show j.scan.convStart = none; rw [judged]; rfl
    · show j.scan.fast = none; rw [judged]; exact hf
    · show j.scan.input3 = _; rw [judged]; rfl
  obtain ⟨i1, i2, i3, i4, i5⟩ := idle
  have results : t.scan.results = j.scan.results := by rw [scan]
  rw [← results] at oil
  rw [show (s.elapse after).freeConverter.scan.nextRef = r from hr] at record
  have rawIs : (t.scan.ref r).raw = raw := by rw [record]
  have timeIs : (t.scan.ref r).time = (s.elapse after).now := by rw [record]; rfl
  obtain ⟨good, bad⟩ := reference
  cases r
  all_goals
    simp only [hr] at next ⊢
    exact ⟨i1, i2, i3, i4, i5, next, rawIs, timeIs, good, bad, tank, oil, slope, chain, events, masks, tallies, entries,
      channels, rest⟩

end Sys2Proof.Machine
end

section
/-! An abandoned conversion (R140, R153, R154): the fault first, then the code 0 (entry 14). -/

namespace Sys2Proof.Machine

/-- A conversion is abandoned, from `u` to `w`, before its code is added (R153, R154). -/
structure State.Abandons (u w : State) : Prop where
  run : w.scan.passRun = 0
  fault : w.scan.fault = true
  rest : w = { u with scan := w.scan, ceiling := w.ceiling, notices := w.notices, bank := w.bank }
  begins : u.scan.fault = false → State.FaultBegins 3 u w
  stands : u.scan.fault = true → u.scan.causes[(3 : Fin 4)] = true → w = { u with scan := { u.scan with passRun := 0 } }
  adds : u.scan.fault = true → u.scan.causes[(3 : Fin 4)] = false →
    w.scan = { u.scan with passRun := 0, causes := u.scan.causes.set 3 true } ∧ w.ceiling = u.ceiling ∧
    State.Raises .converterFault 3 u w
  scan : w.scan = { u.scan with
    results := w.scan.results, passRun := w.scan.passRun, fault := true, causes := w.scan.causes, comps := w.scan.comps }

section
variable {s t u w : State} {q : Sequence} {ch : Fin 6}

/-- The state in which an abandoned conversion's fault stands. -/
def State.lateFault (u : State) : State := (u.modScan fun x => { x with passRun := 0 }).faultCause 3

theorem State.lateFault_spec (u : State) : State.Abandons u u.lateFault := by
  obtain ⟨v, hv⟩ : ∃ v, v = u.modScan fun x => { x with passRun := 0 } := ⟨_, rfl⟩
  have e : u.lateFault = v.faultCause 3 := by rw [hv]; rfl
  obtain ⟨stands, adds, begins, scan, spray, output, beside⟩ := State.faultCause_spec 3 v
  rw [e]
  generalize v.faultCause 3 = w at *
  have vScan : v.scan = { u.scan with passRun := 0 } := by rw [hv]; rfl
  have rest : w = { u with scan := w.scan, ceiling := w.ceiling, notices := w.notices, bank := w.bank } := by
    have whole := beside.rest
    have bank : w.bank = { v.bank with tallies := w.bank.tallies } := by
      generalize w.bank.tallies = tallies at *
      rw [whole]
    rw [← bank, spray, output, hv] at whole
    exact whole
  have run : w.scan.passRun = 0 := by
    cases hf : v.scan.fault with
    | false => exact (begins hf).2.1
    | true =>
      cases hc : v.scan.causes[(3 : Fin 4)] with
      | true => rw [stands hf hc, vScan]
      | false => rw [(adds hf hc).1, vScan]
  rw [vScan] at scan stands adds begins
  refine ⟨run, by rw [scan], rest, fun hf => ?_, fun hf hc => ?_, fun hf hc => ?_, scan⟩
  · have begun := begins hf
    rw [hv] at begun
    exact begun
  · rw [stands hf hc, hv]
    rfl
  · obtain ⟨added, ceiling, raises, -⟩ := adds hf hc
    rw [hv] at ceiling raises
    exact ⟨added, ceiling, raises⟩

theorem execConversionTimeout_late {after : Nat} {e : Micros} (he : s.scan.convStart = some e)
    (hd : 120 ≤ since (s.elapse after).nowUs e) :
    exec (.conversionTimeout after) s = .next ((s.elapse after).lateFault.addCode 0) := by
  refine if_pos ?_
  have scan : (s.elapse after).scan = s.scan := (State.elapse_frame after s).2.2.2.2.2.2.2.1
  unfold State.conversionLate
  simp only [scan, he]
  exact decide_eq_true hd

/-! ### The code 0 in a standing fault -/

theorem State.addCode_idle (hq : s.scan.seq = none) (code : Nat) : s.addCode code = s := by
  unfold State.addCode
  simp only [hq]

/-- No comparator is evaluated while a converter fault stands (R154). -/
theorem State.compared_faulty (h : s.scan.fault = true) (ch : Fin 6) (q : Sequence) :
    s.compared ch q = s.formResult (ch.castLE (by decide)) q := by
  obtain ⟨f, hf⟩ : ∃ f, f = s.formResult (ch.castLE (by decide)) q := ⟨_, rfl⟩
  have fault : f.scan.fault = true := by rw [hf]; exact h
  unfold State.compared
  dsimp only
  rw [← hf]
  split
  · exact State.evaluate_faulty fault
  · rfl

/-- A fast channel completed in a standing fault (R144, R154). -/
theorem State.completeFast_faulty (h : s.scan.fault = true) (ch : Fin 6) (q : Sequence) :
    let t := s.completeFast ch q
    t.scan.results = s.scan.results.set (ch.castLE (by decide) : Fin 9) (s.formedResult (ch.castLE (by decide)) q) ∧
    t.scan.comps = s.scan.comps ∧ (∀ next : Fin 6, next.val = ch.val + 1 → t.scan.fast = some next) ∧
    (ch = 5 → t.scan.fast = none) ∧ t = { s with scan := t.scan } := by
  have passes := (State.completeFast_spec ch q s).passes
  rw [State.compared_faulty h, State.formResult_eq] at passes
  intro t
  have e : t = s.completeFast ch q := rfl
  rw [← e] at passes
  clear_value t
  obtain ⟨next, ends, rest⟩ := passes
  refine ⟨by rw [rest], by rw [rest], fun k hk => (next k hk).1, fun hc => (ends hc).1, ?_⟩
  exact State.eq_of_scan (u := s) rest

/-- The result a sequence forms, in the words of R142. -/
theorem State.formedResult_eq (k : Fin 9) (q : Sequence) (s : State) : s.formedResult k q =
    (let range : Int × Int := match k.val with
       | 0 | 1 => (0, 5000) | 2 | 3 | 4 => (0, 3000) | 5 | 6 => (0, 1000) | 7 => (-400, 1500) | _ => (-450, 450)
     ⟨max range.1 (min range.2 (q.offset + (q.average * q.span / 4095 : Nat))), q.average, s.scan.fault, s.now⟩) :=
  congrArg (fun z : Int => (⟨z, q.average, s.scan.fault, s.now⟩ : Result)) (scaledValue_eq k q.offset q.span q.average)

end

end Sys2Proof.Machine
end

section
/-! O49: the end of a pass in a standing fault, and the statement. -/

namespace Sys2Proof.Machine

theorem not_eq_decide_not {b : Bool} {p : Prop} [Decidable p] (h : b = true ↔ p) : (!b) = decide (¬p) := by
  by_cases hp : p
  · rw [h.2 hp, decide_eq_false (not_not_intro hp)]; rfl
  · rw [decide_eq_true hp, Bool.eq_false_of_not_eq_true (mt h.1 hp)]; rfl

section
variable {raw : Nat} {s j l o p t : State}

/-- A reference judged in a fault whose pass run is 0 neither ends the fault nor moves what it does not name. -/
theorem State.PassTaken.faulty (h : State.PassTaken raw s j l o p t) (hf : s.scan.fault = true) (hr : s.scan.passRun = 0) :
    t.scan.fault = true ∧ t.scan.comps = s.scan.comps ∧ t.scan.results = s.scan.results ∧ j.ceiling = s.ceiling ∧
    (s.scan.nextRef.passes raw = true ∨ (s.scan.ref s.scan.nextRef).fail = false → t.scan.causes = s.scan.causes) ∧
    (s.scan.nextRef.passes raw = false → (s.scan.ref s.scan.nextRef).fail = true →
      t.scan.causes = s.scan.causes.set s.scan.nextRef.detail true ∧
      (s.scan.causes[s.scan.nextRef.detail] = false → t.told .alarmRaised)) := by
  have quiet : ∀ _ : (s.scan.nextRef.passes raw = true ∧ (s.scan.fault = false ∨ s.scan.passRun < 5)) ∨
      (s.scan.nextRef.passes raw = false ∧ (s.scan.ref s.scan.nextRef).fail = false),
      t.scan.fault = true ∧ t.scan.comps = s.scan.comps ∧ t.scan.results = s.scan.results ∧ j.ceiling = s.ceiling ∧
      t.scan.causes = s.scan.causes := by
    intro hs
    obtain ⟨fault, causes, comps, results, -⟩ := h.stands hs
    refine ⟨fault.trans hf, comps, results, ?_, causes⟩
    rw [h.judged.stands hs, (State.checkedAt_spec _ raw s).2.2]
  cases hp : s.scan.nextRef.passes raw with
  | true =>
    obtain ⟨fault, comps, results, ceiling, causes⟩ := quiet (.inl ⟨hp, .inr (by omega)⟩)
    exact ⟨fault, comps, results, ceiling, fun _ => causes, (fun h => by cases h)⟩
  | false =>
    cases ha : (s.scan.ref s.scan.nextRef).fail with
    | false =>
      obtain ⟨fault, comps, results, ceiling, causes⟩ := quiet (.inr ⟨hp, ha⟩)
      exact ⟨fault, comps, results, ceiling, fun _ => causes, (fun _ h => by cases h)⟩
    | true =>
      obtain ⟨fault, causes, comps, results, -, added, ceiling⟩ := h.adds hp ha hf
      refine ⟨fault, comps, results, ceiling, fun hs => ?_, fun _ _ => ⟨causes, fun hc => (added hc).1⟩⟩
      rcases hs with hs | hs <;> cases hs

/-- A pass whose results are all stale moves the Scan Unit and the notices alone (R156). -/
theorem State.PassTaken.onlyNotices (h : State.PassTaken raw s j l o p t) (hc : j.ceiling = s.ceiling)
    (hs : ∀ k : Fin 9, j.scan.results[k].stale = true) :
    t.scan.slope = s.scan.slope ∧ t.ceiling = s.ceiling ∧
    t = { s with scan := t.scan, notices := t.notices, bank := t.bank } := by
  have e := h.allStale hs
  obtain ⟨spray, output⟩ := h.judged.same
  have slope : j.scan.slope = s.scan.slope := by rw [h.judged.scan]
  have tSpray : t.spray = s.spray := by rw [e]; exact spray
  have tOutput : t.output = s.output := by rw [e]; exact output
  have tCeiling : t.ceiling = s.ceiling := by rw [e]; exact hc
  have tSlope : t.scan.slope = s.scan.slope := by rw [e]; exact slope
  refine ⟨tSlope, tCeiling, ?_⟩
  have whole := h.beside.rest
  have bank : t.bank = { s.bank with tallies := t.bank.tallies } := by
    generalize t.bank.tallies = tallies at *
    rw [whole]
  rw [← bank, tSpray, tOutput, tCeiling] at whole
  exact whole

/-- The end of a pass by an abandoned conversion, in the words of R153 to R156. -/
theorem State.PassTaken.abandoned (h : State.PassTaken raw s j l o p t) {r : Reference} (hr : s.scan.nextRef = r)
    (hf : s.scan.fault = true) (hrun : s.scan.passRun = 0) (hidle : s.scan.fast = none ∧ s.scan.seq = none ∧
      s.scan.convStart = none) :
    let x := s.scan
    let y := t.scan
    let good := r.expected ≤ raw + 24 ∧ raw ≤ r.expected + 24
    y.slow = none ∧ y.seq = none ∧ y.convStart = none ∧ y.fast = none ∧ y.fault = true ∧ y.comps = x.comps ∧
    y.results = x.results ∧ y.nextRef = r.next ∧
    y.ref r = ⟨decide (¬good), raw, s.now⟩ ∧ y.passRun = (if good then 1 else 0) ∧
    (good ∨ (x.ref r).fail = false → y.causes = x.causes) ∧
    (¬good → (x.ref r).fail = true → y.causes = x.causes.set r.detail true ∧
      (x.causes[r.detail] = false → t.told .alarmRaised)) ∧
    ((∀ k : Fin 9, x.results[k].stale = true) → y.slope = x.slope ∧ t.ceiling = s.ceiling ∧
      t = { s with scan := y, notices := t.notices, bank := t.bank }) := by
  subst hr
  have passes := Reference.passes_iff s.scan.nextRef raw
  have record := h.record
  have run := h.run
  have scan := h.scan
  have judged := h.judged.scan
  obtain ⟨fault, comps, results, ceiling, stands, adds⟩ := h.faulty hf hrun
  obtain ⟨idleFast, idleSeq, idleStart⟩ := hidle
  have same : t.scan.results = j.scan.results := by rw [scan]
  dsimp only
  refine ⟨by rw [scan], ?_, ?_, ?_, fault, comps, results, by rw [scan], ?_, ?_, ?_, ?_, fun hs => ?_⟩
  · rw [scan]; show j.scan.seq = none; rw [judged]; exact idleSeq
  · rw [scan]; show j.scan.convStart = none; rw [judged]; exact idleStart
  · rw [scan]; show j.scan.fast = none; rw [judged]; exact idleFast
  · rw [record]
    congr 1
    exact not_eq_decide_not passes
  · rw [run, hrun]
    exact if_congr passes rfl rfl
  · exact fun hs => stands (hs.imp_left passes.2)
  · intro hg
    refine adds ?_
    rw [← Bool.not_eq_true]
    exact fun hp => hg (passes.1 hp)
  · refine h.onlyNotices ceiling fun k => ?_
    rw [← same, results]
    exact hs k

end

end Sys2Proof.Machine
end

section
/-! O49, assembled. -/

namespace Sys2Proof.Machine

/-- Settles O49: the fault stands by `State.lateFault_spec`, and its code goes on by `State.addCode_goes`,
`State.completeFast_faulty`, `State.completeSlow_channel` and `State.PassTaken.abandoned`. -/
theorem conversionsAbandoned : Obligations.ConversionsAbandoned := by
  unfold Obligations.ConversionsAbandoned
  intro after s e he hd
  have exe := execConversionTimeout_late he hd
  have uScan : (s.elapse after).scan = s.scan := (State.elapse_frame after s).2.2.2.2.2.2.2.1
  have uCeiling : (s.elapse after).ceiling = s.ceiling := (State.elapse_frame after s).2.2.2.1
  generalize s.elapse after = u at *
  obtain ⟨run, fault, rest, begins, stands, adds, scan⟩ := State.lateFault_spec u
  refine ⟨u.lateFault, u.lateFault.addCode 0, exe, ?_⟩
  clear exe
  generalize u.lateFault = w at *
  have now : w.now = u.now := by unfold State.now; rw [rest]
  have nowUs : w.nowUs = u.nowUs := by unfold State.nowUs; rw [rest]
  rw [uScan] at begins stands adds scan
  rw [uCeiling] at adds
  have seq : w.scan.seq = s.scan.seq := by rw [scan]
  have fast : w.scan.fast = s.scan.fast := by rw [scan]
  have slow : w.scan.slow = s.scan.slow := by rw [scan]
  refine ⟨run, fault, rest, begins, stands, adds, fun hq => State.addCode_idle (seq.trans hq) 0, fun q hq hn => ?_, ⟨?_, ?_⟩, ?_⟩
  · rw [State.addCode_goes (seq.trans hq) hn, nowUs]
    rfl
  · intro q ch hq hn hf
    rw [State.addCode_fast (seq.trans hq) hn (fast.trans hf)]
    obtain ⟨results, comps, next, ends, only⟩ := State.completeFast_faulty fault ch (q.adding 0)
    rw [State.formedResult_eq, fault, now] at results
    exact ⟨results, comps, next, ends, only⟩
  · intro q i next ch hq hn hf hs hm
    have e := State.addCode_slow (code := 0) (seq.trans hq) hn (fast.trans hf) (slow.trans hs)
    rw [State.completeSlow_channel hm, State.formedResult_eq, fault, now, nowUs] at e
    rw [e]
    exact ⟨rfl, rfl⟩
  · intro q hq hn hf hs
    rw [State.addCode_slow (code := 0) (seq.trans hq) hn (fast.trans hf) (slow.trans hs), State.completeSlow_reference]
    obtain ⟨j, l, o, p, h⟩ := State.completePass_spec (q.adding 0).average w.freeConverter
    have average : (q.adding 0).average = q.sum / q.count := rfl
    rw [average] at h ⊢
    obtain ⟨r, hr⟩ : ∃ r, w.scan.nextRef = r := ⟨_, rfl⟩
    have ended := h.abandoned (r := r) hr fault run ⟨fast.trans hf, rfl, rfl⟩
    have wNow : w.freeConverter.now = u.now := now
    rw [wNow] at ended
    generalize w.freeConverter.completePass (q.sum / q.count) = t at *
    cases r
    all_goals
      simp only [hr]
      exact ended

end Sys2Proof.Machine
end
